-- ==== Sys2Proof/Word.lean ====
section
/-!
DEFINITION. The word types of the TB576: all registers are 32 bits wide (R14), all multi-byte values are little-endian (R13).
-/
namespace Sys2Proof

/-- One byte. -/
abbrev Byte := BitVec 8

/-- A 16-bit code: a point value, a Q1.15 quantity. -/
abbrev Half := BitVec 16

/-- A 32-bit register word. -/
abbrev Word := BitVec 32

end Sys2Proof
end

