-- ==== Sys2Proof/Syntax.lean ====
section
/-!
DEFINITION. The commands of spec/opcode_table.json: one constructor of `Instr` per row, with the operands the row's rule
gives the event, message, register write or opcode it stands for. Lengths and contents of byte lists are checked by
`Instr.wf` (Sys2Proof/WellFormed.lean).
-/
namespace Sys2Proof

/-- Global cell c = 48 b + i (R1, R2). -/
abbrev Cell := Fin 576
/-- Global branch b. -/
abbrev Br := Fin 12
/-- Lane number of Table 03-1. -/
abbrev LaneNo := Fin 28
/-- Local output pair. -/
abbrev Pair := Fin 12
/-- Point address (R121). -/
abbrev Pa := Fin 299008

/-- A receiver that a training burst arrives at: one of the TB576, or a port of a cell node. -/
inductive Rx where
  | lane (n : LaneNo)
  | node (cell : Cell) (portB : Bool)
deriving DecidableEq, Repr

/-- One slab or 64b/66b block as it is on the wire, first bit first (R62, R69). -/
abbrev Slab := List Bool

/-- One step of sign-sign LMS on a coefficient whose error correlation is not zero (R76): 0 the CTLE, 1 to 5 DFE h1 to h5, and the
direction. -/
structure EqStep where
  coef : Fin 6
  up : Bool
deriving DecidableEq, Repr

/-- Slabs or blocks that arrive at a receiver of the TB576 one after the other, and the drift: how many slab or block times the
transmitter's clock gained on the receiver's since the run before (R71);
and the steps that the equaliser's error correlations ask for meanwhile (R76). -/
structure SlabRun where
  slabs : List Slab
  drift : Int
  steps : List EqStep
deriving DecidableEq, Repr

/-- Slabs that arrive at one lane. -/
structure LaneRun where
  lane : LaneNo
  run : SlabRun
deriving DecidableEq, Repr

/-- The slabs with which a lane loses its lock, and whether it has lost the signal after them (R67, R86). -/
structure LockLoss where
  lane : LaneNo
  signal : Bool
  run : SlabRun
deriving DecidableEq, Repr

/-- What carries a message: slabs at a lane, or the bytes at a port of a cell node. -/
inductive Content where
  | slabs (run : SlabRun)
  | bytes (l : List Byte)
deriving DecidableEq, Repr

/-- Where a message arrives: at a lane of the TB576 as slabs, or at a port of a cell node as its bytes. -/
inductive Arrival where
  | lane (n : LaneNo) (run : SlabRun)
  | node (cell : Cell) (portB : Bool) (bytes : List Byte)
deriving DecidableEq, Repr

/-- A command packet without its opcode, which its row supplies (R316): the transport that delivered it (0 PCIe, 1 UDP,
2 SPI), the header fields of Table 13-1, the parameter words, and where the reply goes: on PCIe the reply buffer's host address
(R324), on UDP the source of the datagram (`Packet.source`, R330). On PCIe a number of 2^64 or more stands for a host that does not take
the reply and the completion: their write fails (Table 13-6). -/
structure Packet where
  transport : Fin 3
  flags : Byte
  queue : Byte
  tag : Half
  length : Half
  scope : Half
  replyMax : Half
  crc : Word
  params : List Word
  reply : Nat
deriving DecidableEq, Repr

/-- The source of a datagram as one number: Ethernet port, UDP port, IPv4 address, MAC address. -/
def Packet.source (port mac ip udpPort : Nat) : Nat := port + 2 * udpPort + 2 ^ 17 * ip + 2 ^ 49 * mac

/-- An error that the ECC of the SRAM has met (R34): the region of Table 01-5, whether it was corrected, and the point address, global
cell or word offset in units of 8 bytes. -/
structure SramErr where
  region : Fin 9
  corrected : Bool
  addr : Nat
deriving DecidableEq, Repr

/-- A scrub pass (R294): the source of a copy pair that differs, if one does, and the errors that the ECC of the SRAM has met since the last
pass (R34), which have no row of their own. -/
structure ScrubPass where
  mismatch : Option Nat
  errors : List SramErr
deriving DecidableEq, Repr

/-- What a cell node finds at its F(k): its 20 samples, and the gate drivers that report a fault or an undervoltage (R100, R115). -/
structure NodeSample where
  values : List Half
  fault : BitVec 12
  uv : BitVec 12
deriving DecidableEq, Repr

/-- The commands: every row of spec/opcode_table.json in its order, first the rows with operands, then those without. -/
inductive Instr where
  /-- R44: t_h after a cell's Level 1 step the Harp's edge list for that cell leaves on its lane, or a stale resend under R51 if it cannot meet R46. -/
  | harpListSend (cell : Cell)
  /-- R52: A cell's third consecutive stale frame raises F_L1_STALE3 and its PARK replaces the third stale list. -/
  | staleThirdFrame (cell : Cell)
  /-- R41: A cell's uplink head arrives in its head slot and is held for checking with its tail. -/
  | uplinkHead (cell : Cell) (rx : Arrival)
  /-- R100: A cell's uplink tail arrives and the whole message is checked by CRC, position and sequence and written through the hygiene chain into the Curd table. -/
  | uplinkTail (cell : Cell) (rx : Arrival)
  /-- R108: A cell's U-MARK arrives at the TB576 and its arrival is used to compute path, L(p) and time error. -/
  | uMark (cell : Cell) (arrival : Int) (rx : Arrival)
  /-- R118: No valid uplink from a cell for 3 consecutive frames raises F_WL_UP_LOSS. -/
  | uplinkLoss (cell : Cell)
  /-- R110: A reported time error above 1 ns for 8 consecutive frames raises F_WL_TIME. -/
  | wlTimeError (cell : Cell)
  /-- R113: An ENUM sent from one end arrives at the opposite end and gives n_b. -/
  | enumAtOppositeEnd (br : Br) (atB : Bool) (run : SlabRun)
  /-- R113: An ENUM end reply arrives at an end and contributes its count to n_b. -/
  | enumEndReply (br : Br) (atB : Bool) (run : SlabRun)
  /-- R105: A node's READ_RSP bulk frame arrives and completes the outstanding bulk read. -/
  | bulkReadRsp (cell : Cell) (rx : Arrival)
  /-- R105: A node's WRITE_ACK bulk frame arrives and completes the outstanding bulk write. -/
  | bulkWriteAck (cell : Cell) (rx : Arrival)
  /-- R105: A node's ERROR bulk frame arrives with its error code and ends the outstanding request. -/
  | bulkError (cell : Cell) (rx : Arrival)
  /-- R106: After 100 µs without an answer the TB576 repeats a bulk request, and after 3 repeats counts a timeout. -/
  | bulkTimeout (cell : Cell)
  /-- R111: With auto_resplit, 64 consecutive T_snap without an evident break return the branch to its default or forced split. -/
  | resplitHeal (br : Br)
  /-- R113: Once every node reports time lock the TB576 marks the branch's cell map complete and compares it with the persisted map. -/
  | discoveryComplete (br : Br)
  /-- R114: A cell node powers up or resets into INIT with all gates off and transparent forwarding. -/
  | nodePowerUp (cell : Cell)
  /-- R114: A port of a node in INIT comes UP and the node enters UNADDR. -/
  | nodePortUp (cell : Cell) (portB : Bool)
  /-- R115: At the node's own F(k) it samples its sensors, updates its miss count and applies any announced change due at that boundary. -/
  | nodeFrameBoundary (cell : Cell) (sample : NodeSample) (valid : Half)
  /-- R114: A node in RUN reaching its third consecutive window without a valid list enters SAFE and gates off. -/
  | nodeListMiss (cell : Cell)
  /-- R98: A cell node receives an edge list and accepts it if all validity conditions hold, or forwards it downstream. -/
  | edgeList (cell : Cell) (portB : Bool) (tick : Nat) (bytes : List Byte)
  /-- R115: A node in RUN fires a scheduled edge at its tick offset, with dither and the leg interlock. -/
  | edgeFire (cell : Cell) (index : Nat) (delay : Half)
  /-- R114: A node receives a valid PARK for its position or all cells, gates off within 50 ns, and closes its bypass if flagged. -/
  | park (cell : Cell) (portB : Bool) (bytes : List Byte)
  /-- R109: A node receives a D-MARK, computes its time error and corrects its time by slewing or stepping. -/
  | dMark (cell : Cell) (portB : Bool) (markRx : Int) (bytes : List Byte)
  /-- R110: After 16 consecutive D-MARKs within 1 ns a node becomes time-locked. -/
  | nodeTimeLockAcquired (cell : Cell)
  /-- R110: A node loses time lock after 4 D-MARKs beyond 2 ns or 1,024 frames without one, entering SAFE if in RUN. -/
  | nodeTimeLockLost (cell : Cell)
  /-- R114: A node whose own DC link exceeds its hard limit gates off, closes its bypass and enters SAFE. -/
  | nodeDcOverLimit (cell : Cell) (volts : Nat)
  /-- R107: At head_start a node sends its U-MARK and head. -/
  | nodeHeadSlot (cell : Cell) (respTime : Nat)
  /-- R117: At tail_start a node sends its uplink tail. -/
  | nodeTailSlot (cell : Cell)
  /-- R116: Gate-driver feedback confirms M0–M3 off and, no earlier than 1 µs, the node closes its bypass. -/
  | bypassCloseConfirm (cell : Cell)
  /-- R116: Without confirmed turn-off within 10 µs the node refuses the bypass close. -/
  | bypassCloseTimeout (cell : Cell)
  /-- R165: A filtered assertion on a node trip channel gates its bridge off within 50 ns, counts and may latch. -/
  | cellSideTrip (cell : Cell) (chan : Fin 3)
  /-- R82: A receiver detects a TRAIN burst and the node answers with its own burst and locks. -/
  | train (rx : Rx)
  /-- R103: A node records its hop count from an ENUM and forwards it, or returns an end reply if its onward port is not UP. -/
  | enum (cell : Cell) (portB : Bool) (bytes : List Byte)
  /-- R114: A node takes its position and chain length from SETPOS and enters PARKED, unless it is in RUN. -/
  | setpos (cell : Cell) (portB : Bool) (bytes : List Byte)
  /-- R93: A node takes a new serving port and segment-end status from F(k_eff). -/
  | split (cell : Cell) (portB : Bool) (bytes : List Byte)
  /-- R104: A node adopts a ROLE whose epoch is newer, or the first valid one if it holds no token. -/
  | role (cell : Cell) (portB : Bool) (bytes : List Byte)
  /-- R114: A PARKED or SAFE node that meets the conditions enters RUN at F(k_eff), otherwise reports the refusal. -/
  | arm (cell : Cell) (portB : Bool) (bytes : List Byte)
  /-- R102: A node records an announced frame length, coding or realignment frame for F(k_eff). -/
  | announce (cell : Cell) (portB : Bool) (bytes : List Byte)
  /-- R102: A one-hop LSTAT reports lock and the other port's state for the training check and keep-alive. -/
  | lstat (rx : Rx) (content : Content)
  /-- R102: A node steps its time by the signed amount, refused in RUN. -/
  | settime (cell : Cell) (portB : Bool) (bytes : List Byte)
  /-- R106: A node answers a bulk READ of its address space within 50 µs. -/
  | bulkRead (cell : Cell) (portB : Bool) (bytes : List Byte)
  /-- R106: A node answers a bulk WRITE, including trip block writes and clear requests, within 50 µs. -/
  | bulkWrite (cell : Cell) (portB : Bool) (bytes : List Byte)
  /-- R67: A receiver gains slab lock after 16 consecutive valid headers. -/
  | slabLockGained (heard : LaneRun)
  /-- R86: A receiver loses lock without a preceding EIDLE and the lane goes DOWN with F_LANE_LOL. -/
  | slabLockLost (loss : LockLoss)
  /-- R81: A receiver that sees a valid EIDLE holds its equaliser and enters EIDLE without a fault. -/
  | eidle (rx : Arrival)
  /-- R73: An elastic buffer overflow or underflow raises F_LANE_EB and aborts the part in progress. -/
  | elasticBufferFault (lane : LaneNo)
  /-- R82: At F(k) + 2 µs a training attempt succeeds or fails, with the third failure taking the lane DOWN. -/
  | trainingCheckPoint (lane : LaneNo)
  /-- R83: A DOWN lane with enable = 1 starts a new training attempt every 64 frames. -/
  | laneRetry (lane : LaneNo)
  /-- R84: In IDLE a lane wakes every keepalive frames, exchanges one LINK slab each way and re-enters idle. -/
  | keepAlive (lane : LaneNo) (run : SlabRun)
  /-- R85: A PARK on a lane in electrical idle is repeated every 256 slab times until the lane is UP. -/
  | parkIdleRepeat (lane : LaneNo)
  /-- R86: At the end of each health window the lane state is judged from header errors and the eye map. -/
  | laneHealthWindow (lane : LaneNo) (hdrErrs : Nat) (stuffs : Nat) (fills : Nat) (steps : List EqStep)
  /-- R80: A completed eye scan writes its map to the Cave and copies eye height and width to LANE_STS. -/
  | eyeMapComplete (lane : LaneNo) (tick : Nat) (counts : List Half)
  /-- R135: A sinc3 decimator produces the sample of PT_SD_i belonging to F(k) and passes it through the hygiene chain. -/
  | sdDecimatorOutput (input : Fin 32) (sum : Nat) (moved : Bool)
  /-- R137: An enabled input with no transition for 64 modulator clocks is stuck and raises F_SD_STUCK. -/
  | sdStuck (input : Fin 32)
  /-- R139: A GPIO input or ARM_N holds a new level for its filter length and the filter takes it. -/
  | pinFilterLevel (pin : Fin 17) (level : Bool)
  /-- R128: An input point whose age reaches stale_to at a snapshot becomes stale. -/
  | pointStale (pa : Pa)
  /-- R128: An input point with frz_n consecutive unchanged raw codes becomes frozen. -/
  | pointFrozen (pa : Pa)
  /-- R142: A point clamped in 8 consecutive accepted samples raises F_CURD_RATE. -/
  | pointRateRun (pa : Pa)
  /-- R198: An instance's bad count exceeding hold raises F_PRESS_FB_LOSS or F_PRESS_GRID_LOSS. -/
  | feedbackLoss (inst : Nat)
  /-- R187: An observer residual above r_max in 16 frames with valid y raises F_PRESS_OBS_RES. -/
  | observerResidual (inst : Nat)
  /-- R219: |PT_BR_U| above PT_BR_VMEAN in hr_n consecutive frames raises F_CHED_HEADROOM. -/
  | headroomRun (br : Br)
  /-- R219: A cell's |PT_KEY| above dev_max in 100 consecutive frames raises F_CHED_DEV. -/
  | deviationRun (cell : Cell)
  /-- R217: Without a confirming uplink by F(k + 4) the TB576 raises F_CHED_BYP_FAIL on the branch. -/
  | bypassConfirmTimeout (cell : Cell)
  /-- R218: Without an uplink reporting the bypass open within 4 frames, the restore fails and the cell stays Bypassed. -/
  | restoreTimeout (cell : Cell)
  /-- R158: A local pair starts a new carrier period and takes any pending period and on-time. -/
  | lpwmCarrierBoundary (pair : Pair)
  /-- R159: One carrier period after an arming write without a duty write, the pending period is discarded and F_HARP_PAIR raised. -/
  | lpwmPairTimeout (pair : Pair)
  /-- R162: A filtered trip input assertion ends the active pulse of every bound pair within 12 ns and is counted. -/
  | tripInputAssert (input : Fin 12)
  /-- R169: DBG_PERMIT going low while the Harp is halted raises F_HARP_DBG_DROP at class 3. -/
  | dbgPermitFall (high : Bool)
  /-- R242: A restarted branch joins RUN at the first boundary after its LV-side precharge completes. -/
  | branchRestartJoin (br : Br)
  /-- R224: A device receives the peer's P-MARK and the standby updates θ and the peer propagation. -/
  | pMark (lane1 : Bool) (arrival : Int) (run : SlabRun)
  /-- R229: A device receives a peer heartbeat, checks it and updates readiness, yield and demotion state. -/
  | heartbeat (lane1 : Bool) (run : SlabRun)
  /-- R225: The standby receives a mirror chunk on a peer lane. -/
  | mirrorChunk (lane1 : Bool) (run : SlabRun)
  /-- R227: A relayed list, head, tail, slab or MARK crosses the peer lanes and is forwarded cut-through onto the chain or back. -/
  | relayedPart (lane1 : Bool) (down : Bool) (br : Br) (run : SlabRun)
  /-- R273: The standby receives a chunk of the primary's plan and ageing image and holds it. -/
  | planAndAgeingImage (lane1 : Bool) (run : SlabRun)
  /-- R231: A TB576 receiving a ROLE with a newer epoch naming the other holder enters TWIN-S and raises F_TWIN_DEMOTED. -/
  | roleOnChainLane (lane : LaneNo) (run : SlabRun)
  /-- R266: A capacitor fit over 65,536 frames ends and is accepted or retried. -/
  | capacitorFitComplete (cell : Cell)
  /-- R274: Every 1 ms the die margin is checked and the core voltage raised at once below 5 %. -/
  | dieMarginCheck (margin : Nat) (monitor : Fin 64)
  /-- R275: A VOUT_COMMAND write is acknowledged, or after 3 attempts fails with F_AFF_PMBUS. -/
  | pmbusWriteResult (acked : Bool)
  /-- R294: Every millisecond Rind reads every copy pair to check its duplicated state. -/
  | rindScrub (pass : ScrubPass)
  /-- R294: A copy mismatch or parity error sets the lockout latch on the dedicated rank-2 path. -/
  | rindIntegrityError (parity : Bool)
  /-- R304: Every 1 µs the Cellar steps its 16-node model and compares T_c with its thresholds. -/
  | cellarModelUpdate (powers : List Nat)
  /-- R305: Every 100 µs each diode is converted, cross-checked against the model and checked for the backstop. -/
  | cellarDiodeReading (diode : Fin 4) (reading : Int)
  /-- R313: In CURE the Wax domain converts the diodes every 1 ms and a crossing of 140 °C sets the shutdown latch and TRIP_N. -/
  | cureDiodeCheck (readings : List Int)
  /-- R366: A reference with no edge for 100 ns is detected as absent and its F_CLK_REF or F_CLK_LREF goes live. -/
  | referenceAbsent (ref : Fin 5)
  /-- R366: At the end of each 1 s Wax window every reference is judged on or off frequency. -/
  | referenceFrequencyWindow (offsets : List Int)
  /-- R369: The phase error below 250 ps on 1,024 consecutive PFD cycles declares the PLL locked. -/
  | pllLockDeclared (band : Fin 63)
  /-- R382: The MAC's start-of-frame interrupt makes firmware stamp an event message with station time minus latency. -/
  | timestampInterrupt (port : Fin 2) (send : Bool) (reading : Nat)
  /-- R383: A Sync is received and, with its origin time, yields an offset that runs the servo. -/
  | ptpSync (port : Fin 2) (bytes : List Byte)
  /-- R381: A Follow_Up with a matching sequenceId completes a two-step Sync and yields an offset. -/
  | ptpFollowUp (port : Fin 2) (bytes : List Byte)
  /-- R381: An Announce is received and feeds the best master algorithm and the UTC offset. -/
  | ptpAnnounce (port : Fin 2) (bytes : List Byte)
  /-- R381: A peer delay request is answered with a two-step response. -/
  | ptpPdelayReq (port : Fin 2) (bytes : List Byte)
  /-- R383: A peer delay response contributes a path delay sample. -/
  | ptpPdelayResp (port : Fin 2) (bytes : List Byte)
  /-- R383: A peer delay response follow-up completes a path delay sample. -/
  | ptpPdelayRespFollowUp (port : Fin 2) (bytes : List Byte)
  /-- R383: A delay response under profile 1 contributes a path delay sample. -/
  | ptpDelayResp (port : Fin 2) (bytes : List Byte)
  /-- R385: Announce receipt timeout on the slave port moves a LOCKED station to HOLDOVER. -/
  | announceReceiptTimeout (port : Fin 2)
  /-- R386: A programmed time pulse edge falls and TIME_OUT_n goes active for its width. -/
  | timePulseEdge (out : Fin 4)
  /-- R387: A selected edge on TIME_IN_i captures station time and increments count. -/
  | timeCapture (input : Fin 2) (rising : Bool) (offset : Nat)
  /-- R400: A valid wake frame on an enabled Ethernet port starts a wake. -/
  | wakeFrame (port : Fin 2) (bytes : List Byte)
  /-- R399: An enabled trip input at its active level for 2 Wax samples starts a wake. -/
  | wakeTripInput (input : Fin 12)
  /-- R401: The reference is present and in tolerance, isolation is released, time restarts and the device enters RUN. -/
  | oscillatorReady (ticks : Nat)
  /-- R404: A monitored rail crosses its UV or OV level and its source goes live or its Wax bit is set. -/
  | railCrossing (rail : Fin 9) (above : Bool) (crossed : Bool)
  /-- R410: RST_N release samples the straps and starts the boot sequence. -/
  | rstNRelease (straps : BitVec 12)
  /-- R407: PORST_N release, with RST_N, samples the straps and starts the device. -/
  | porstNRelease (straps : BitVec 12)
  /-- R410: 1 µs after release the straps are sampled again and an unstable strap takes 0 with F_BOOT_STRAP. -/
  | strapResample (straps : BitVec 12)
  /-- R414: A firmware image has been read and checked, and the firmware starts and restores the persisted state. -/
  | imageLoadComplete (otpOk : Bool) (flashOk : Bool) (ms : Nat)
  /-- R358: An arbiter grants the contender on the highest input, and the losers back off. -/
  | vatDecision (chan : Fin 2) (present : List (Nat × Nat)) (elapsed : Nat)
  /-- R361: A requester waiting over 20 µs becomes starving and F_VAT_STARVE goes live. -/
  | vatWaitLimit (chan : Fin 2) (code : Fin 16)
  /-- R356: The flash copy is written and read back, completing the daily persist. -/
  | persistComplete (ok : Bool)
  /-- R347: The background scrubber reads a burst, writing back corrected data or raising F_CAVE_DBE. -/
  | cavePatrolRead (chan : Fin 2) (burst : Nat) (uncorrectable : Bool) (corrected : Bool)
  /-- R326: The TB576 fetches a submission entry when a completion entry is free, or puts the queue in ERROR on failure. -/
  | commandFetch (queue : Fin 32) (entry : Option (List Byte)) (ind : Option (List Byte))
  /-- R330: A command datagram is accepted for its queue, answered from the replay store, or dropped. -/
  | udpDatagram (port : Fin 2) (mac : Nat) (vlan : Option Nat) (head : List Byte) (bytes : List Byte)
  /-- R329: The ARP responder answers an ARP request on a port. -/
  | arpRequest (port : Fin 2) (bytes : List Byte)
  /-- R329: The ICMP echo responder answers an echo request on a port. -/
  | icmpEchoRequest (port : Fin 2) (bytes : List Byte)
  /-- R331: SPI instruction 0x01 submits one packet to the SPI queue if none is outstanding. -/
  | spiSubmit (bytes : List Byte)
  /-- R331: SPI instruction 0x02 returns a ready completion and its reply, consumed at chip select rise. -/
  | spiFetch (clocked : Nat)
  /-- R331: SPI instruction 0x03 reads BAR0 words with the address incrementing. -/
  | spiRegRead (addr : BitVec 24) (words : Nat)
  /-- R331: SPI instruction 0x04 writes BAR0 words with the effect of BAR0 writes. -/
  | spiRegWrite (addr : BitVec 24) (words : List Word)
  /-- R334: A lock wait of wait_ms ends without a grant and completes with ST_LOCK_HELD. -/
  | lockWaitTimeout (queue : Fin 32)
  /-- R336: A lock with no overlapping command from its owner for hold_ms expires and its uncommitted changes are restored. -/
  | lockExpiry (queue : Fin 32) (depth : Fin 4) (num : Nat)
  /-- R340: Does nothing and returns result 0. -/
  | sysNop (p : Packet)
  /-- R344: Returns the 64-byte identity reply. -/
  | sysIdent (p : Packet)
  /-- R344: Returns the 64-byte status reply. -/
  | sysStatus (p : Packet)
  /-- R407: Writes its completion and resets with the scope of RST_N. -/
  | sysReset (p : Packet)
  /-- R340: Writes every RWU field to flash. -/
  | sysPersist (p : Packet)
  /-- R340: Returns flash content from an offset. -/
  | sysFlashRead (p : Packet)
  /-- R340: Programs part of a firmware image slot. -/
  | sysImageWrite (p : Packet)
  /-- R413: Writes the older boot record to select the slot for the next reset. -/
  | sysImageSelect (p : Packet)
  /-- R432: Performs the commit write of the named block. -/
  | cfgCommit (p : Packet)
  /-- R192: Checks the inactive bank and schedules the swap. -/
  | cfgBankCommit (p : Packet)
  /-- R192: Copies the active bank into the inactive bank and completes when the copy ends. -/
  | cfgBankCopy (p : Packet)
  /-- R433: Returns a block's shadow values to those in force. -/
  | cfgDiscard (p : Packet)
  /-- R435: Writes the committed configuration image to flash. -/
  | cfgSave (p : Packet)
  /-- R435: Loads the saved image into the shadows and the inactive bank. -/
  | cfgLoad (p : Packet)
  /-- R436: Returns the configuration digest. -/
  | cfgDigest (p : Packet)
  /-- R340: Returns which blocks have uncommitted shadow values. -/
  | cfgPending (p : Packet)
  /-- R338: Returns the values of the named parameter IDs. -/
  | paramRead (p : Packet)
  /-- R339: Checks every pair and then writes all of them, or none. -/
  | paramWrite (p : Packet)
  /-- R340: Returns reset value, range, access code and scope of a parameter. -/
  | paramInfo (p : Packet)
  /-- R140: Returns the named points with status and last_k, all from one snapshot. -/
  | pointRead (p : Packet)
  /-- R140: Returns a contiguous range of points from one snapshot. -/
  | pointReadRange (p : Packet)
  /-- R141: Writes host points, refusing other writers and values outside the descriptor range. -/
  | pointWrite (p : Packet)
  /-- R127: Returns a point descriptor. -/
  | pointDescRead (p : Packet)
  /-- R127: Writes a point descriptor, effective at the next frame boundary. -/
  | pointDescWrite (p : Packet)
  /-- R134: Returns the user gain and offset of a calibrated point. -/
  | pointCalRead (p : Packet)
  /-- R134: Writes the user gain and offset of a calibrated point. -/
  | pointCalWrite (p : Packet)
  /-- R134: Writes all user calibration to flash. -/
  | pointCalPersist (p : Packet)
  /-- R340: Returns a cell's identity block, hops, serving end, role and node state. -/
  | cellInfo (p : Packet)
  /-- R106: Reads node address space by bulk READ. -/
  | cellBulkRead (p : Packet)
  /-- R106: Writes node address space by bulk WRITE, refusing the trip block. -/
  | cellBulkWrite (p : Packet)
  /-- R113: Runs discovery on a branch and completes when it ends. -/
  | cellDiscover (p : Packet)
  /-- R113: Persists the cell map that discovery compares. -/
  | cellMapSave (p : Packet)
  /-- R166: Sends the clear request to a cell trip channel. -/
  | cellTripClear (p : Packet)
  /-- R340: Returns a node port's eye map, whole or in part. -/
  | cellEyeRead (p : Packet)
  /-- R214: Makes a fault decision on a cell and returns its new role. -/
  | cellBypass (p : Packet)
  /-- R218: Opens a Bypassed cell's bypass and completes when it is Idle. -/
  | cellRestore (p : Packet)
  /-- R238: Starts the station from PARKED into PRECHARGE, or resumes RUN from RAMP-DOWN. -/
  | convStart (p : Packet)
  /-- R237: Stops the station through RAMP-DOWN or parks a precharge. -/
  | convStop (p : Packet)
  /-- R242: Rearms a branch parked by a class-2 reaction. -/
  | convRestart (p : Packet)
  /-- R164: Clears a local trip latch unless its input is still active. -/
  | tripClear (p : Packet)
  /-- R159: Writes a pair's period and duty together. -/
  | lpwmSet (p : Packet)
  /-- R340: Sets the enable of each masked local pair. -/
  | lpwmEnable (p : Packet)
  /-- R230: Starts a planned swap and returns k_eff. -/
  | twinSwap (p : Packet)
  /-- R228: Runs far-end calibration and completes when cal_valid is set. -/
  | twinCalibrate (p : Packet)
  /-- R235: Writes the masked mode request shadow fields. -/
  | modeSet (p : Packet)
  /-- R236: Writes an LV group configuration shadow. -/
  | modeLvgSet (p : Packet)
  /-- R235: Checks and commits the mode shadows. -/
  | modeCommit (p : Packet)
  /-- R340: Returns MODE_STS, MODE_EFF and MODE_LV_EFF. -/
  | modeGet (p : Packet)
  /-- R340: Returns a cell's plan points and the plan sequence number. -/
  | planGet (p : Packet)
  /-- R272: Accepts the proposed plan with the given sequence number. -/
  | planAccept (p : Packet)
  /-- R272: Discards the proposed plan with the given sequence number. -/
  | planReject (p : Packet)
  /-- R268: Runs an epoch and completes at its end with the new sequence number. -/
  | planEpoch (p : Packet)
  /-- R264: Returns the damage accumulators of a cell's switches. -/
  | planDamageRead (p : Packet)
  /-- R263: Returns a switch's rainflow matrix. -/
  | planRainflowRead (p : Packet)
  /-- R269: Writes and persists the maintenance horizon. -/
  | planHorizonSet (p : Packet)
  /-- R348: Sets the traced point list from the next frame boundary. -/
  | traceSelect (p : Packet)
  /-- R351: Arms the point trigger with level, edge, pre and post. -/
  | traceTriggerSet (p : Packet)
  /-- R351: Triggers the trace ring now. -/
  | traceForce (p : Packet)
  /-- R352: Releases a frozen ring or cancels a pending trigger. -/
  | traceRearm (p : Packet)
  /-- R344: Returns the trace status reply. -/
  | traceStatus (p : Packet)
  /-- R353: Returns held trace frames with their index entries. -/
  | traceRead (p : Packet)
  /-- R354: Returns event log entries by index. -/
  | logRead (p : Packet)
  /-- R355: Returns the oldest and newest log indices and the overrun count. -/
  | logStatus (p : Packet)
  /-- R378: Returns station time and its quality. -/
  | timeGet (p : Packet)
  /-- R380: Requests a step of station time. -/
  | timeSet (p : Packet)
  /-- R386: Programs and arms a time pulse output. -/
  | timePulseSet (p : Packet)
  /-- R387: Returns the latest capture of a time input. -/
  | timeCaptureRead (p : Packet)
  /-- R344: Returns the PTP status reply. -/
  | timePtpStatus (p : Packet)
  /-- R392: Requests entry into IDLE. -/
  | pwrIdle (p : Packet)
  /-- R396: Writes its completion and requests entry into CURE with an optional alarm. -/
  | pwrCure (p : Packet)
  /-- R394: Requests the end of IDLE. -/
  | pwrRun (p : Packet)
  /-- R340: Returns the power state and the last wake source. -/
  | pwrStatus (p : Packet)
  /-- R282: Returns first-fault records of a range of sources. -/
  | faultRead (p : Packet)
  /-- R292: Clears one source, every source of a cell, or all sources whose live is low. -/
  | faultClear (p : Packet)
  /-- R291: Sets or clears the force bit of a source. -/
  | faultForce (p : Packet)
  /-- R340: Returns RIND_FIRST, RIND_STS and the cell sticky summary. -/
  | faultSummary (p : Packet)
  /-- R167: Requests a debug halt of the Harp. -/
  | dbgHalt (p : Packet)
  /-- R170: Ends a debug halt at the next frame boundary. -/
  | dbgResume (p : Packet)
  /-- R78: Starts a live eye scan on a lane. -/
  | laneEyeStart (p : Packet)
  /-- R79: Returns a lane's latest eye map, whole or in part. -/
  | laneEyeRead (p : Packet)
  /-- R88: Writes the counter clear register of the lanes, the Whey link or the twin. -/
  | cntClear (p : Packet)
  /-- R333: Requests a scope lock, waiting up to wait_ms. -/
  | lockReserve (p : Packet)
  /-- R336: Releases a lock, optionally discarding its uncommitted changes. -/
  | lockRelease (p : Packet)
  /-- R340: Returns the queue holding an overlapping lock and its remaining time. -/
  | lockQuery (p : Packet)
  /-- R340: Releases every lock of the queue. -/
  | lockReleaseAll (p : Packet)
  /-- R242: Register bits that rearm parked branches. -/
  | modeCtlRestart (mask : BitVec 12)
  /-- R78: Register bit that starts an eye scan at row 0, column 0. -/
  | laneEyeCtlStart (lane : LaneNo) (value : Word)
  /-- R78: Register bit that abandons the scan in progress. -/
  | laneEyeCtlStop (lane : LaneNo)
  /-- R88: Register write that zeroes all counters of the named lanes. -/
  | laneCntClr (mask : Word)
  /-- R119: Register write that clears all Whey link counters of the named branches. -/
  | wlCntClr (mask : Word)
  /-- R364: Register write that clears the wait maxima and grant counts of a channel. -/
  | vatCntClr (mask : BitVec 2)
  /-- R113: Register bit that starts discovery of a branch. -/
  | wlDiscCtlStart (mask : BitVec 12)
  /-- R428: A write to the boot window loads image bytes or is ignored with boot_win set. -/
  | bootWindowWrite (offset : Fin 2097152) (value : Word)
  /-- R300: A write of 0xA5 restarts the host watchdog period, and any other value raises F_RIND_HOSTWD. -/
  | rindHostwdKick (value : Byte)
  /-- R291: A write of inj_en enables force writes, or clears every force bit when 0. -/
  | rindCfgInjEn (en : Bool)
  /-- R291: A write of RIND_FORCE sets or clears the force bits of device sources. -/
  | rindForceWrite (w : Fin 36) (value : Word)
  /-- R292: A W1C of RIND_STICKY clears qualifying sources or sets clr_refused. -/
  | rindStickyClear (w : Fin 36) (value : Word)
  /-- R164: A W1C of a trip latch clears it unless the input is active, which sets clr_refused. -/
  | harpTripStsClear (mask : BitVec 12)
  /-- R159: A write of a pair's period arms the pair and holds the period pending. -/
  | harpLpPerWrite (pair : Pair) (value : Word)
  /-- R159: A write of a pair's duty completes the pair, or applies alone at the next carrier boundary. -/
  | harpLpDutyWrite (pair : Pair) (value : Word)
  /-- R386: A write of arm schedules a time pulse output or sets refused. -/
  | stuTpCfgArm (out : Fin 4)
  /-- R325: A write of a submission tail submits entries, or puts the queue in ERROR if out of range. -/
  | cmdSqTailDoorbell (queue : Fin 32) (value : Word)
  /-- R326: A write of a completion head frees completion entries, or puts the queue in ERROR if it passes unwritten ones. -/
  | cmdCqHeadWrite (queue : Fin 32) (value : Word)
  /-- R327: A write of a queue's enable activates, disables or resets the queue. -/
  | cmdQCfgEnable (queue : Fin 32) (value : Word)
  /-- R387: A read of capture seconds latches the rest of the capture and marks it read. -/
  | stuCapSLoRead (input : Fin 2)
  /-- R15: A BAR0 write to a register without a row of its own acts under its access code. -/
  | registerWrite (addr : Nat) (value : Word) (full : Bool)
  /-- R158: A local pair output A or B turns on or off at its scheduled tick within the carrier period, with dead time and dithering. -/
  | localPwmEdge (pair : Pair)
  /-- R386: A time pulse output returns inactive at edge + width. -/
  | timePulseEnd (out : Fin 4)
  /-- R161: A filtered trip input returns to its inactive level, so the F_HARP_TRIPIN live bit falls and its latch becomes clearable. -/
  | tripInputRelease (input : Fin 12)
  /-- R165: A cell node trip input goes inactive, allowing the bridge to resume at its next listed turn-on and the channel latch to be cleared. -/
  | cellSideTripRelease (cell : Cell) (chan : Fin 3)
  /-- R342: The PCIe link comes up after training or goes down, and F_PCIE_LINK follows it. -/
  | pcieLinkState (up : Bool)
  /-- R321: An external flash read, program or erase that a command waits on completes and the waiting command resumes. -/
  | flashAccessComplete (queue : Fin 32) (ok : Bool)
  /-- R450: An absent 100 MHz reference becomes present, so that boot can proceed past stage 0 and the Cellar leaves its internal oscillator. -/
  | referenceReturn (ref : Fin 5)
  /-- R383: The time receiver sends its own peer delay request (profile 0) or delay request (profile 1) to obtain a path delay sample. -/
  | ptpDelayRequestSend (port : Fin 2)
  /-- R36: At each frame boundary F(k) the frame count advances and every change scheduled for that boundary takes effect together. -/
  | frameBoundary
  /-- R43: At T_snap the Press takes the point snapshot and runs the compute phase: Levels 4 to 2, then Level 1 cell by cell. -/
  | frameSnapshot
  /-- R45: At the end of the compute phase the prepare phase runs the Press work that does not depend on the next samples. -/
  | preparePhase
  /-- R417: At the first frame boundary with the lanes UP after ready, discovery starts on every present branch. -/
  | discoveryStart
  /-- R192: A bank copy finishes within 200 µs and copy_busy clears. -/
  | bankCopyComplete
  /-- R167: A halt request through JTAG halts the Harp if DBG_PERMIT is high, otherwise sets refused. -/
  | jtagHaltRequest
  /-- R240: Every armed non-bypassed cell at or above v_min for 100 frames moves the station from PRECHARGE to RUN. -/
  | prechargeComplete
  /-- R237: Precharge not complete within t_pre parks the station with F_MODE_PRECHG. -/
  | prechargeTimeout
  /-- R237: Every limit point at 0 for 100 consecutive frames moves RAMP-DOWN to PARKED. -/
  | rampDownComplete
  /-- R237: RAMP-DOWN reaching t_rd parks the station with F_MODE_RD_TO. -/
  | rampDownTimeout
  /-- R247: n_in consecutive out-of-band frames enter RIDE-THROUGH and hold Grid, Flow and LV. -/
  | rideThroughEntry
  /-- R247: In-band frames for t_exit end RIDE-THROUGH and apply the deferred requests and plans. -/
  | rideThroughExit
  /-- R247: An episode reaching t_max raises F_MODE_RT_LONG at class 3. -/
  | rideThroughTimeout
  /-- R249: |V| valid and at or above v_ok for 100 ms in RUN makes Grid START formed. -/
  | gridFormed
  /-- R223: The primary sends its heartbeat at F(k) + T_F/2 and repeats ROLE on every chain lane. -/
  | heartbeatHalfFrame
  /-- R229: No valid heartbeat within 1 µs of its send time counts as a miss. -/
  | heartbeatMiss
  /-- R225: A mirror not complete by F(m + 2) is dropped and counted. -/
  | mirrorDrop
  /-- R228: After 256 frames served through the standby the primary records e_far, restores the split and sets cal_valid. -/
  | farEndCalibrationEnd
  /-- R260: Every 8 frames each switch's Foster network steps, the TSEP estimate is fused and the rainflow stream advances. -/
  | fosterStep
  /-- R268: At an epoch the Affinage unit closes windows, accrues damage and computes every plan target. -/
  | epoch
  /-- R268: Epoch work ends, AFF_PLAN_SEQ increments and the targets are published. -/
  | epochComplete
  /-- R268: A plan not complete within 600 s is discarded with F_AFF_PLAN_LATE. -/
  | planLate
  /-- R271: At the first boundary after each whole hour every applied quantity moves toward its target within Table 10-3. -/
  | applicationBoundary
  /-- R286: trip_hold ms after the latest assertion TRIP_N is released if no class-3 or class-4 latch is set. -/
  | tripHoldExpiry
  /-- R300: A host watchdog period expires without a kick and F_RIND_HOSTWD rises. -/
  | hostWatchdogExpiry
  /-- R305: Every 1 ms the base temperature moves toward the median diode offset. -/
  | cellarBaseUpdate
  /-- R312: After 10 ms below 100 °C the device restarts with the scope of RST_N into WATCH, keeping the shutdown latch. -/
  | cellarRestart
  /-- R402: After all valid diodes read below 100 °C for 10 ms, held wake sources are released. -/
  | cellarHoldRelease
  /-- R373: Lock held without a break for 50 µs completes the relock hold. -/
  | pllHoldComplete
  /-- R373: At the first frame boundary after the hold the core returns to the PLL and the edge clock restarts. -/
  | coreReturnToPll
  /-- R375: A loss of lock moves the core to the safe clock, raises F_CLK_LOL at class 3 and starts a relock. -/
  | pllLossOfLock
  /-- R373: A relock not returned by 2 ms sets relock_fail and keeps the core on the safe clock. -/
  | relockDeadline
  /-- R373: Every 100 ms after a failed relock a new attempt starts, on the other reference if auto_sw allows. -/
  | relockRetry
  /-- R377: A rising edge on SYNC_IN restarts the divider of every clock output with sync_en = 1. -/
  | syncInEdge
  /-- R385: 60 s in ACQUIRING or FREE since PTP was enabled or LOCKED was left makes F_STU_PTP live. -/
  | ptpAcquireTimeout
  /-- R380: A pending step of station time applies at the first boundary with every cell PARKED and no start. -/
  | timeStepApply
  /-- R393: At the first frame boundary after PWR_IDLE, lanes enter electrical idle, the Press is gated and pairs are forced off. -/
  | idleEntry
  /-- R394: At the first frame boundary after PWR_RUN or a wake source, lanes leave electrical idle and the Press resumes. -/
  | idleExit
  /-- R396: From the next frame boundary the device flushes, freezes time, isolates, stops clocks and lowers the core to 0.55 V. -/
  | cureEntry
  /-- R399: WAKE_N held low for 2 Wax samples starts a wake. -/
  | wakeNAssert
  /-- R399: The Wax counter reaches PWR_ALARM and starts a wake. -/
  | waxAlarm
  /-- R399: An exit from electrical idle on a PCIe receive lane starts a wake. -/
  | pcieWake
  /-- R401: The core reaches its voltage with every power switch good and the wake proceeds to the oscillators. -/
  | powerGood
  /-- R402: Power-good not within 5 ms fails the wake attempt. -/
  | powerGoodTimeout
  /-- R402: Oscillator-ready not within 20 ms fails the wake attempt. -/
  | oscillatorReadyTimeout
  /-- R402: 10 ms after a failed attempt the wake is retried, and after the second retry fails wake_fail is set. -/
  | wakeRetry
  /-- R449: VDD_AON falls below its power-on threshold, resetting the whole device and clearing the lockout latch. -/
  | aonPowerOnReset
  /-- R408: RST_N low for at least 1 µs resets digital logic, asserts TRIP_N and SAFE_N and squelches lanes. -/
  | rstNAssert
  /-- R407: PORST_N low resets the whole device except the Wax domain. -/
  | porstNAssert
  /-- R450: With REFCLK_0 absent for 1 ms the boot ROM uses REFCLK_1. -/
  | bootRefclkFallback
  /-- R415: A twin block refused because the peer is not yet seen is retried every 100 ms for 10 s. -/
  | twinBlockRetry
  /-- R422: In HOLD-BUS the TB576 starts the station itself at the first boundary where all start conditions hold. -/
  | holdBusAutostart
  /-- R352: Once frame t + post is written the trace ring freezes and event 0x4001 is written. -/
  | traceFreeze
  /-- R356: A persist not complete within 15 min fails with F_CAVE_PERSIST. -/
  | persistTimeout
  /-- R407: A PCIe hot or link-down reset resets the PCIe controller and disables every PCIe-bound queue. -/
  | pcieHotReset
  /-- R342: The lockstep cores disagree, F_CMD_LOCKSTEP rises and the command processor restarts. -/
  | lockstepMismatch
  /-- R342: No command processor progress for 10 ms raises F_CMD_WDOG and restarts the processor. -/
  | commandWatchdogExpiry
  /-- R37: Commit write of block 1, applying frame length and hop bound under their rules. -/
  | stuCommit
  /-- R61: Commit write of block 2, refusing a pair's coding under R61. -/
  | laneCommit
  /-- R119: Commit write of block 3 for the branch chain configuration. -/
  | wheyLinkCommit
  /-- R143: Commit write of block 4, refused under R136, otherwise applied at the next boundary. -/
  | curdCommit
  /-- R153: Commit write of block 5, checking every profile against the edge budget. -/
  | harpCommit
  /-- R178: Configuration commit of block 6, checked against Table 07-2 and applied at the next boundary. -/
  | pressCtlCfgCommit
  /-- R234: Commit write of block 7, refused under R232 or R234. -/
  | cheddaringCommit
  /-- R235: Mode commit of block 8, checked against Table 09-7 and applied at the next boundary. -/
  | modeCtlCommit
  /-- R278: Commit write of block 9, refused for policy 3 or a bad epoch_h. -/
  | affinageCommit
  /-- R288: Commit write of block 10 for classes and limits, acting under R289. -/
  | rindCommit
  /-- R306: Commit write of block 11, refused if fewer than 2 diodes stay enabled. -/
  | cellarCommit
  /-- R372: Commit write of block 12, which may start a relock. -/
  | starterStuTimeCommit
  /-- R343: Commit write of block 13 for the UDP and SPI configuration. -/
  | commandBlockCommit
  /-- R192: Register bit that commits the inactive coefficient bank. -/
  | pressCtlBankCommit
  /-- R192: Register bit that copies the active bank into the inactive bank. -/
  | pressCtlBankCopy
  /-- R238: Register bit that starts the station. -/
  | modeCtlStart
  /-- R237: Register bit that stops the station. -/
  | modeCtlStop
  /-- R272: Register bit that accepts the proposed plan. -/
  | affCtlAccept
  /-- R272: Register bit that discards the proposed plan. -/
  | affCtlReject
  /-- R268: Register bit that starts an epoch at once. -/
  | affCtlEpochNow
  /-- R167: Register bit that requests a Harp debug halt. -/
  | harpDbgCtlHalt
  /-- R170: Register bit that ends a halt at the next frame boundary. -/
  | harpDbgCtlResume
  /-- R234: Register write that clears all twin counters. -/
  | twinCntClr
  /-- R230: Register bit that requests a planned swap on the primary. -/
  | twinCfgSwap
  /-- R228: Register bit that starts far-end calibration on the primary. -/
  | twinCfgCalibrate
  /-- R360: Register bit that checks and applies the Vat mapping. -/
  | vatCtlCommit
  /-- R315: Register bit that sets the peak to the present T_c. -/
  | cellarPeakClr
  /-- R414: Register bit that starts the check of a host-loaded image. -/
  | sysBootCtlGo
  /-- R312: A W1C of sd_latch clears the shutdown latch so that F_CELLAR_SHUTDOWN can be cleared. -/
  | cellarStsSdLatchClear
  /-- R58: A read of the frame counter's low word latches its high word. -/
  | stuFrmCntLoRead
  /-- R58: A read of the epoch seconds latches the rest of the epoch from the same instant. -/
  | stuFrmEpochSRead
  /-- R378: A read of station seconds latches the high seconds and nanoseconds. -/
  | stuTimeSLoRead
  /-- R406: A read of the Wax count's low word latches its high bits. -/
  | pwrWaxCntLoRead
  /-- R278: A read of the die end-of-life low word latches its high bits. -/
  | affDieEolLoRead
  /-- R315: A read of the shutdown time low word latches its high seconds. -/
  | cellarSdTimeLoRead
  /-- R426: The always-on supply rises above its power-on threshold, the Wax domain starts and SYS_RST_STS.por is set. -/
  | aonSupplyUp
  /-- R311: After a Cellar shutdown each UP lane repeats its three PARK slabs every 256 slab times until the restart. -/
  | parkShutdownRepeat
  /-- R403: The 40-bit Wax counter wraps during sleep and the sleep is treated as a wake failure. -/
  | waxCounterWrap
deriving DecidableEq, Repr

end Sys2Proof
end

