-- ==== Sys2Proof/Decode.lean ====
section
/-!
DEFINITION. Words and commands. No row of spec/opcode_table.json has bits: the commands reach the block as messages, register
accesses, packets and pin events, whose bytes are operands of their rows.
-/
namespace Sys2Proof

/-- The command a table word spells: none, since no row has bits. -/
def decodeTableWord (_nbits _w : Nat) : Option Instr := none

end Sys2Proof
end

