-- ==== Sys2Proof/Machine/RegTable.lean ====
section
/-!
DEFINITION. The register map of chapters 02 to 18: every register of Table 18-2 with its address (R427, R430), every
field of the field tables with its place, its access code (Table 00-5) and its reset value. A register the spec
indexes is one name with an index. Fields the spec gives no reset value (Strap, Factory, held in the Wax domain) reset to 0
here and are written by the rows that sample or restore them.
-/
namespace Sys2Proof.Machine

/-- The access codes of Table 00-5 (R15). -/
inductive Acc where
  | ro | rw | rws | w1c | w1s | wo | rof | rwu
deriving DecidableEq, Repr

/-- Every register name of Table 18-2, and the MSI-X table and pending-bit array of the command block. -/
inductive RegName where
  | sysId | sysStrap | sysBootSts | sysBootCtl | sysRstSts | sysCommit | sysCfgPending | sysCommitSts
  | sysErr | stuFrmCfg | stuFrmSts | stuFrmArr | stuFrmCntLo | stuFrmCntHi | stuFrmEpochS | stuFrmEpochNs
  | stuFrmEpochNsl | stuFrmPhase | stuTimeSLo | stuTimeSHi | stuTimeNs | stuRate | stuOffset | stuPtpDly
  | stuPtpCfg | stuServoCfg0 | stuServoCfg1 | stuPtpSts | stuLatTrim | stuTpCfg | stuTpStartSLo
  | stuTpStartSHi | stuTpStartNs | stuTpPeriod | stuTpWidth | stuCapCfg | stuCapSLo | stuCapSHi | stuCapNs
  | strCfg | strCtl | strSts | strNw | strNwLock | strBand | strClkoutCfg | laneCfg | laneSts | laneEq
  | laneEyeCtl | laneCntHdr | laneCntStuff | laneCntFill | laneCntAbort | laneCntLol | laneCntSat
  | laneHlthCfg | laneCntClr | wlBrCfg | wlBrSts | wlCntUpbad | wlCntMiss | wlCntBulkto | wlCntResplit
  | wlCntSat | wlDiscCtl | wlTimeSts | wlCntClr | curdBase | curdSdClk | curdSdCfg | curdPinFilt | curdSdSts
  | curdHygSts | harpProfMv | harpProfDab | harpProfSts | harpDtCfg | harpLpPer | harpLpDuty | harpLpCfg
  | harpLpSts | harpTripCfg | harpTripBind | harpTripSts | harpCtripCfg | harpDbgCtl | harpDbgSts | pressCtl
  | pressSts | pressLoadSlot | pressLoadPrep | pressL1Cfg | pressCprof0 | pressCprof1 | pressCprof2
  | pressCprof3 | pressCprof4 | pressCprof5 | chedBrCfg | chedBrSts | chedCfg | twinCfg | twinSts
  | twinOffset | twinCntHbmiss | twinCntMdrop | twinCntDiverge | twinCntSat | twinCntClr | modeReq | modeCtl
  | modeSts | modeEff | modeLvEff | modeLimCfg0 | modeLimCfg1 | modeLimCfg2 | modePrechgCfg | modeBsCfg
  | modeRtSrc | modeRtCfg0 | modeRtCfg1 | modeRtCfg2 | modeTestCfg | modeLvgCfg | affCfg | affCtl | affSts
  | affPlanSeq | affLimCfg0 | affLimCfg1 | affLimCfg2 | affLimCfg3 | affHorizonLo | affHorizonHi | affDieCfg
  | affDieSts | affDieEolLo | affDieEolHi | affUcoef | rindCfg | rindSts | rindFirst | rindLockRec
  | rindIntSts | rindExtCfg | rindHostwdCfg | rindHostwdKick | rindCellLim0 | rindCellLim1 | rindSticky
  | rindLive | rindForce | rindCls | rindCellCls | rindCellAny | rindSdLim1 | rindSdLim2 | cellarCfg
  | cellarSts | cellarBase | cellarPeak | cellarSdRec | cellarSdTimeLo | cellarSdTimeHi | cellarNode
  | cellarDiode | cmdQCfg | cmdSqBaseLo | cmdSqBaseHi | cmdCqBaseLo | cmdCqBaseHi | cmdSqTail | cmdCqHead
  | cmdQSts | cmdQDrop | cmdUdpPeer | cmdEvCfg | cmdEvBaseLo | cmdEvBaseHi | cmdEvHead | cmdEvSts
  | cmdLockCfg | cmdSts | cmdIntPendLo | cmdIntPendHi | cmdIntEnLo | cmdIntEnHi | cmdUdpCfg | cmdSpiCfg
  | cmdEthIp | cmdEthMacLo | cmdEthMacHi | msixAddrLo | msixAddrHi | msixData | msixCtrl | msixPba | vatMap
  | vatCtl | vatSts | vatCntClr | vatLoss | vatGrant | caveTrcCfg | caveTrcSts | caveTrcDepth | caveLogNew
  | caveLogAck | caveLogOvr | caveLogLost | caveEccSts | caveDbeAddr | cavePersCfg | cavePersSts | pwrCfg
  | pwrWakeCfg | pwrWakeKey | pwrSts | pwrWaxSts | pwrWaxCal | pwrWaxCntLo | pwrWaxCntHi | pwrAlarmLo
  | pwrAlarmHi | pwrRailSts
deriving DecidableEq, Repr

/-- Address of element `first`, index of the first element, number of elements and stride of a register (Table 18-2). -/
structure RegPlace where
  addr : Nat
  first : Nat
  count : Nat
  stride : Nat
deriving DecidableEq, Repr

/-- Table 18-2: where each register stands in BAR0, and the register itself. -/
def RegName.place : RegName → RegPlace
  | .sysId => ⟨0x00000, 0, 1, 0⟩
  | .sysStrap => ⟨0x00004, 0, 1, 0⟩
  | .sysBootSts => ⟨0x00008, 0, 1, 0⟩
  | .sysBootCtl => ⟨0x0000C, 0, 1, 0⟩
  | .sysRstSts => ⟨0x00010, 0, 1, 0⟩
  | .sysCommit => ⟨0x00100, 0, 1, 0⟩
  | .sysCfgPending => ⟨0x00104, 0, 1, 0⟩
  | .sysCommitSts => ⟨0x00108, 0, 1, 0⟩
  | .sysErr => ⟨0x0010C, 0, 1, 0⟩
  | .stuFrmCfg => ⟨0x10000, 0, 1, 0⟩
  | .stuFrmSts => ⟨0x10004, 0, 1, 0⟩
  | .stuFrmArr => ⟨0x10008, 0, 1, 0⟩
  | .stuFrmCntLo => ⟨0x1000C, 0, 1, 0⟩
  | .stuFrmCntHi => ⟨0x10010, 0, 1, 0⟩
  | .stuFrmEpochS => ⟨0x10014, 0, 1, 0⟩
  | .stuFrmEpochNs => ⟨0x10018, 0, 1, 0⟩
  | .stuFrmEpochNsl => ⟨0x1001C, 0, 1, 0⟩
  | .stuFrmPhase => ⟨0x10020, 0, 1, 0⟩
  | .stuTimeSLo => ⟨0x10100, 0, 1, 0⟩
  | .stuTimeSHi => ⟨0x10104, 0, 1, 0⟩
  | .stuTimeNs => ⟨0x10108, 0, 1, 0⟩
  | .stuRate => ⟨0x1010C, 0, 1, 0⟩
  | .stuOffset => ⟨0x10110, 0, 1, 0⟩
  | .stuPtpDly => ⟨0x10114, 0, 1, 0⟩
  | .stuPtpCfg => ⟨0x10120, 0, 1, 0⟩
  | .stuServoCfg0 => ⟨0x10124, 0, 1, 0⟩
  | .stuServoCfg1 => ⟨0x10128, 0, 1, 0⟩
  | .stuPtpSts => ⟨0x1012C, 0, 1, 0⟩
  | .stuLatTrim => ⟨0x10130, 0, 2, 4⟩
  | .stuTpCfg => ⟨0x10200, 0, 4, 32⟩
  | .stuTpStartSLo => ⟨0x10204, 0, 4, 32⟩
  | .stuTpStartSHi => ⟨0x10208, 0, 4, 32⟩
  | .stuTpStartNs => ⟨0x1020C, 0, 4, 32⟩
  | .stuTpPeriod => ⟨0x10210, 0, 4, 32⟩
  | .stuTpWidth => ⟨0x10214, 0, 4, 32⟩
  | .stuCapCfg => ⟨0x10300, 0, 2, 16⟩
  | .stuCapSLo => ⟨0x10304, 0, 2, 16⟩
  | .stuCapSHi => ⟨0x10308, 0, 2, 16⟩
  | .stuCapNs => ⟨0x1030C, 0, 2, 16⟩
  | .strCfg => ⟨0x20000, 0, 1, 0⟩
  | .strCtl => ⟨0x20004, 0, 1, 0⟩
  | .strSts => ⟨0x20008, 0, 1, 0⟩
  | .strNw => ⟨0x2000C, 0, 1, 0⟩
  | .strNwLock => ⟨0x20010, 0, 1, 0⟩
  | .strBand => ⟨0x20040, 0, 16, 4⟩
  | .strClkoutCfg => ⟨0x20080, 0, 4, 4⟩
  | .laneCfg => ⟨0x30000, 0, 28, 64⟩
  | .laneSts => ⟨0x30004, 0, 28, 64⟩
  | .laneEq => ⟨0x30008, 0, 28, 64⟩
  | .laneEyeCtl => ⟨0x3000C, 0, 28, 64⟩
  | .laneCntHdr => ⟨0x30010, 0, 28, 64⟩
  | .laneCntStuff => ⟨0x30014, 0, 28, 64⟩
  | .laneCntFill => ⟨0x30018, 0, 28, 64⟩
  | .laneCntAbort => ⟨0x3001C, 0, 28, 64⟩
  | .laneCntLol => ⟨0x30020, 0, 28, 64⟩
  | .laneCntSat => ⟨0x30024, 0, 28, 64⟩
  | .laneHlthCfg => ⟨0x30800, 0, 1, 0⟩
  | .laneCntClr => ⟨0x30804, 0, 1, 0⟩
  | .wlBrCfg => ⟨0x40000, 0, 12, 32⟩
  | .wlBrSts => ⟨0x40004, 0, 12, 32⟩
  | .wlCntUpbad => ⟨0x40008, 0, 12, 32⟩
  | .wlCntMiss => ⟨0x4000C, 0, 12, 32⟩
  | .wlCntBulkto => ⟨0x40010, 0, 12, 32⟩
  | .wlCntResplit => ⟨0x40014, 0, 12, 32⟩
  | .wlCntSat => ⟨0x40018, 0, 12, 32⟩
  | .wlDiscCtl => ⟨0x40200, 0, 1, 0⟩
  | .wlTimeSts => ⟨0x40204, 0, 1, 0⟩
  | .wlCntClr => ⟨0x40208, 0, 1, 0⟩
  | .curdBase => ⟨0x50004, 1, 7, 4⟩
  | .curdSdClk => ⟨0x50040, 0, 4, 4⟩
  | .curdSdCfg => ⟨0x50080, 0, 32, 4⟩
  | .curdPinFilt => ⟨0x50100, 0, 17, 4⟩
  | .curdSdSts => ⟨0x50180, 0, 1, 0⟩
  | .curdHygSts => ⟨0x50184, 0, 1, 0⟩
  | .harpProfMv => ⟨0x60000, 0, 96, 4⟩
  | .harpProfDab => ⟨0x60200, 0, 96, 4⟩
  | .harpProfSts => ⟨0x60400, 0, 1, 0⟩
  | .harpDtCfg => ⟨0x60500, 0, 36, 4⟩
  | .harpLpPer => ⟨0x60600, 0, 12, 16⟩
  | .harpLpDuty => ⟨0x60604, 0, 12, 16⟩
  | .harpLpCfg => ⟨0x60608, 0, 12, 16⟩
  | .harpLpSts => ⟨0x6060C, 0, 12, 16⟩
  | .harpTripCfg => ⟨0x60700, 0, 12, 8⟩
  | .harpTripBind => ⟨0x60704, 0, 12, 8⟩
  | .harpTripSts => ⟨0x60780, 0, 1, 0⟩
  | .harpCtripCfg => ⟨0x60790, 0, 3, 4⟩
  | .harpDbgCtl => ⟨0x607A0, 0, 1, 0⟩
  | .harpDbgSts => ⟨0x607A4, 0, 1, 0⟩
  | .pressCtl => ⟨0x70000, 0, 1, 0⟩
  | .pressSts => ⟨0x70004, 0, 1, 0⟩
  | .pressLoadSlot => ⟨0x70008, 0, 1, 0⟩
  | .pressLoadPrep => ⟨0x7000C, 0, 1, 0⟩
  | .pressL1Cfg => ⟨0x70010, 0, 1, 0⟩
  | .pressCprof0 => ⟨0x70100, 0, 96, 32⟩
  | .pressCprof1 => ⟨0x70104, 0, 96, 32⟩
  | .pressCprof2 => ⟨0x70108, 0, 96, 32⟩
  | .pressCprof3 => ⟨0x7010C, 0, 96, 32⟩
  | .pressCprof4 => ⟨0x70110, 0, 96, 32⟩
  | .pressCprof5 => ⟨0x70114, 0, 96, 32⟩
  | .chedBrCfg => ⟨0x80000, 0, 12, 8⟩
  | .chedBrSts => ⟨0x80004, 0, 12, 8⟩
  | .chedCfg => ⟨0x80080, 0, 1, 0⟩
  | .twinCfg => ⟨0x80100, 0, 1, 0⟩
  | .twinSts => ⟨0x80104, 0, 1, 0⟩
  | .twinOffset => ⟨0x80108, 0, 1, 0⟩
  | .twinCntHbmiss => ⟨0x8010C, 0, 1, 0⟩
  | .twinCntMdrop => ⟨0x80110, 0, 1, 0⟩
  | .twinCntDiverge => ⟨0x80114, 0, 1, 0⟩
  | .twinCntSat => ⟨0x80118, 0, 1, 0⟩
  | .twinCntClr => ⟨0x8011C, 0, 1, 0⟩
  | .modeReq => ⟨0x90000, 0, 1, 0⟩
  | .modeCtl => ⟨0x90004, 0, 1, 0⟩
  | .modeSts => ⟨0x90008, 0, 1, 0⟩
  | .modeEff => ⟨0x9000C, 0, 1, 0⟩
  | .modeLvEff => ⟨0x90010, 0, 1, 0⟩
  | .modeLimCfg0 => ⟨0x90020, 0, 1, 0⟩
  | .modeLimCfg1 => ⟨0x90024, 0, 1, 0⟩
  | .modeLimCfg2 => ⟨0x90028, 0, 1, 0⟩
  | .modePrechgCfg => ⟨0x90030, 0, 1, 0⟩
  | .modeBsCfg => ⟨0x90034, 0, 1, 0⟩
  | .modeRtSrc => ⟨0x90040, 0, 2, 4⟩
  | .modeRtCfg0 => ⟨0x90050, 0, 1, 0⟩
  | .modeRtCfg1 => ⟨0x90054, 0, 1, 0⟩
  | .modeRtCfg2 => ⟨0x90058, 0, 1, 0⟩
  | .modeTestCfg => ⟨0x90060, 0, 1, 0⟩
  | .modeLvgCfg => ⟨0x90080, 0, 12, 4⟩
  | .affCfg => ⟨0xA0000, 0, 1, 0⟩
  | .affCtl => ⟨0xA0004, 0, 1, 0⟩
  | .affSts => ⟨0xA0008, 0, 1, 0⟩
  | .affPlanSeq => ⟨0xA000C, 0, 1, 0⟩
  | .affLimCfg0 => ⟨0xA0010, 0, 1, 0⟩
  | .affLimCfg1 => ⟨0xA0014, 0, 1, 0⟩
  | .affLimCfg2 => ⟨0xA0018, 0, 1, 0⟩
  | .affLimCfg3 => ⟨0xA001C, 0, 1, 0⟩
  | .affHorizonLo => ⟨0xA0020, 0, 1, 0⟩
  | .affHorizonHi => ⟨0xA0024, 0, 1, 0⟩
  | .affDieCfg => ⟨0xA0030, 0, 1, 0⟩
  | .affDieSts => ⟨0xA0034, 0, 1, 0⟩
  | .affDieEolLo => ⟨0xA0038, 0, 1, 0⟩
  | .affDieEolHi => ⟨0xA003C, 0, 1, 0⟩
  | .affUcoef => ⟨0xA0040, 0, 12, 4⟩
  | .rindCfg => ⟨0xB0000, 0, 1, 0⟩
  | .rindSts => ⟨0xB0004, 0, 1, 0⟩
  | .rindFirst => ⟨0xB0008, 0, 1, 0⟩
  | .rindLockRec => ⟨0xB000C, 0, 1, 0⟩
  | .rindIntSts => ⟨0xB0010, 0, 1, 0⟩
  | .rindExtCfg => ⟨0xB0014, 0, 1, 0⟩
  | .rindHostwdCfg => ⟨0xB0018, 0, 1, 0⟩
  | .rindHostwdKick => ⟨0xB001C, 0, 1, 0⟩
  | .rindCellLim0 => ⟨0xB0020, 0, 1, 0⟩
  | .rindCellLim1 => ⟨0xB0024, 0, 1, 0⟩
  | .rindSticky => ⟨0xB0100, 0, 36, 4⟩
  | .rindLive => ⟨0xB0200, 0, 36, 4⟩
  | .rindForce => ⟨0xB0300, 0, 36, 4⟩
  | .rindCls => ⟨0xB0400, 0, 144, 4⟩
  | .rindCellCls => ⟨0xB0700, 0, 4, 4⟩
  | .rindCellAny => ⟨0xB0780, 0, 18, 4⟩
  | .rindSdLim1 => ⟨0xB0800, 0, 32, 8⟩
  | .rindSdLim2 => ⟨0xB0804, 0, 32, 8⟩
  | .cellarCfg => ⟨0xC0000, 0, 1, 0⟩
  | .cellarSts => ⟨0xC0004, 0, 1, 0⟩
  | .cellarBase => ⟨0xC0008, 0, 1, 0⟩
  | .cellarPeak => ⟨0xC000C, 0, 1, 0⟩
  | .cellarSdRec => ⟨0xC0010, 0, 1, 0⟩
  | .cellarSdTimeLo => ⟨0xC0014, 0, 1, 0⟩
  | .cellarSdTimeHi => ⟨0xC0018, 0, 1, 0⟩
  | .cellarNode => ⟨0xC0040, 0, 16, 4⟩
  | .cellarDiode => ⟨0xC0080, 0, 4, 4⟩
  | .cmdQCfg => ⟨0xD0000, 0, 32, 64⟩
  | .cmdSqBaseLo => ⟨0xD0004, 0, 32, 64⟩
  | .cmdSqBaseHi => ⟨0xD0008, 0, 32, 64⟩
  | .cmdCqBaseLo => ⟨0xD000C, 0, 32, 64⟩
  | .cmdCqBaseHi => ⟨0xD0010, 0, 32, 64⟩
  | .cmdSqTail => ⟨0xD0014, 0, 32, 64⟩
  | .cmdCqHead => ⟨0xD0018, 0, 32, 64⟩
  | .cmdQSts => ⟨0xD001C, 0, 32, 64⟩
  | .cmdQDrop => ⟨0xD0020, 0, 32, 64⟩
  | .cmdUdpPeer => ⟨0xD0024, 0, 32, 64⟩
  | .cmdEvCfg => ⟨0xD0800, 0, 8, 32⟩
  | .cmdEvBaseLo => ⟨0xD0804, 0, 8, 32⟩
  | .cmdEvBaseHi => ⟨0xD0808, 0, 8, 32⟩
  | .cmdEvHead => ⟨0xD080C, 0, 8, 32⟩
  | .cmdEvSts => ⟨0xD0810, 0, 8, 32⟩
  | .cmdLockCfg => ⟨0xD0A00, 0, 1, 0⟩
  | .cmdSts => ⟨0xD0A04, 0, 1, 0⟩
  | .cmdIntPendLo => ⟨0xD0A08, 0, 1, 0⟩
  | .cmdIntPendHi => ⟨0xD0A0C, 0, 1, 0⟩
  | .cmdIntEnLo => ⟨0xD0A10, 0, 1, 0⟩
  | .cmdIntEnHi => ⟨0xD0A14, 0, 1, 0⟩
  | .cmdUdpCfg => ⟨0xD0A20, 0, 1, 0⟩
  | .cmdSpiCfg => ⟨0xD0A24, 0, 1, 0⟩
  | .cmdEthIp => ⟨0xD0A30, 0, 2, 4⟩
  | .cmdEthMacLo => ⟨0xD0A40, 0, 2, 8⟩
  | .cmdEthMacHi => ⟨0xD0A44, 0, 2, 8⟩
  | .msixAddrLo => ⟨0xD8000, 0, 64, 16⟩
  | .msixAddrHi => ⟨0xD8004, 0, 64, 16⟩
  | .msixData => ⟨0xD8008, 0, 64, 16⟩
  | .msixCtrl => ⟨0xD800C, 0, 64, 16⟩
  | .msixPba => ⟨0xD9000, 0, 2, 4⟩
  | .vatMap => ⟨0xE0000, 0, 32, 4⟩
  | .vatCtl => ⟨0xE0080, 0, 1, 0⟩
  | .vatSts => ⟨0xE0084, 0, 2, 4⟩
  | .vatCntClr => ⟨0xE008C, 0, 1, 0⟩
  | .vatLoss => ⟨0xE0100, 0, 32, 4⟩
  | .vatGrant => ⟨0xE0180, 0, 32, 4⟩
  | .caveTrcCfg => ⟨0xE0200, 0, 1, 0⟩
  | .caveTrcSts => ⟨0xE0204, 0, 1, 0⟩
  | .caveTrcDepth => ⟨0xE0208, 0, 1, 0⟩
  | .caveLogNew => ⟨0xE0210, 0, 1, 0⟩
  | .caveLogAck => ⟨0xE0214, 0, 1, 0⟩
  | .caveLogOvr => ⟨0xE0218, 0, 1, 0⟩
  | .caveLogLost => ⟨0xE021C, 0, 1, 0⟩
  | .caveEccSts => ⟨0xE0220, 0, 2, 4⟩
  | .caveDbeAddr => ⟨0xE0228, 0, 2, 4⟩
  | .cavePersCfg => ⟨0xE0230, 0, 1, 0⟩
  | .cavePersSts => ⟨0xE0234, 0, 1, 0⟩
  | .pwrCfg => ⟨0xF0000, 0, 1, 0⟩
  | .pwrWakeCfg => ⟨0xF0004, 0, 1, 0⟩
  | .pwrWakeKey => ⟨0xF0008, 0, 1, 0⟩
  | .pwrSts => ⟨0xF000C, 0, 1, 0⟩
  | .pwrWaxSts => ⟨0xF0010, 0, 1, 0⟩
  | .pwrWaxCal => ⟨0xF0014, 0, 1, 0⟩
  | .pwrWaxCntLo => ⟨0xF0018, 0, 1, 0⟩
  | .pwrWaxCntHi => ⟨0xF001C, 0, 1, 0⟩
  | .pwrAlarmLo => ⟨0xF0020, 0, 1, 0⟩
  | .pwrAlarmHi => ⟨0xF0024, 0, 1, 0⟩
  | .pwrRailSts => ⟨0xF0028, 0, 1, 0⟩

/-- Every register, in the order of Table 18-1 and Table 18-2. -/
def allRegs0 : List RegName :=
    [.sysId, .sysStrap, .sysBootSts, .sysBootCtl, .sysRstSts, .sysCommit, .sysCfgPending, .sysCommitSts,
   .sysErr, .stuFrmCfg, .stuFrmSts, .stuFrmArr, .stuFrmCntLo, .stuFrmCntHi, .stuFrmEpochS, .stuFrmEpochNs,
   .stuFrmEpochNsl, .stuFrmPhase, .stuTimeSLo, .stuTimeSHi, .stuTimeNs, .stuRate, .stuOffset, .stuPtpDly,
   .stuPtpCfg, .stuServoCfg0, .stuServoCfg1, .stuPtpSts, .stuLatTrim, .stuTpCfg, .stuTpStartSLo,
   .stuTpStartSHi, .stuTpStartNs, .stuTpPeriod, .stuTpWidth, .stuCapCfg, .stuCapSLo, .stuCapSHi, .stuCapNs,
   .strCfg]

def allRegs1 : List RegName :=
    [.strCtl, .strSts, .strNw, .strNwLock, .strBand, .strClkoutCfg, .laneCfg, .laneSts, .laneEq, .laneEyeCtl,
   .laneCntHdr, .laneCntStuff, .laneCntFill, .laneCntAbort, .laneCntLol, .laneCntSat, .laneHlthCfg,
   .laneCntClr, .wlBrCfg, .wlBrSts, .wlCntUpbad, .wlCntMiss, .wlCntBulkto, .wlCntResplit, .wlCntSat,
   .wlDiscCtl, .wlTimeSts, .wlCntClr, .curdBase, .curdSdClk, .curdSdCfg, .curdPinFilt, .curdSdSts,
   .curdHygSts, .harpProfMv, .harpProfDab, .harpProfSts, .harpDtCfg, .harpLpPer, .harpLpDuty]

def allRegs2 : List RegName :=
    [.harpLpCfg, .harpLpSts, .harpTripCfg, .harpTripBind, .harpTripSts, .harpCtripCfg, .harpDbgCtl,
   .harpDbgSts, .pressCtl, .pressSts, .pressLoadSlot, .pressLoadPrep, .pressL1Cfg, .pressCprof0, .pressCprof1,
   .pressCprof2, .pressCprof3, .pressCprof4, .pressCprof5, .chedBrCfg, .chedBrSts, .chedCfg, .twinCfg,
   .twinSts, .twinOffset, .twinCntHbmiss, .twinCntMdrop, .twinCntDiverge, .twinCntSat, .twinCntClr, .modeReq,
   .modeCtl, .modeSts, .modeEff, .modeLvEff, .modeLimCfg0, .modeLimCfg1, .modeLimCfg2, .modePrechgCfg,
   .modeBsCfg]

def allRegs3 : List RegName :=
    [.modeRtSrc, .modeRtCfg0, .modeRtCfg1, .modeRtCfg2, .modeTestCfg, .modeLvgCfg, .affCfg, .affCtl, .affSts,
   .affPlanSeq, .affLimCfg0, .affLimCfg1, .affLimCfg2, .affLimCfg3, .affHorizonLo, .affHorizonHi, .affDieCfg,
   .affDieSts, .affDieEolLo, .affDieEolHi, .affUcoef, .rindCfg, .rindSts, .rindFirst, .rindLockRec,
   .rindIntSts, .rindExtCfg, .rindHostwdCfg, .rindHostwdKick, .rindCellLim0, .rindCellLim1, .rindSticky,
   .rindLive, .rindForce, .rindCls, .rindCellCls, .rindCellAny, .rindSdLim1, .rindSdLim2, .cellarCfg]

def allRegs4 : List RegName :=
    [.cellarSts, .cellarBase, .cellarPeak, .cellarSdRec, .cellarSdTimeLo, .cellarSdTimeHi, .cellarNode,
   .cellarDiode, .cmdQCfg, .cmdSqBaseLo, .cmdSqBaseHi, .cmdCqBaseLo, .cmdCqBaseHi, .cmdSqTail, .cmdCqHead,
   .cmdQSts, .cmdQDrop, .cmdUdpPeer, .cmdEvCfg, .cmdEvBaseLo, .cmdEvBaseHi, .cmdEvHead, .cmdEvSts,
   .cmdLockCfg, .cmdSts, .cmdIntPendLo, .cmdIntPendHi, .cmdIntEnLo, .cmdIntEnHi, .cmdUdpCfg, .cmdSpiCfg,
   .cmdEthIp, .cmdEthMacLo, .cmdEthMacHi, .msixAddrLo, .msixAddrHi, .msixData, .msixCtrl, .msixPba, .vatMap]

def allRegs5 : List RegName :=
    [.vatCtl, .vatSts, .vatCntClr, .vatLoss, .vatGrant, .caveTrcCfg, .caveTrcSts, .caveTrcDepth, .caveLogNew,
   .caveLogAck, .caveLogOvr, .caveLogLost, .caveEccSts, .caveDbeAddr, .cavePersCfg, .cavePersSts, .pwrCfg,
   .pwrWakeCfg, .pwrWakeKey, .pwrSts, .pwrWaxSts, .pwrWaxCal, .pwrWaxCntLo, .pwrWaxCntHi, .pwrAlarmLo,
   .pwrAlarmHi, .pwrRailSts]

/-- All register names. -/
def allRegs : List RegName := allRegs0 ++ allRegs1 ++ allRegs2 ++ allRegs3 ++ allRegs4 ++ allRegs5

/-- The commit block of Table 18-3 a register belongs to: its shadowed fields apply at that block's commit write (R432). -/
def RegName.block : RegName → Option Nat
  | .stuFrmCfg => some 1
  | .stuPtpCfg => some 12
  | .stuServoCfg0 => some 12
  | .stuServoCfg1 => some 12
  | .strCfg => some 12
  | .strCtl => some 12
  | .strBand => some 12
  | .strClkoutCfg => some 12
  | .laneCfg => some 2
  | .wlBrCfg => some 3
  | .curdBase => some 4
  | .curdSdClk => some 4
  | .curdSdCfg => some 4
  | .harpProfMv => some 5
  | .harpProfDab => some 5
  | .harpDtCfg => some 5
  | .harpTripCfg => some 5
  | .harpTripBind => some 5
  | .harpCtripCfg => some 5
  | .pressL1Cfg => some 6
  | .pressCprof0 => some 6
  | .pressCprof1 => some 6
  | .pressCprof2 => some 6
  | .pressCprof3 => some 6
  | .pressCprof4 => some 6
  | .pressCprof5 => some 6
  | .chedBrCfg => some 7
  | .chedCfg => some 7
  | .twinCfg => some 7
  | .modeReq => some 8
  | .modeLimCfg0 => some 8
  | .modeLimCfg1 => some 8
  | .modeLimCfg2 => some 8
  | .modePrechgCfg => some 8
  | .modeBsCfg => some 8
  | .modeRtSrc => some 8
  | .modeRtCfg0 => some 8
  | .modeRtCfg1 => some 8
  | .modeRtCfg2 => some 8
  | .modeTestCfg => some 8
  | .modeLvgCfg => some 8
  | .affCfg => some 9
  | .affLimCfg0 => some 9
  | .affLimCfg1 => some 9
  | .affLimCfg2 => some 9
  | .affLimCfg3 => some 9
  | .affDieCfg => some 9
  | .rindCfg => some 10
  | .rindExtCfg => some 10
  | .rindCellLim0 => some 10
  | .rindCellLim1 => some 10
  | .rindCls => some 10
  | .rindCellCls => some 10
  | .rindSdLim1 => some 10
  | .rindSdLim2 => some 10
  | .cellarCfg => some 11
  | .cmdUdpCfg => some 13
  | .cmdSpiCfg => some 13
  | _ => none

/-- Every field of the field tables that is not reserved, named register_field. -/
inductive Fld where
  | stuFrmCfg_frame_len | stuFrmCfg_hop_bound | stuFrmSts_t_snap | stuFrmSts_h_max | stuFrmSts_relay_active
  | stuFrmSts_budget_fail | stuFrmSts_len_pending | stuFrmSts_len_refused | stuFrmArr_worst_arrival
  | stuFrmArr_late_tails | stuFrmCntLo_cnt_lo | stuFrmCntHi_cnt_hi | stuFrmEpochS_epoch_s_lo
  | stuFrmEpochNs_epoch_s_hi | stuFrmEpochNs_epoch_ns_hi | stuFrmEpochNsl_epoch_ns_lo | stuFrmPhase_phase_err
  | laneCfg_coding | laneCfg_enable | laneCfg_eq_freeze | laneCfg_rx_invert | laneCfg_tx_invert
  | laneCfg_tx_swing | laneCfg_tx_pre | laneCfg_tx_post | laneCfg_keepalive | laneSts_state | laneSts_lock
  | laneSts_coding_active | laneSts_cfg_refused | laneSts_sig_det | laneSts_eb_fill | laneSts_eye_h
  | laneSts_eye_w | laneEq_ctle | laneEq_h1 | laneEq_h2 | laneEq_h3 | laneEq_h4 | laneEq_h5
  | laneHlthCfg_degr_hdr | laneHlthCfg_fail_hdr | laneHlthCfg_eye_h_min | laneHlthCfg_eye_w_min
  | laneEyeCtl_start | laneEyeCtl_stop | laneEyeCtl_busy | laneEyeCtl_continuous | laneEyeCtl_dwell_exp
  | laneEyeCtl_map_count | laneCntHdr_hdr_err | laneCntStuff_stuff | laneCntFill_fill | laneCntAbort_abort
  | laneCntLol_lol | laneCntSat_sat | laneCntClr_clr | wlBrCfg_exp_len | wlBrCfg_auto_resplit
  | wlBrCfg_split_force | wlBrSts_n_b | wlBrSts_split | wlBrSts_topo | wlBrSts_break_pos | wlBrSts_disc
  | wlBrSts_disc_mismatch | wlBrSts_locked | wlDiscCtl_start | wlDiscCtl_busy | wlTimeSts_worst_err
  | wlTimeSts_worst_cell | wlTimeSts_all_locked | wlCntUpbad_upbad | wlCntMiss_miss | wlCntBulkto_bulkto
  | wlCntResplit_resplit | wlCntSat_sat | wlCntClr_clr | curdBase_base | curdSdClk_rate | curdSdClk_enable
  | curdSdClk_refused | curdSdCfg_clk_sel | curdSdCfg_osr | curdSdCfg_enable | curdSdCfg_edge
  | curdPinFilt_filt | curdSdSts_stuck | curdHygSts_stale_pts | curdHygSts_frozen_pts | harpProfMv_tc
  | harpProfMv_mv_mode | harpProfMv_pmin | harpProfDab_dab_n | harpProfDab_law | harpProfDab_fo_max
  | harpProfSts_refused | harpProfSts_invalid | harpProfSts_prof | harpProfSts_words_max | harpDtCfg_dt_min
  | harpDtCfg_dt_max | harpLpPer_period | harpLpDuty_on_ticks | harpLpDuty_on_frac | harpLpCfg_enable
  | harpLpCfg_centre | harpLpCfg_pol_a | harpLpCfg_pol_b | harpLpCfg_dt | harpLpCfg_grp | harpLpSts_armed
  | harpLpSts_forced_off | harpLpSts_a_level | harpLpSts_b_level | harpTripCfg_filt | harpTripCfg_n_trip
  | harpTripCfg_enable | harpTripCfg_pol | harpTripCfg_win | harpTripBind_pairs | harpTripSts_latched
  | harpTripSts_live | harpTripSts_clr_refused | harpCtripCfg_filt | harpCtripCfg_n_trip
  | harpCtripCfg_enable | harpCtripCfg_win | harpDbgCtl_halt | harpDbgCtl_resume | harpDbgCtl_halt_off
  | harpDbgCtl_halt_park | harpDbgSts_halted | harpDbgSts_permit | harpDbgSts_refused | pressCtl_bank_commit
  | pressCtl_bank_copy | pressCtl_cfg_commit | pressSts_active_bank | pressSts_swap_pending
  | pressSts_copy_busy | pressSts_cfg_pending | pressSts_cfg_refused | pressSts_refuse_code
  | pressSts_bank_refused | pressLoadSlot_cost | pressLoadSlot_cost_max | pressLoadPrep_prep
  | pressL1Cfg_hold | pressCprof0_k_bal | pressCprof0_i_db | pressCprof1_kp_dab | pressCprof2_ki_dab
  | pressCprof3_k_dab | pressCprof4_p_lim | pressCprof4_kc | pressCprof5_kd | pressCprof5_d_max | chedBrCfg_k
  | chedBrCfg_rot_n | chedBrCfg_byp_en | chedCfg_dev_max | chedCfg_hr_n | chedCfg_refused | chedBrSts_n_act
  | chedBrSts_spares | chedBrSts_bypassed | chedBrSts_rho | chedBrSts_exhausted | chedBrSts_isolating
  | twinCfg_enable | twinCfg_end | twinCfg_prefer | twinCfg_role_gpio_en | twinCfg_role_gpio | twinCfg_swap
  | twinCfg_calibrate | twinSts_role | twinSts_epoch | twinSts_peer0 | twinSts_peer1 | twinSts_cal_valid
  | twinSts_hb_miss | twinSts_took_over | twinSts_demoted | twinSts_cfg_match | twinOffset_theta
  | twinCntHbmiss_hbmiss | twinCntMdrop_mdrop | twinCntDiverge_diverge | twinCntSat_sat | twinCntClr_clr
  | modeReq_grid | modeReq_flow | modeReq_svc | modeReq_rt_en | modeLvgCfg_lv | modeLvgCfg_leader
  | modeLvgCfg_br_mask | modeLimCfg0_p_max | modeLimCfg0_i_max | modeLimCfg1_i_float | modeLimCfg1_c_max
  | modeLimCfg2_lim_slew | modeLimCfg2_t_rd | modePrechgCfg_v_min | modePrechgCfg_t_pre | modeBsCfg_v_dead
  | modeBsCfg_v_ok | modeRtSrc_pa | modeRtCfg0_v_lo | modeRtCfg0_v_hi | modeRtCfg1_f_dev | modeRtCfg1_n_in
  | modeRtCfg1_hyst | modeRtCfg2_t_exit | modeRtCfg2_t_max | modeTestCfg_branches | modeCtl_commit
  | modeCtl_start | modeCtl_stop | modeCtl_restart | modeSts_conv | modeSts_formed | modeSts_rt
  | modeSts_deferred | modeSts_pending | modeSts_refused | modeSts_refuse_code | modeSts_start_refused
  | modeSts_armed | modeEff_eff | modeLvEff_lv | affCfg_policy | affCfg_epoch_h | affCfg_gamma
  | affCfg_rf_hyst | affCfg_kf_exp | affCfg_cap_hour | affCfg_refused | affLimCfg0_d_max | affLimCfg0_w_hyst
  | affLimCfg1_tj_lim | affLimCfg1_ilim_min | affLimCfg2_fo_up | affLimCfg2_fo_dn | affLimCfg3_cap_min
  | affLimCfg3_esr_max | affHorizonLo_hz_lo | affHorizonHi_hz_hi | affUcoef_gain | affCtl_accept
  | affCtl_reject | affCtl_epoch_now | affSts_busy | affSts_proposed | affSts_deferred | affSts_plan_late
  | affSts_at_risk | affPlanSeq_seq | affDieCfg_margin_tgt | affDieCfg_fbb_max | affDieCfg_die_en
  | affDieCfg_pmbus_addr | affDieSts_margin_min | affDieSts_v_code | affDieSts_fbb | affDieSts_worst_mon
  | affDieSts_pmbus_fail | affDieEolLo_eol_lo | affDieEolHi_eol_hi | rindCfg_inj_en | rindCfg_trip_hold
  | rindSts_lockout | rindSts_trip_n | rindSts_safe_n | rindSts_standing | rindSts_refused
  | rindSts_clr_refused | rindFirst_index | rindFirst_class | rindFirst_valid | rindLockRec_index
  | rindLockRec_k_lo | rindIntSts_cls | rindIntSts_mask | rindSticky_sticky | rindLive_live | rindForce_force
  | rindCls_cls0 | rindCls_cls1 | rindCls_cls2 | rindCls_cls3 | rindCls_cls4 | rindCls_cls5 | rindCls_cls6
  | rindCls_cls7 | rindCellCls_cls0 | rindCellCls_cls1 | rindCellCls_cls2 | rindCellCls_cls3
  | rindCellCls_cls4 | rindCellCls_cls5 | rindCellCls_cls6 | rindCellCls_cls7 | rindCellAny_any
  | rindCellLim0_ov | rindCellLim0_uv | rindCellLim1_oc | rindCellLim1_ot | rindSdLim1_lo1 | rindSdLim1_hi1
  | rindSdLim2_lo2 | rindSdLim2_hi2 | rindExtCfg_en | rindExtCfg_pol | rindHostwdCfg_period
  | rindHostwdKick_kick | cellarCfg_diode_en | cellarCfg_refused | cellarSts_t_c | cellarSts_hot_node
  | cellarSts_state | cellarSts_diode_ok | cellarSts_mismatch | cellarSts_sd_latch | cellarSts_clk_fb
  | cellarNode_temp | cellarNode_power | cellarDiode_reading | cellarDiode_model | cellarBase_t_base
  | cellarPeak_peak | cellarPeak_clr | cellarSdRec_temp | cellarSdRec_where | cellarSdRec_diode
  | cellarSdRec_count | cellarSdTimeLo_s_lo | cellarSdTimeHi_s_hi | cmdQCfg_enable | cmdQCfg_transport
  | cmdQCfg_int_en | cmdQCfg_size | cmdSqBaseLo_sq_lo | cmdSqBaseHi_sq_hi | cmdCqBaseLo_cq_lo
  | cmdCqBaseHi_cq_hi | cmdSqTail_tail | cmdCqHead_head | cmdQSts_state | cmdQSts_sq_head | cmdQSts_cq_tail
  | cmdQSts_busy | cmdQSts_err | cmdQDrop_drops | cmdEvCfg_enable | cmdEvCfg_udp | cmdEvCfg_q | cmdEvCfg_size
  | cmdEvCfg_types | cmdEvBaseLo_base | cmdEvBaseHi_base | cmdEvHead_head | cmdEvSts_tail | cmdEvSts_dropped
  | cmdLockCfg_hold_ms | cmdSts_bar_refused | cmdSts_q_error | cmdSts_lock_broken | cmdSts_restarted
  | cmdSts_locks | cmdIntPendLo_pend | cmdIntPendHi_pend | cmdIntEnLo_en | cmdIntEnHi_en | cmdUdpCfg_port
  | cmdUdpCfg_en_p0 | cmdUdpCfg_en_p1 | cmdUdpCfg_jumbo | cmdUdpCfg_vlan | cmdUdpCfg_vlan_en | cmdEthIp_ip
  | cmdEthMacLo_mac_lo | cmdEthMacHi_mac_hi | cmdUdpPeer_peer | cmdSpiCfg_queue | cmdSpiCfg_enable
  | vatMap_req | vatCtl_commit | vatCtl_map_refused | vatCtl_snap_skip | vatSts_starve | vatCntClr_clr
  | vatLoss_loss | vatLoss_wait_max | vatGrant_grants | caveTrcCfg_trig_cls | caveTrcSts_state
  | caveTrcSts_src | caveTrcSts_sel_pending | caveTrcSts_armed | caveTrcSts_ignored | caveTrcDepth_depth
  | caveLogNew_newest | caveLogAck_ack | caveLogOvr_ovr | caveLogLost_lost | caveEccSts_sbe
  | caveEccSts_sbe_ovf | caveDbeAddr_addr | cavePersCfg_hour | cavePersSts_busy | cavePersSts_copy
  | cavePersSts_fail | cavePersSts_days | strCfg_ref_sel | strCfg_auto_sw | strCfg_ref_en | strCfg_lref_en
  | strCtl_relock | strBand_valid | strBand_band | strBand_t_max | strSts_locked | strSts_on_safe
  | strSts_relocking | strSts_relock_fail | strSts_follow_lim | strSts_refused | strSts_refuse_code
  | strSts_band | strSts_entry | strSts_ref_in_use | strSts_vtune_warn | strSts_sync_missed | strNw_nw
  | strNwLock_nw_lock | strClkoutCfg_fmt | strClkoutCfg_src | strClkoutCfg_div_m1 | strClkoutCfg_sync_en
  | stuTimeSLo_s_lo | stuTimeSHi_s_hi | stuTimeNs_ns | stuTimeNs_q | stuRate_y | stuOffset_o | stuPtpDly_dly
  | stuPtpCfg_enable | stuPtpCfg_profile | stuPtpCfg_port_en | stuPtpCfg_domain | stuPtpCfg_ann_to
  | stuPtpCfg_kp_sh | stuPtpCfg_ki_sh | stuServoCfg0_step_thr | stuServoCfg0_lock_thr
  | stuServoCfg1_off_alarm | stuServoCfg1_dly_gate | stuLatTrim_rx | stuLatTrim_tx | stuPtpSts_quality
  | stuPtpSts_port | stuPtpSts_frame_peer | stuPtpSts_utc_offset | stuPtpSts_utc_valid | stuPtpSts_unstamped
  | stuTpCfg_enable | stuTpCfg_pol | stuTpCfg_arm | stuTpCfg_pending | stuTpCfg_refused
  | stuTpStartSLo_start_s | stuTpStartSHi_start_s_hi | stuTpStartNs_start_ns | stuTpPeriod_period
  | stuTpWidth_width | stuCapCfg_enable | stuCapCfg_edge | stuCapCfg_filt | stuCapCfg_ovr | stuCapSLo_s_lo
  | stuCapSHi_s_hi | stuCapSHi_count | stuCapNs_ns | stuCapNs_q | pwrCfg_osc_en | pwrCfg_osc_gpio
  | pwrCfg_osc_pol | pwrWakeCfg_wake_n_en | pwrWakeCfg_pcie_en | pwrWakeCfg_eth_en | pwrWakeCfg_trip_mask
  | pwrWakeKey_key | pwrSts_state | pwrSts_entering | pwrSts_waking | pwrSts_last_src | pwrWaxSts_wake_fail
  | pwrWaxSts_alert | pwrWaxSts_cellar_hold | pwrWaxSts_rail_uv | pwrWaxSts_cave_lost | pwrWaxSts_ret_lost
  | pwrWaxSts_src_mask | pwrWaxSts_attempts | pwrWaxCal_f_w | pwrWaxCntLo_n_lo | pwrWaxCntHi_n_hi
  | pwrAlarmLo_alarm_lo | pwrAlarmHi_alarm_hi | pwrRailSts_uv | pwrRailSts_ov | sysId_cell_capacity
  | sysId_grade | sysId_die_step | sysId_rom_ver | sysStrap_raw | sysBootSts_stage | sysBootSts_ready
  | sysBootSts_slot | sysBootSts_fallback | sysBootSts_cfg_loaded | sysBootSts_map_loaded
  | sysBootSts_rwu_loaded | sysBootSts_hb_starts | sysBootSts_ready_ms | sysBootCtl_go | sysRstSts_por
  | sysRstSts_porst | sysRstSts_rst_pin | sysRstSts_cmd | sysRstSts_cellar | sysRstSts_ret_lost
  | sysCommit_commit | sysCfgPending_pending | sysCommitSts_applying | sysCommitSts_refused | sysErr_partial
  | sysErr_boot_win | msixAddrLo_addr | msixAddrHi_addr | msixData_data | msixCtrl_mask | msixPba_pba
deriving DecidableEq, Repr

/-- The place of a field: its register, lowest bit, width and access code. -/
structure FldSpec where
  reg : RegName
  lo : Nat
  width : Nat
  acc : Acc
deriving DecidableEq, Repr

/-- The field tables (02-7 to 18-6): where each field stands and how it is accessed. -/
def Fld.spec : Fld → FldSpec
  | .stuFrmCfg_frame_len => ⟨.stuFrmCfg, 0, 2, .rws⟩
  | .stuFrmCfg_hop_bound => ⟨.stuFrmCfg, 8, 8, .rws⟩
  | .stuFrmSts_t_snap => ⟨.stuFrmSts, 0, 15, .ro⟩
  | .stuFrmSts_h_max => ⟨.stuFrmSts, 16, 6, .ro⟩
  | .stuFrmSts_relay_active => ⟨.stuFrmSts, 22, 1, .ro⟩
  | .stuFrmSts_budget_fail => ⟨.stuFrmSts, 23, 1, .ro⟩
  | .stuFrmSts_len_pending => ⟨.stuFrmSts, 24, 1, .ro⟩
  | .stuFrmSts_len_refused => ⟨.stuFrmSts, 25, 1, .w1c⟩
  | .stuFrmArr_worst_arrival => ⟨.stuFrmArr, 0, 15, .ro⟩
  | .stuFrmArr_late_tails => ⟨.stuFrmArr, 16, 10, .ro⟩
  | .stuFrmCntLo_cnt_lo => ⟨.stuFrmCntLo, 0, 32, .ro⟩
  | .stuFrmCntHi_cnt_hi => ⟨.stuFrmCntHi, 0, 16, .ro⟩
  | .stuFrmEpochS_epoch_s_lo => ⟨.stuFrmEpochS, 0, 32, .ro⟩
  | .stuFrmEpochNs_epoch_s_hi => ⟨.stuFrmEpochNs, 0, 16, .ro⟩
  | .stuFrmEpochNs_epoch_ns_hi => ⟨.stuFrmEpochNs, 16, 14, .ro⟩
  | .stuFrmEpochNsl_epoch_ns_lo => ⟨.stuFrmEpochNsl, 0, 16, .ro⟩
  | .stuFrmPhase_phase_err => ⟨.stuFrmPhase, 0, 32, .ro⟩
  | .laneCfg_coding => ⟨.laneCfg, 0, 2, .rws⟩
  | .laneCfg_enable => ⟨.laneCfg, 2, 1, .rws⟩
  | .laneCfg_eq_freeze => ⟨.laneCfg, 3, 1, .rws⟩
  | .laneCfg_rx_invert => ⟨.laneCfg, 4, 1, .rws⟩
  | .laneCfg_tx_invert => ⟨.laneCfg, 5, 1, .rws⟩
  | .laneCfg_tx_swing => ⟨.laneCfg, 6, 4, .rws⟩
  | .laneCfg_tx_pre => ⟨.laneCfg, 10, 4, .rws⟩
  | .laneCfg_tx_post => ⟨.laneCfg, 14, 4, .rws⟩
  | .laneCfg_keepalive => ⟨.laneCfg, 18, 10, .rws⟩
  | .laneSts_state => ⟨.laneSts, 0, 3, .ro⟩
  | .laneSts_lock => ⟨.laneSts, 3, 1, .ro⟩
  | .laneSts_coding_active => ⟨.laneSts, 4, 1, .ro⟩
  | .laneSts_cfg_refused => ⟨.laneSts, 5, 1, .w1c⟩
  | .laneSts_sig_det => ⟨.laneSts, 6, 1, .ro⟩
  | .laneSts_eb_fill => ⟨.laneSts, 7, 4, .ro⟩
  | .laneSts_eye_h => ⟨.laneSts, 16, 7, .ro⟩
  | .laneSts_eye_w => ⟨.laneSts, 23, 8, .ro⟩
  | .laneEq_ctle => ⟨.laneEq, 0, 5, .ro⟩
  | .laneEq_h1 => ⟨.laneEq, 5, 7, .ro⟩
  | .laneEq_h2 => ⟨.laneEq, 12, 5, .ro⟩
  | .laneEq_h3 => ⟨.laneEq, 17, 5, .ro⟩
  | .laneEq_h4 => ⟨.laneEq, 22, 5, .ro⟩
  | .laneEq_h5 => ⟨.laneEq, 27, 5, .ro⟩
  | .laneHlthCfg_degr_hdr => ⟨.laneHlthCfg, 0, 8, .rw⟩
  | .laneHlthCfg_fail_hdr => ⟨.laneHlthCfg, 8, 8, .rw⟩
  | .laneHlthCfg_eye_h_min => ⟨.laneHlthCfg, 16, 6, .rw⟩
  | .laneHlthCfg_eye_w_min => ⟨.laneHlthCfg, 22, 7, .rw⟩
  | .laneEyeCtl_start => ⟨.laneEyeCtl, 0, 1, .wo⟩
  | .laneEyeCtl_stop => ⟨.laneEyeCtl, 1, 1, .wo⟩
  | .laneEyeCtl_busy => ⟨.laneEyeCtl, 2, 1, .ro⟩
  | .laneEyeCtl_continuous => ⟨.laneEyeCtl, 3, 1, .rw⟩
  | .laneEyeCtl_dwell_exp => ⟨.laneEyeCtl, 4, 5, .rw⟩
  | .laneEyeCtl_map_count => ⟨.laneEyeCtl, 16, 16, .ro⟩
  | .laneCntHdr_hdr_err => ⟨.laneCntHdr, 0, 32, .ro⟩
  | .laneCntStuff_stuff => ⟨.laneCntStuff, 0, 32, .ro⟩
  | .laneCntFill_fill => ⟨.laneCntFill, 0, 32, .ro⟩
  | .laneCntAbort_abort => ⟨.laneCntAbort, 0, 32, .ro⟩
  | .laneCntLol_lol => ⟨.laneCntLol, 0, 32, .ro⟩
  | .laneCntSat_sat => ⟨.laneCntSat, 0, 5, .ro⟩
  | .laneCntClr_clr => ⟨.laneCntClr, 0, 28, .wo⟩
  | .wlBrCfg_exp_len => ⟨.wlBrCfg, 0, 6, .rws⟩
  | .wlBrCfg_auto_resplit => ⟨.wlBrCfg, 6, 1, .rws⟩
  | .wlBrCfg_split_force => ⟨.wlBrCfg, 8, 6, .rws⟩
  | .wlBrSts_n_b => ⟨.wlBrSts, 0, 6, .ro⟩
  | .wlBrSts_split => ⟨.wlBrSts, 6, 6, .ro⟩
  | .wlBrSts_topo => ⟨.wlBrSts, 12, 2, .ro⟩
  | .wlBrSts_break_pos => ⟨.wlBrSts, 14, 6, .ro⟩
  | .wlBrSts_disc => ⟨.wlBrSts, 20, 3, .ro⟩
  | .wlBrSts_disc_mismatch => ⟨.wlBrSts, 23, 1, .w1c⟩
  | .wlBrSts_locked => ⟨.wlBrSts, 24, 6, .ro⟩
  | .wlDiscCtl_start => ⟨.wlDiscCtl, 0, 12, .wo⟩
  | .wlDiscCtl_busy => ⟨.wlDiscCtl, 12, 12, .ro⟩
  | .wlTimeSts_worst_err => ⟨.wlTimeSts, 0, 16, .ro⟩
  | .wlTimeSts_worst_cell => ⟨.wlTimeSts, 16, 10, .ro⟩
  | .wlTimeSts_all_locked => ⟨.wlTimeSts, 26, 1, .ro⟩
  | .wlCntUpbad_upbad => ⟨.wlCntUpbad, 0, 32, .ro⟩
  | .wlCntMiss_miss => ⟨.wlCntMiss, 0, 32, .ro⟩
  | .wlCntBulkto_bulkto => ⟨.wlCntBulkto, 0, 32, .ro⟩
  | .wlCntResplit_resplit => ⟨.wlCntResplit, 0, 32, .ro⟩
  | .wlCntSat_sat => ⟨.wlCntSat, 0, 4, .ro⟩
  | .wlCntClr_clr => ⟨.wlCntClr, 0, 12, .wo⟩
  | .curdBase_base => ⟨.curdBase, 0, 32, .rws⟩
  | .curdSdClk_rate => ⟨.curdSdClk, 0, 1, .rws⟩
  | .curdSdClk_enable => ⟨.curdSdClk, 1, 1, .rws⟩
  | .curdSdClk_refused => ⟨.curdSdClk, 2, 1, .w1c⟩
  | .curdSdCfg_clk_sel => ⟨.curdSdCfg, 0, 2, .rws⟩
  | .curdSdCfg_osr => ⟨.curdSdCfg, 2, 1, .rws⟩
  | .curdSdCfg_enable => ⟨.curdSdCfg, 3, 1, .rws⟩
  | .curdSdCfg_edge => ⟨.curdSdCfg, 4, 1, .rws⟩
  | .curdPinFilt_filt => ⟨.curdPinFilt, 0, 12, .rw⟩
  | .curdSdSts_stuck => ⟨.curdSdSts, 0, 32, .ro⟩
  | .curdHygSts_stale_pts => ⟨.curdHygSts, 0, 16, .ro⟩
  | .curdHygSts_frozen_pts => ⟨.curdHygSts, 16, 16, .ro⟩
  | .harpProfMv_tc => ⟨.harpProfMv, 0, 23, .rws⟩
  | .harpProfMv_mv_mode => ⟨.harpProfMv, 23, 2, .rws⟩
  | .harpProfMv_pmin => ⟨.harpProfMv, 25, 7, .rws⟩
  | .harpProfDab_dab_n => ⟨.harpProfDab, 0, 4, .rws⟩
  | .harpProfDab_law => ⟨.harpProfDab, 4, 2, .rws⟩
  | .harpProfDab_fo_max => ⟨.harpProfDab, 8, 3, .rws⟩
  | .harpProfSts_refused => ⟨.harpProfSts, 0, 1, .w1c⟩
  | .harpProfSts_invalid => ⟨.harpProfSts, 1, 1, .ro⟩
  | .harpProfSts_prof => ⟨.harpProfSts, 2, 7, .ro⟩
  | .harpProfSts_words_max => ⟨.harpProfSts, 9, 5, .ro⟩
  | .harpDtCfg_dt_min => ⟨.harpDtCfg, 0, 13, .rws⟩
  | .harpDtCfg_dt_max => ⟨.harpDtCfg, 13, 13, .rws⟩
  | .harpLpPer_period => ⟨.harpLpPer, 0, 24, .rw⟩
  | .harpLpDuty_on_ticks => ⟨.harpLpDuty, 0, 24, .rw⟩
  | .harpLpDuty_on_frac => ⟨.harpLpDuty, 24, 4, .rw⟩
  | .harpLpCfg_enable => ⟨.harpLpCfg, 0, 1, .rw⟩
  | .harpLpCfg_centre => ⟨.harpLpCfg, 1, 1, .rw⟩
  | .harpLpCfg_pol_a => ⟨.harpLpCfg, 2, 1, .rw⟩
  | .harpLpCfg_pol_b => ⟨.harpLpCfg, 3, 1, .rw⟩
  | .harpLpCfg_dt => ⟨.harpLpCfg, 4, 13, .rw⟩
  | .harpLpCfg_grp => ⟨.harpLpCfg, 17, 4, .rw⟩
  | .harpLpSts_armed => ⟨.harpLpSts, 0, 1, .ro⟩
  | .harpLpSts_forced_off => ⟨.harpLpSts, 1, 1, .ro⟩
  | .harpLpSts_a_level => ⟨.harpLpSts, 2, 1, .ro⟩
  | .harpLpSts_b_level => ⟨.harpLpSts, 3, 1, .ro⟩
  | .harpTripCfg_filt => ⟨.harpTripCfg, 0, 10, .rws⟩
  | .harpTripCfg_n_trip => ⟨.harpTripCfg, 10, 8, .rws⟩
  | .harpTripCfg_enable => ⟨.harpTripCfg, 18, 1, .rws⟩
  | .harpTripCfg_pol => ⟨.harpTripCfg, 19, 1, .rws⟩
  | .harpTripCfg_win => ⟨.harpTripCfg, 20, 12, .rws⟩
  | .harpTripBind_pairs => ⟨.harpTripBind, 0, 12, .rws⟩
  | .harpTripSts_latched => ⟨.harpTripSts, 0, 12, .w1c⟩
  | .harpTripSts_live => ⟨.harpTripSts, 12, 12, .ro⟩
  | .harpTripSts_clr_refused => ⟨.harpTripSts, 24, 1, .w1c⟩
  | .harpCtripCfg_filt => ⟨.harpCtripCfg, 0, 10, .rws⟩
  | .harpCtripCfg_n_trip => ⟨.harpCtripCfg, 10, 8, .rws⟩
  | .harpCtripCfg_enable => ⟨.harpCtripCfg, 18, 1, .rws⟩
  | .harpCtripCfg_win => ⟨.harpCtripCfg, 20, 12, .rws⟩
  | .harpDbgCtl_halt => ⟨.harpDbgCtl, 0, 1, .wo⟩
  | .harpDbgCtl_resume => ⟨.harpDbgCtl, 1, 1, .wo⟩
  | .harpDbgCtl_halt_off => ⟨.harpDbgCtl, 2, 1, .rw⟩
  | .harpDbgCtl_halt_park => ⟨.harpDbgCtl, 3, 1, .rw⟩
  | .harpDbgSts_halted => ⟨.harpDbgSts, 0, 1, .ro⟩
  | .harpDbgSts_permit => ⟨.harpDbgSts, 1, 1, .ro⟩
  | .harpDbgSts_refused => ⟨.harpDbgSts, 2, 1, .w1c⟩
  | .pressCtl_bank_commit => ⟨.pressCtl, 0, 1, .wo⟩
  | .pressCtl_bank_copy => ⟨.pressCtl, 1, 1, .wo⟩
  | .pressCtl_cfg_commit => ⟨.pressCtl, 2, 1, .wo⟩
  | .pressSts_active_bank => ⟨.pressSts, 0, 1, .ro⟩
  | .pressSts_swap_pending => ⟨.pressSts, 1, 1, .ro⟩
  | .pressSts_copy_busy => ⟨.pressSts, 2, 1, .ro⟩
  | .pressSts_cfg_pending => ⟨.pressSts, 3, 1, .ro⟩
  | .pressSts_cfg_refused => ⟨.pressSts, 4, 1, .w1c⟩
  | .pressSts_refuse_code => ⟨.pressSts, 5, 3, .ro⟩
  | .pressSts_bank_refused => ⟨.pressSts, 8, 1, .w1c⟩
  | .pressLoadSlot_cost => ⟨.pressLoadSlot, 0, 16, .ro⟩
  | .pressLoadSlot_cost_max => ⟨.pressLoadSlot, 16, 16, .ro⟩
  | .pressLoadPrep_prep => ⟨.pressLoadPrep, 0, 20, .ro⟩
  | .pressL1Cfg_hold => ⟨.pressL1Cfg, 0, 6, .rws⟩
  | .pressCprof0_k_bal => ⟨.pressCprof0, 0, 16, .rws⟩
  | .pressCprof0_i_db => ⟨.pressCprof0, 16, 16, .rws⟩
  | .pressCprof1_kp_dab => ⟨.pressCprof1, 0, 32, .rws⟩
  | .pressCprof2_ki_dab => ⟨.pressCprof2, 0, 32, .rws⟩
  | .pressCprof3_k_dab => ⟨.pressCprof3, 0, 32, .rws⟩
  | .pressCprof4_p_lim => ⟨.pressCprof4, 0, 16, .rws⟩
  | .pressCprof4_kc => ⟨.pressCprof4, 16, 16, .rws⟩
  | .pressCprof5_kd => ⟨.pressCprof5, 0, 16, .rws⟩
  | .pressCprof5_d_max => ⟨.pressCprof5, 16, 16, .rws⟩
  | .chedBrCfg_k => ⟨.chedBrCfg, 0, 4, .rws⟩
  | .chedBrCfg_rot_n => ⟨.chedBrCfg, 4, 8, .rws⟩
  | .chedBrCfg_byp_en => ⟨.chedBrCfg, 12, 1, .rws⟩
  | .chedCfg_dev_max => ⟨.chedCfg, 0, 16, .rws⟩
  | .chedCfg_hr_n => ⟨.chedCfg, 16, 10, .rws⟩
  | .chedCfg_refused => ⟨.chedCfg, 26, 1, .w1c⟩
  | .chedBrSts_n_act => ⟨.chedBrSts, 0, 6, .ro⟩
  | .chedBrSts_spares => ⟨.chedBrSts, 6, 4, .ro⟩
  | .chedBrSts_bypassed => ⟨.chedBrSts, 10, 6, .ro⟩
  | .chedBrSts_rho => ⟨.chedBrSts, 16, 6, .ro⟩
  | .chedBrSts_exhausted => ⟨.chedBrSts, 22, 1, .ro⟩
  | .chedBrSts_isolating => ⟨.chedBrSts, 23, 1, .ro⟩
  | .twinCfg_enable => ⟨.twinCfg, 0, 1, .rws⟩
  | .twinCfg_end => ⟨.twinCfg, 1, 1, .rws⟩
  | .twinCfg_prefer => ⟨.twinCfg, 2, 1, .rws⟩
  | .twinCfg_role_gpio_en => ⟨.twinCfg, 3, 1, .rws⟩
  | .twinCfg_role_gpio => ⟨.twinCfg, 4, 4, .rws⟩
  | .twinCfg_swap => ⟨.twinCfg, 8, 1, .wo⟩
  | .twinCfg_calibrate => ⟨.twinCfg, 9, 1, .wo⟩
  | .twinSts_role => ⟨.twinSts, 0, 2, .ro⟩
  | .twinSts_epoch => ⟨.twinSts, 2, 16, .ro⟩
  | .twinSts_peer0 => ⟨.twinSts, 18, 1, .ro⟩
  | .twinSts_peer1 => ⟨.twinSts, 19, 1, .ro⟩
  | .twinSts_cal_valid => ⟨.twinSts, 20, 1, .ro⟩
  | .twinSts_hb_miss => ⟨.twinSts, 21, 2, .ro⟩
  | .twinSts_took_over => ⟨.twinSts, 23, 1, .w1c⟩
  | .twinSts_demoted => ⟨.twinSts, 24, 1, .w1c⟩
  | .twinSts_cfg_match => ⟨.twinSts, 25, 1, .ro⟩
  | .twinOffset_theta => ⟨.twinOffset, 0, 32, .ro⟩
  | .twinCntHbmiss_hbmiss => ⟨.twinCntHbmiss, 0, 32, .ro⟩
  | .twinCntMdrop_mdrop => ⟨.twinCntMdrop, 0, 32, .ro⟩
  | .twinCntDiverge_diverge => ⟨.twinCntDiverge, 0, 32, .ro⟩
  | .twinCntSat_sat => ⟨.twinCntSat, 0, 3, .ro⟩
  | .twinCntClr_clr => ⟨.twinCntClr, 0, 1, .wo⟩
  | .modeReq_grid => ⟨.modeReq, 0, 2, .rws⟩
  | .modeReq_flow => ⟨.modeReq, 2, 2, .rws⟩
  | .modeReq_svc => ⟨.modeReq, 4, 2, .rws⟩
  | .modeReq_rt_en => ⟨.modeReq, 6, 1, .rws⟩
  | .modeLvgCfg_lv => ⟨.modeLvgCfg, 0, 1, .rws⟩
  | .modeLvgCfg_leader => ⟨.modeLvgCfg, 4, 4, .rws⟩
  | .modeLvgCfg_br_mask => ⟨.modeLvgCfg, 16, 12, .rws⟩
  | .modeLimCfg0_p_max => ⟨.modeLimCfg0, 0, 16, .rws⟩
  | .modeLimCfg0_i_max => ⟨.modeLimCfg0, 16, 16, .rws⟩
  | .modeLimCfg1_i_float => ⟨.modeLimCfg1, 0, 16, .rws⟩
  | .modeLimCfg1_c_max => ⟨.modeLimCfg1, 16, 16, .rws⟩
  | .modeLimCfg2_lim_slew => ⟨.modeLimCfg2, 0, 16, .rws⟩
  | .modeLimCfg2_t_rd => ⟨.modeLimCfg2, 16, 16, .rws⟩
  | .modePrechgCfg_v_min => ⟨.modePrechgCfg, 0, 16, .rws⟩
  | .modePrechgCfg_t_pre => ⟨.modePrechgCfg, 16, 16, .rws⟩
  | .modeBsCfg_v_dead => ⟨.modeBsCfg, 0, 16, .rws⟩
  | .modeBsCfg_v_ok => ⟨.modeBsCfg, 16, 16, .rws⟩
  | .modeRtSrc_pa => ⟨.modeRtSrc, 0, 20, .rws⟩
  | .modeRtCfg0_v_lo => ⟨.modeRtCfg0, 0, 16, .rws⟩
  | .modeRtCfg0_v_hi => ⟨.modeRtCfg0, 16, 16, .rws⟩
  | .modeRtCfg1_f_dev => ⟨.modeRtCfg1, 0, 16, .rws⟩
  | .modeRtCfg1_n_in => ⟨.modeRtCfg1, 16, 8, .rws⟩
  | .modeRtCfg1_hyst => ⟨.modeRtCfg1, 24, 8, .rws⟩
  | .modeRtCfg2_t_exit => ⟨.modeRtCfg2, 0, 16, .rws⟩
  | .modeRtCfg2_t_max => ⟨.modeRtCfg2, 16, 16, .rws⟩
  | .modeTestCfg_branches => ⟨.modeTestCfg, 0, 12, .rws⟩
  | .modeCtl_commit => ⟨.modeCtl, 0, 1, .wo⟩
  | .modeCtl_start => ⟨.modeCtl, 1, 1, .wo⟩
  | .modeCtl_stop => ⟨.modeCtl, 2, 1, .wo⟩
  | .modeCtl_restart => ⟨.modeCtl, 16, 12, .wo⟩
  | .modeSts_conv => ⟨.modeSts, 0, 3, .ro⟩
  | .modeSts_formed => ⟨.modeSts, 3, 1, .ro⟩
  | .modeSts_rt => ⟨.modeSts, 4, 1, .ro⟩
  | .modeSts_deferred => ⟨.modeSts, 5, 1, .ro⟩
  | .modeSts_pending => ⟨.modeSts, 6, 1, .ro⟩
  | .modeSts_refused => ⟨.modeSts, 7, 1, .w1c⟩
  | .modeSts_refuse_code => ⟨.modeSts, 8, 3, .ro⟩
  | .modeSts_start_refused => ⟨.modeSts, 11, 1, .w1c⟩
  | .modeSts_armed => ⟨.modeSts, 12, 12, .ro⟩
  | .modeEff_eff => ⟨.modeEff, 0, 23, .ro⟩
  | .modeLvEff_lv => ⟨.modeLvEff, 0, 12, .ro⟩
  | .affCfg_policy => ⟨.affCfg, 0, 2, .rws⟩
  | .affCfg_epoch_h => ⟨.affCfg, 2, 5, .rws⟩
  | .affCfg_gamma => ⟨.affCfg, 7, 3, .rws⟩
  | .affCfg_rf_hyst => ⟨.affCfg, 10, 4, .rws⟩
  | .affCfg_kf_exp => ⟨.affCfg, 14, 4, .rws⟩
  | .affCfg_cap_hour => ⟨.affCfg, 18, 5, .rws⟩
  | .affCfg_refused => ⟨.affCfg, 23, 1, .w1c⟩
  | .affLimCfg0_d_max => ⟨.affLimCfg0, 0, 16, .rws⟩
  | .affLimCfg0_w_hyst => ⟨.affLimCfg0, 16, 16, .rws⟩
  | .affLimCfg1_tj_lim => ⟨.affLimCfg1, 0, 16, .rws⟩
  | .affLimCfg1_ilim_min => ⟨.affLimCfg1, 16, 16, .rws⟩
  | .affLimCfg2_fo_up => ⟨.affLimCfg2, 0, 16, .rws⟩
  | .affLimCfg2_fo_dn => ⟨.affLimCfg2, 16, 16, .rws⟩
  | .affLimCfg3_cap_min => ⟨.affLimCfg3, 0, 16, .rws⟩
  | .affLimCfg3_esr_max => ⟨.affLimCfg3, 16, 8, .rws⟩
  | .affHorizonLo_hz_lo => ⟨.affHorizonLo, 0, 32, .rwu⟩
  | .affHorizonHi_hz_hi => ⟨.affHorizonHi, 0, 16, .rwu⟩
  | .affUcoef_gain => ⟨.affUcoef, 0, 16, .rwu⟩
  | .affCtl_accept => ⟨.affCtl, 0, 1, .wo⟩
  | .affCtl_reject => ⟨.affCtl, 1, 1, .wo⟩
  | .affCtl_epoch_now => ⟨.affCtl, 2, 1, .wo⟩
  | .affSts_busy => ⟨.affSts, 0, 1, .ro⟩
  | .affSts_proposed => ⟨.affSts, 1, 1, .ro⟩
  | .affSts_deferred => ⟨.affSts, 2, 1, .ro⟩
  | .affSts_plan_late => ⟨.affSts, 3, 1, .w1c⟩
  | .affSts_at_risk => ⟨.affSts, 16, 16, .ro⟩
  | .affPlanSeq_seq => ⟨.affPlanSeq, 0, 32, .ro⟩
  | .affDieCfg_margin_tgt => ⟨.affDieCfg, 0, 8, .rws⟩
  | .affDieCfg_fbb_max => ⟨.affDieCfg, 8, 4, .rws⟩
  | .affDieCfg_die_en => ⟨.affDieCfg, 12, 1, .rws⟩
  | .affDieCfg_pmbus_addr => ⟨.affDieCfg, 13, 7, .rws⟩
  | .affDieSts_margin_min => ⟨.affDieSts, 0, 8, .ro⟩
  | .affDieSts_v_code => ⟨.affDieSts, 8, 5, .ro⟩
  | .affDieSts_fbb => ⟨.affDieSts, 13, 4, .ro⟩
  | .affDieSts_worst_mon => ⟨.affDieSts, 17, 6, .ro⟩
  | .affDieSts_pmbus_fail => ⟨.affDieSts, 23, 1, .ro⟩
  | .affDieEolLo_eol_lo => ⟨.affDieEolLo, 0, 32, .ro⟩
  | .affDieEolHi_eol_hi => ⟨.affDieEolHi, 0, 16, .ro⟩
  | .rindCfg_inj_en => ⟨.rindCfg, 0, 1, .rw⟩
  | .rindCfg_trip_hold => ⟨.rindCfg, 16, 16, .rws⟩
  | .rindSts_lockout => ⟨.rindSts, 0, 1, .ro⟩
  | .rindSts_trip_n => ⟨.rindSts, 1, 1, .ro⟩
  | .rindSts_safe_n => ⟨.rindSts, 2, 1, .ro⟩
  | .rindSts_standing => ⟨.rindSts, 3, 3, .ro⟩
  | .rindSts_refused => ⟨.rindSts, 6, 1, .w1c⟩
  | .rindSts_clr_refused => ⟨.rindSts, 7, 1, .w1c⟩
  | .rindFirst_index => ⟨.rindFirst, 0, 15, .ro⟩
  | .rindFirst_class => ⟨.rindFirst, 15, 3, .ro⟩
  | .rindFirst_valid => ⟨.rindFirst, 18, 1, .ro⟩
  | .rindLockRec_index => ⟨.rindLockRec, 0, 15, .ro⟩
  | .rindLockRec_k_lo => ⟨.rindLockRec, 15, 17, .ro⟩
  | .rindIntSts_cls => ⟨.rindIntSts, 1, 4, .w1c⟩
  | .rindIntSts_mask => ⟨.rindIntSts, 9, 4, .rw⟩
  | .rindSticky_sticky => ⟨.rindSticky, 0, 32, .w1c⟩
  | .rindLive_live => ⟨.rindLive, 0, 32, .ro⟩
  | .rindForce_force => ⟨.rindForce, 0, 32, .rw⟩
  | .rindCls_cls0 => ⟨.rindCls, 0, 3, .rws⟩
  | .rindCls_cls1 => ⟨.rindCls, 4, 3, .rws⟩
  | .rindCls_cls2 => ⟨.rindCls, 8, 3, .rws⟩
  | .rindCls_cls3 => ⟨.rindCls, 12, 3, .rws⟩
  | .rindCls_cls4 => ⟨.rindCls, 16, 3, .rws⟩
  | .rindCls_cls5 => ⟨.rindCls, 20, 3, .rws⟩
  | .rindCls_cls6 => ⟨.rindCls, 24, 3, .rws⟩
  | .rindCls_cls7 => ⟨.rindCls, 28, 3, .rws⟩
  | .rindCellCls_cls0 => ⟨.rindCellCls, 0, 3, .rws⟩
  | .rindCellCls_cls1 => ⟨.rindCellCls, 4, 3, .rws⟩
  | .rindCellCls_cls2 => ⟨.rindCellCls, 8, 3, .rws⟩
  | .rindCellCls_cls3 => ⟨.rindCellCls, 12, 3, .rws⟩
  | .rindCellCls_cls4 => ⟨.rindCellCls, 16, 3, .rws⟩
  | .rindCellCls_cls5 => ⟨.rindCellCls, 20, 3, .rws⟩
  | .rindCellCls_cls6 => ⟨.rindCellCls, 24, 3, .rws⟩
  | .rindCellCls_cls7 => ⟨.rindCellCls, 28, 3, .rws⟩
  | .rindCellAny_any => ⟨.rindCellAny, 0, 32, .ro⟩
  | .rindCellLim0_ov => ⟨.rindCellLim0, 0, 16, .rws⟩
  | .rindCellLim0_uv => ⟨.rindCellLim0, 16, 16, .rws⟩
  | .rindCellLim1_oc => ⟨.rindCellLim1, 0, 16, .rws⟩
  | .rindCellLim1_ot => ⟨.rindCellLim1, 16, 16, .rws⟩
  | .rindSdLim1_lo1 => ⟨.rindSdLim1, 0, 16, .rws⟩
  | .rindSdLim1_hi1 => ⟨.rindSdLim1, 16, 16, .rws⟩
  | .rindSdLim2_lo2 => ⟨.rindSdLim2, 0, 16, .rws⟩
  | .rindSdLim2_hi2 => ⟨.rindSdLim2, 16, 16, .rws⟩
  | .rindExtCfg_en => ⟨.rindExtCfg, 0, 16, .rws⟩
  | .rindExtCfg_pol => ⟨.rindExtCfg, 16, 16, .rws⟩
  | .rindHostwdCfg_period => ⟨.rindHostwdCfg, 0, 16, .rw⟩
  | .rindHostwdKick_kick => ⟨.rindHostwdKick, 0, 8, .wo⟩
  | .cellarCfg_diode_en => ⟨.cellarCfg, 0, 4, .rws⟩
  | .cellarCfg_refused => ⟨.cellarCfg, 4, 1, .w1c⟩
  | .cellarSts_t_c => ⟨.cellarSts, 0, 16, .ro⟩
  | .cellarSts_hot_node => ⟨.cellarSts, 16, 4, .ro⟩
  | .cellarSts_state => ⟨.cellarSts, 20, 2, .ro⟩
  | .cellarSts_diode_ok => ⟨.cellarSts, 22, 4, .ro⟩
  | .cellarSts_mismatch => ⟨.cellarSts, 26, 1, .ro⟩
  | .cellarSts_sd_latch => ⟨.cellarSts, 27, 1, .w1c⟩
  | .cellarSts_clk_fb => ⟨.cellarSts, 28, 1, .ro⟩
  | .cellarNode_temp => ⟨.cellarNode, 0, 16, .ro⟩
  | .cellarNode_power => ⟨.cellarNode, 16, 16, .ro⟩
  | .cellarDiode_reading => ⟨.cellarDiode, 0, 16, .ro⟩
  | .cellarDiode_model => ⟨.cellarDiode, 16, 16, .ro⟩
  | .cellarBase_t_base => ⟨.cellarBase, 0, 16, .ro⟩
  | .cellarPeak_peak => ⟨.cellarPeak, 0, 16, .ro⟩
  | .cellarPeak_clr => ⟨.cellarPeak, 31, 1, .wo⟩
  | .cellarSdRec_temp => ⟨.cellarSdRec, 0, 16, .ro⟩
  | .cellarSdRec_where => ⟨.cellarSdRec, 16, 4, .ro⟩
  | .cellarSdRec_diode => ⟨.cellarSdRec, 20, 1, .ro⟩
  | .cellarSdRec_count => ⟨.cellarSdRec, 21, 11, .ro⟩
  | .cellarSdTimeLo_s_lo => ⟨.cellarSdTimeLo, 0, 32, .ro⟩
  | .cellarSdTimeHi_s_hi => ⟨.cellarSdTimeHi, 0, 16, .ro⟩
  | .cmdQCfg_enable => ⟨.cmdQCfg, 0, 1, .rw⟩
  | .cmdQCfg_transport => ⟨.cmdQCfg, 1, 2, .rw⟩
  | .cmdQCfg_int_en => ⟨.cmdQCfg, 3, 1, .rw⟩
  | .cmdQCfg_size => ⟨.cmdQCfg, 4, 13, .rw⟩
  | .cmdSqBaseLo_sq_lo => ⟨.cmdSqBaseLo, 0, 32, .rw⟩
  | .cmdSqBaseHi_sq_hi => ⟨.cmdSqBaseHi, 0, 32, .rw⟩
  | .cmdCqBaseLo_cq_lo => ⟨.cmdCqBaseLo, 0, 32, .rw⟩
  | .cmdCqBaseHi_cq_hi => ⟨.cmdCqBaseHi, 0, 32, .rw⟩
  | .cmdSqTail_tail => ⟨.cmdSqTail, 0, 12, .rw⟩
  | .cmdCqHead_head => ⟨.cmdCqHead, 0, 12, .rw⟩
  | .cmdQSts_state => ⟨.cmdQSts, 0, 2, .ro⟩
  | .cmdQSts_sq_head => ⟨.cmdQSts, 2, 12, .ro⟩
  | .cmdQSts_cq_tail => ⟨.cmdQSts, 14, 12, .ro⟩
  | .cmdQSts_busy => ⟨.cmdQSts, 26, 1, .ro⟩
  | .cmdQSts_err => ⟨.cmdQSts, 27, 3, .ro⟩
  | .cmdQDrop_drops => ⟨.cmdQDrop, 0, 32, .ro⟩
  | .cmdEvCfg_enable => ⟨.cmdEvCfg, 0, 1, .rw⟩
  | .cmdEvCfg_udp => ⟨.cmdEvCfg, 1, 1, .rw⟩
  | .cmdEvCfg_q => ⟨.cmdEvCfg, 2, 5, .rw⟩
  | .cmdEvCfg_size => ⟨.cmdEvCfg, 7, 13, .rw⟩
  | .cmdEvCfg_types => ⟨.cmdEvCfg, 20, 8, .rw⟩
  | .cmdEvBaseLo_base => ⟨.cmdEvBaseLo, 0, 32, .rw⟩
  | .cmdEvBaseHi_base => ⟨.cmdEvBaseHi, 0, 32, .rw⟩
  | .cmdEvHead_head => ⟨.cmdEvHead, 0, 12, .rw⟩
  | .cmdEvSts_tail => ⟨.cmdEvSts, 0, 12, .ro⟩
  | .cmdEvSts_dropped => ⟨.cmdEvSts, 12, 20, .ro⟩
  | .cmdLockCfg_hold_ms => ⟨.cmdLockCfg, 0, 16, .rw⟩
  | .cmdSts_bar_refused => ⟨.cmdSts, 0, 1, .w1c⟩
  | .cmdSts_q_error => ⟨.cmdSts, 1, 1, .w1c⟩
  | .cmdSts_lock_broken => ⟨.cmdSts, 2, 1, .w1c⟩
  | .cmdSts_restarted => ⟨.cmdSts, 3, 1, .w1c⟩
  | .cmdSts_locks => ⟨.cmdSts, 4, 7, .ro⟩
  | .cmdIntPendLo_pend => ⟨.cmdIntPendLo, 0, 32, .ro⟩
  | .cmdIntPendHi_pend => ⟨.cmdIntPendHi, 0, 10, .ro⟩
  | .cmdIntEnLo_en => ⟨.cmdIntEnLo, 0, 32, .rw⟩
  | .cmdIntEnHi_en => ⟨.cmdIntEnHi, 0, 10, .rw⟩
  | .cmdUdpCfg_port => ⟨.cmdUdpCfg, 0, 16, .rws⟩
  | .cmdUdpCfg_en_p0 => ⟨.cmdUdpCfg, 16, 1, .rws⟩
  | .cmdUdpCfg_en_p1 => ⟨.cmdUdpCfg, 17, 1, .rws⟩
  | .cmdUdpCfg_jumbo => ⟨.cmdUdpCfg, 18, 1, .rws⟩
  | .cmdUdpCfg_vlan => ⟨.cmdUdpCfg, 19, 12, .rws⟩
  | .cmdUdpCfg_vlan_en => ⟨.cmdUdpCfg, 31, 1, .rws⟩
  | .cmdEthIp_ip => ⟨.cmdEthIp, 0, 32, .rwu⟩
  | .cmdEthMacLo_mac_lo => ⟨.cmdEthMacLo, 0, 32, .rof⟩
  | .cmdEthMacHi_mac_hi => ⟨.cmdEthMacHi, 0, 16, .rof⟩
  | .cmdUdpPeer_peer => ⟨.cmdUdpPeer, 0, 32, .rw⟩
  | .cmdSpiCfg_queue => ⟨.cmdSpiCfg, 0, 5, .rws⟩
  | .cmdSpiCfg_enable => ⟨.cmdSpiCfg, 5, 1, .rws⟩
  | .vatMap_req => ⟨.vatMap, 0, 4, .rws⟩
  | .vatCtl_commit => ⟨.vatCtl, 0, 1, .wo⟩
  | .vatCtl_map_refused => ⟨.vatCtl, 1, 1, .w1c⟩
  | .vatCtl_snap_skip => ⟨.vatCtl, 2, 1, .w1c⟩
  | .vatSts_starve => ⟨.vatSts, 0, 16, .w1c⟩
  | .vatCntClr_clr => ⟨.vatCntClr, 0, 2, .wo⟩
  | .vatLoss_loss => ⟨.vatLoss, 0, 16, .ro⟩
  | .vatLoss_wait_max => ⟨.vatLoss, 16, 16, .ro⟩
  | .vatGrant_grants => ⟨.vatGrant, 0, 32, .ro⟩
  | .caveTrcCfg_trig_cls => ⟨.caveTrcCfg, 0, 3, .rw⟩
  | .caveTrcSts_state => ⟨.caveTrcSts, 0, 2, .ro⟩
  | .caveTrcSts_src => ⟨.caveTrcSts, 2, 3, .ro⟩
  | .caveTrcSts_sel_pending => ⟨.caveTrcSts, 5, 1, .ro⟩
  | .caveTrcSts_armed => ⟨.caveTrcSts, 6, 1, .ro⟩
  | .caveTrcSts_ignored => ⟨.caveTrcSts, 16, 16, .ro⟩
  | .caveTrcDepth_depth => ⟨.caveTrcDepth, 0, 21, .ro⟩
  | .caveLogNew_newest => ⟨.caveLogNew, 0, 32, .ro⟩
  | .caveLogAck_ack => ⟨.caveLogAck, 0, 32, .rw⟩
  | .caveLogOvr_ovr => ⟨.caveLogOvr, 0, 32, .ro⟩
  | .caveLogLost_lost => ⟨.caveLogLost, 0, 32, .ro⟩
  | .caveEccSts_sbe => ⟨.caveEccSts, 0, 16, .ro⟩
  | .caveEccSts_sbe_ovf => ⟨.caveEccSts, 16, 1, .w1c⟩
  | .caveDbeAddr_addr => ⟨.caveDbeAddr, 0, 28, .ro⟩
  | .cavePersCfg_hour => ⟨.cavePersCfg, 0, 5, .rw⟩
  | .cavePersSts_busy => ⟨.cavePersSts, 0, 1, .ro⟩
  | .cavePersSts_copy => ⟨.cavePersSts, 1, 1, .ro⟩
  | .cavePersSts_fail => ⟨.cavePersSts, 2, 1, .w1c⟩
  | .cavePersSts_days => ⟨.cavePersSts, 16, 16, .ro⟩
  | .strCfg_ref_sel => ⟨.strCfg, 0, 1, .rws⟩
  | .strCfg_auto_sw => ⟨.strCfg, 1, 1, .rws⟩
  | .strCfg_ref_en => ⟨.strCfg, 2, 2, .rws⟩
  | .strCfg_lref_en => ⟨.strCfg, 4, 3, .rws⟩
  | .strCtl_relock => ⟨.strCtl, 0, 1, .rws⟩
  | .strBand_valid => ⟨.strBand, 0, 1, .rws⟩
  | .strBand_band => ⟨.strBand, 1, 6, .rws⟩
  | .strBand_t_max => ⟨.strBand, 7, 8, .rws⟩
  | .strSts_locked => ⟨.strSts, 0, 1, .ro⟩
  | .strSts_on_safe => ⟨.strSts, 1, 1, .ro⟩
  | .strSts_relocking => ⟨.strSts, 2, 1, .ro⟩
  | .strSts_relock_fail => ⟨.strSts, 3, 1, .w1c⟩
  | .strSts_follow_lim => ⟨.strSts, 4, 1, .w1c⟩
  | .strSts_refused => ⟨.strSts, 5, 1, .w1c⟩
  | .strSts_refuse_code => ⟨.strSts, 6, 2, .ro⟩
  | .strSts_band => ⟨.strSts, 8, 6, .ro⟩
  | .strSts_entry => ⟨.strSts, 14, 4, .ro⟩
  | .strSts_ref_in_use => ⟨.strSts, 18, 1, .ro⟩
  | .strSts_vtune_warn => ⟨.strSts, 19, 1, .ro⟩
  | .strSts_sync_missed => ⟨.strSts, 20, 1, .w1c⟩
  | .strNw_nw => ⟨.strNw, 0, 32, .ro⟩
  | .strNwLock_nw_lock => ⟨.strNwLock, 0, 32, .ro⟩
  | .strClkoutCfg_fmt => ⟨.strClkoutCfg, 0, 2, .rws⟩
  | .strClkoutCfg_src => ⟨.strClkoutCfg, 2, 2, .rws⟩
  | .strClkoutCfg_div_m1 => ⟨.strClkoutCfg, 4, 12, .rws⟩
  | .strClkoutCfg_sync_en => ⟨.strClkoutCfg, 16, 1, .rws⟩
  | .stuTimeSLo_s_lo => ⟨.stuTimeSLo, 0, 32, .ro⟩
  | .stuTimeSHi_s_hi => ⟨.stuTimeSHi, 0, 16, .ro⟩
  | .stuTimeNs_ns => ⟨.stuTimeNs, 0, 30, .ro⟩
  | .stuTimeNs_q => ⟨.stuTimeNs, 30, 2, .ro⟩
  | .stuRate_y => ⟨.stuRate, 0, 32, .ro⟩
  | .stuOffset_o => ⟨.stuOffset, 0, 32, .ro⟩
  | .stuPtpDly_dly => ⟨.stuPtpDly, 0, 32, .ro⟩
  | .stuPtpCfg_enable => ⟨.stuPtpCfg, 0, 1, .rws⟩
  | .stuPtpCfg_profile => ⟨.stuPtpCfg, 1, 1, .rws⟩
  | .stuPtpCfg_port_en => ⟨.stuPtpCfg, 2, 2, .rws⟩
  | .stuPtpCfg_domain => ⟨.stuPtpCfg, 4, 8, .rws⟩
  | .stuPtpCfg_ann_to => ⟨.stuPtpCfg, 12, 4, .rws⟩
  | .stuPtpCfg_kp_sh => ⟨.stuPtpCfg, 16, 4, .rws⟩
  | .stuPtpCfg_ki_sh => ⟨.stuPtpCfg, 20, 4, .rws⟩
  | .stuServoCfg0_step_thr => ⟨.stuServoCfg0, 0, 16, .rws⟩
  | .stuServoCfg0_lock_thr => ⟨.stuServoCfg0, 16, 16, .rws⟩
  | .stuServoCfg1_off_alarm => ⟨.stuServoCfg1, 0, 16, .rws⟩
  | .stuServoCfg1_dly_gate => ⟨.stuServoCfg1, 16, 12, .rws⟩
  | .stuLatTrim_rx => ⟨.stuLatTrim, 0, 16, .rwu⟩
  | .stuLatTrim_tx => ⟨.stuLatTrim, 16, 16, .rwu⟩
  | .stuPtpSts_quality => ⟨.stuPtpSts, 0, 3, .ro⟩
  | .stuPtpSts_port => ⟨.stuPtpSts, 3, 2, .ro⟩
  | .stuPtpSts_frame_peer => ⟨.stuPtpSts, 5, 1, .ro⟩
  | .stuPtpSts_utc_offset => ⟨.stuPtpSts, 6, 16, .ro⟩
  | .stuPtpSts_utc_valid => ⟨.stuPtpSts, 22, 1, .ro⟩
  | .stuPtpSts_unstamped => ⟨.stuPtpSts, 23, 9, .ro⟩
  | .stuTpCfg_enable => ⟨.stuTpCfg, 0, 1, .rw⟩
  | .stuTpCfg_pol => ⟨.stuTpCfg, 1, 1, .rw⟩
  | .stuTpCfg_arm => ⟨.stuTpCfg, 2, 1, .wo⟩
  | .stuTpCfg_pending => ⟨.stuTpCfg, 3, 1, .ro⟩
  | .stuTpCfg_refused => ⟨.stuTpCfg, 4, 1, .w1c⟩
  | .stuTpStartSLo_start_s => ⟨.stuTpStartSLo, 0, 32, .rw⟩
  | .stuTpStartSHi_start_s_hi => ⟨.stuTpStartSHi, 0, 16, .rw⟩
  | .stuTpStartNs_start_ns => ⟨.stuTpStartNs, 0, 30, .rw⟩
  | .stuTpPeriod_period => ⟨.stuTpPeriod, 0, 32, .rw⟩
  | .stuTpWidth_width => ⟨.stuTpWidth, 0, 32, .rw⟩
  | .stuCapCfg_enable => ⟨.stuCapCfg, 0, 1, .rw⟩
  | .stuCapCfg_edge => ⟨.stuCapCfg, 1, 1, .rw⟩
  | .stuCapCfg_filt => ⟨.stuCapCfg, 2, 8, .rw⟩
  | .stuCapCfg_ovr => ⟨.stuCapCfg, 10, 1, .w1c⟩
  | .stuCapSLo_s_lo => ⟨.stuCapSLo, 0, 32, .ro⟩
  | .stuCapSHi_s_hi => ⟨.stuCapSHi, 0, 16, .ro⟩
  | .stuCapSHi_count => ⟨.stuCapSHi, 16, 16, .ro⟩
  | .stuCapNs_ns => ⟨.stuCapNs, 0, 30, .ro⟩
  | .stuCapNs_q => ⟨.stuCapNs, 30, 2, .ro⟩
  | .pwrCfg_osc_en => ⟨.pwrCfg, 0, 1, .rw⟩
  | .pwrCfg_osc_gpio => ⟨.pwrCfg, 1, 4, .rw⟩
  | .pwrCfg_osc_pol => ⟨.pwrCfg, 5, 1, .rw⟩
  | .pwrWakeCfg_wake_n_en => ⟨.pwrWakeCfg, 0, 1, .rw⟩
  | .pwrWakeCfg_pcie_en => ⟨.pwrWakeCfg, 1, 1, .rw⟩
  | .pwrWakeCfg_eth_en => ⟨.pwrWakeCfg, 2, 2, .rw⟩
  | .pwrWakeCfg_trip_mask => ⟨.pwrWakeCfg, 4, 12, .rw⟩
  | .pwrWakeKey_key => ⟨.pwrWakeKey, 0, 32, .rwu⟩
  | .pwrSts_state => ⟨.pwrSts, 0, 2, .ro⟩
  | .pwrSts_entering => ⟨.pwrSts, 2, 1, .ro⟩
  | .pwrSts_waking => ⟨.pwrSts, 3, 1, .ro⟩
  | .pwrSts_last_src => ⟨.pwrSts, 4, 8, .ro⟩
  | .pwrWaxSts_wake_fail => ⟨.pwrWaxSts, 0, 1, .w1c⟩
  | .pwrWaxSts_alert => ⟨.pwrWaxSts, 1, 1, .ro⟩
  | .pwrWaxSts_cellar_hold => ⟨.pwrWaxSts, 2, 1, .w1c⟩
  | .pwrWaxSts_rail_uv => ⟨.pwrWaxSts, 3, 9, .w1c⟩
  | .pwrWaxSts_cave_lost => ⟨.pwrWaxSts, 12, 1, .w1c⟩
  | .pwrWaxSts_ret_lost => ⟨.pwrWaxSts, 13, 1, .w1c⟩
  | .pwrWaxSts_src_mask => ⟨.pwrWaxSts, 14, 6, .ro⟩
  | .pwrWaxSts_attempts => ⟨.pwrWaxSts, 20, 2, .ro⟩
  | .pwrWaxCal_f_w => ⟨.pwrWaxCal, 0, 32, .ro⟩
  | .pwrWaxCntLo_n_lo => ⟨.pwrWaxCntLo, 0, 32, .ro⟩
  | .pwrWaxCntHi_n_hi => ⟨.pwrWaxCntHi, 0, 8, .ro⟩
  | .pwrAlarmLo_alarm_lo => ⟨.pwrAlarmLo, 0, 32, .ro⟩
  | .pwrAlarmHi_alarm_hi => ⟨.pwrAlarmHi, 0, 8, .ro⟩
  | .pwrRailSts_uv => ⟨.pwrRailSts, 0, 9, .ro⟩
  | .pwrRailSts_ov => ⟨.pwrRailSts, 16, 9, .ro⟩
  | .sysId_cell_capacity => ⟨.sysId, 0, 10, .rof⟩
  | .sysId_grade => ⟨.sysId, 10, 2, .rof⟩
  | .sysId_die_step => ⟨.sysId, 12, 8, .rof⟩
  | .sysId_rom_ver => ⟨.sysId, 20, 8, .rof⟩
  | .sysStrap_raw => ⟨.sysStrap, 0, 12, .ro⟩
  | .sysBootSts_stage => ⟨.sysBootSts, 0, 4, .ro⟩
  | .sysBootSts_ready => ⟨.sysBootSts, 4, 1, .ro⟩
  | .sysBootSts_slot => ⟨.sysBootSts, 5, 1, .ro⟩
  | .sysBootSts_fallback => ⟨.sysBootSts, 6, 1, .ro⟩
  | .sysBootSts_cfg_loaded => ⟨.sysBootSts, 7, 1, .ro⟩
  | .sysBootSts_map_loaded => ⟨.sysBootSts, 8, 1, .ro⟩
  | .sysBootSts_rwu_loaded => ⟨.sysBootSts, 9, 1, .ro⟩
  | .sysBootSts_hb_starts => ⟨.sysBootSts, 10, 2, .ro⟩
  | .sysBootSts_ready_ms => ⟨.sysBootSts, 16, 16, .ro⟩
  | .sysBootCtl_go => ⟨.sysBootCtl, 0, 1, .wo⟩
  | .sysRstSts_por => ⟨.sysRstSts, 0, 1, .w1c⟩
  | .sysRstSts_porst => ⟨.sysRstSts, 1, 1, .w1c⟩
  | .sysRstSts_rst_pin => ⟨.sysRstSts, 2, 1, .w1c⟩
  | .sysRstSts_cmd => ⟨.sysRstSts, 3, 1, .w1c⟩
  | .sysRstSts_cellar => ⟨.sysRstSts, 4, 1, .w1c⟩
  | .sysRstSts_ret_lost => ⟨.sysRstSts, 5, 1, .w1c⟩
  | .sysCommit_commit => ⟨.sysCommit, 1, 13, .wo⟩
  | .sysCfgPending_pending => ⟨.sysCfgPending, 1, 13, .ro⟩
  | .sysCommitSts_applying => ⟨.sysCommitSts, 1, 13, .ro⟩
  | .sysCommitSts_refused => ⟨.sysCommitSts, 17, 13, .w1c⟩
  | .sysErr_partial => ⟨.sysErr, 0, 1, .w1c⟩
  | .sysErr_boot_win => ⟨.sysErr, 1, 1, .w1c⟩
  | .msixAddrLo_addr => ⟨.msixAddrLo, 0, 32, .rw⟩
  | .msixAddrHi_addr => ⟨.msixAddrHi, 0, 32, .rw⟩
  | .msixData_data => ⟨.msixData, 0, 32, .rw⟩
  | .msixCtrl_mask => ⟨.msixCtrl, 0, 1, .rw⟩
  | .msixPba_pba => ⟨.msixPba, 0, 32, .ro⟩

/-- The fields of a register, lowest first as its table lists them. -/
def RegName.fields : RegName → List Fld
    | .sysId => [.sysId_cell_capacity, .sysId_grade, .sysId_die_step, .sysId_rom_ver]
    | .sysStrap => [.sysStrap_raw]
    | .sysBootSts => [.sysBootSts_stage, .sysBootSts_ready, .sysBootSts_slot, .sysBootSts_fallback,
      .sysBootSts_cfg_loaded, .sysBootSts_map_loaded, .sysBootSts_rwu_loaded, .sysBootSts_hb_starts,
      .sysBootSts_ready_ms]
    | .sysBootCtl => [.sysBootCtl_go]
    | .sysRstSts => [.sysRstSts_por, .sysRstSts_porst, .sysRstSts_rst_pin, .sysRstSts_cmd, .sysRstSts_cellar,
      .sysRstSts_ret_lost]
    | .sysCommit => [.sysCommit_commit]
    | .sysCfgPending => [.sysCfgPending_pending]
    | .sysCommitSts => [.sysCommitSts_applying, .sysCommitSts_refused]
    | .sysErr => [.sysErr_partial, .sysErr_boot_win]
    | .stuFrmCfg => [.stuFrmCfg_frame_len, .stuFrmCfg_hop_bound]
    | .stuFrmSts => [.stuFrmSts_t_snap, .stuFrmSts_h_max, .stuFrmSts_relay_active, .stuFrmSts_budget_fail,
      .stuFrmSts_len_pending, .stuFrmSts_len_refused]
    | .stuFrmArr => [.stuFrmArr_worst_arrival, .stuFrmArr_late_tails]
    | .stuFrmCntLo => [.stuFrmCntLo_cnt_lo]
    | .stuFrmCntHi => [.stuFrmCntHi_cnt_hi]
    | .stuFrmEpochS => [.stuFrmEpochS_epoch_s_lo]
    | .stuFrmEpochNs => [.stuFrmEpochNs_epoch_s_hi, .stuFrmEpochNs_epoch_ns_hi]
    | .stuFrmEpochNsl => [.stuFrmEpochNsl_epoch_ns_lo]
    | .stuFrmPhase => [.stuFrmPhase_phase_err]
    | .stuTimeSLo => [.stuTimeSLo_s_lo]
    | .stuTimeSHi => [.stuTimeSHi_s_hi]
    | .stuTimeNs => [.stuTimeNs_ns, .stuTimeNs_q]
    | .stuRate => [.stuRate_y]
    | .stuOffset => [.stuOffset_o]
    | .stuPtpDly => [.stuPtpDly_dly]
    | .stuPtpCfg => [.stuPtpCfg_enable, .stuPtpCfg_profile, .stuPtpCfg_port_en, .stuPtpCfg_domain,
      .stuPtpCfg_ann_to, .stuPtpCfg_kp_sh, .stuPtpCfg_ki_sh]
    | .stuServoCfg0 => [.stuServoCfg0_step_thr, .stuServoCfg0_lock_thr]
    | .stuServoCfg1 => [.stuServoCfg1_off_alarm, .stuServoCfg1_dly_gate]
    | .stuPtpSts => [.stuPtpSts_quality, .stuPtpSts_port, .stuPtpSts_frame_peer, .stuPtpSts_utc_offset,
      .stuPtpSts_utc_valid, .stuPtpSts_unstamped]
    | .stuLatTrim => [.stuLatTrim_rx, .stuLatTrim_tx]
    | .stuTpCfg => [.stuTpCfg_enable, .stuTpCfg_pol, .stuTpCfg_arm, .stuTpCfg_pending, .stuTpCfg_refused]
    | .stuTpStartSLo => [.stuTpStartSLo_start_s]
    | .stuTpStartSHi => [.stuTpStartSHi_start_s_hi]
    | .stuTpStartNs => [.stuTpStartNs_start_ns]
    | .stuTpPeriod => [.stuTpPeriod_period]
    | .stuTpWidth => [.stuTpWidth_width]
    | .stuCapCfg => [.stuCapCfg_enable, .stuCapCfg_edge, .stuCapCfg_filt, .stuCapCfg_ovr]
    | .stuCapSLo => [.stuCapSLo_s_lo]
    | .stuCapSHi => [.stuCapSHi_s_hi, .stuCapSHi_count]
    | .stuCapNs => [.stuCapNs_ns, .stuCapNs_q]
    | .strCfg => [.strCfg_ref_sel, .strCfg_auto_sw, .strCfg_ref_en, .strCfg_lref_en]
    | .strCtl => [.strCtl_relock]
    | .strSts => [.strSts_locked, .strSts_on_safe, .strSts_relocking, .strSts_relock_fail, .strSts_follow_lim,
      .strSts_refused, .strSts_refuse_code, .strSts_band, .strSts_entry, .strSts_ref_in_use, .strSts_vtune_warn,
      .strSts_sync_missed]
    | .strNw => [.strNw_nw]
    | .strNwLock => [.strNwLock_nw_lock]
    | .strBand => [.strBand_valid, .strBand_band, .strBand_t_max]
    | .strClkoutCfg => [.strClkoutCfg_fmt, .strClkoutCfg_src, .strClkoutCfg_div_m1, .strClkoutCfg_sync_en]
    | .laneCfg => [.laneCfg_coding, .laneCfg_enable, .laneCfg_eq_freeze, .laneCfg_rx_invert, .laneCfg_tx_invert,
      .laneCfg_tx_swing, .laneCfg_tx_pre, .laneCfg_tx_post, .laneCfg_keepalive]
    | .laneSts => [.laneSts_state, .laneSts_lock, .laneSts_coding_active, .laneSts_cfg_refused, .laneSts_sig_det,
      .laneSts_eb_fill, .laneSts_eye_h, .laneSts_eye_w]
    | .laneEq => [.laneEq_ctle, .laneEq_h1, .laneEq_h2, .laneEq_h3, .laneEq_h4, .laneEq_h5]
    | .laneEyeCtl => [.laneEyeCtl_start, .laneEyeCtl_stop, .laneEyeCtl_busy, .laneEyeCtl_continuous,
      .laneEyeCtl_dwell_exp, .laneEyeCtl_map_count]
    | .laneCntHdr => [.laneCntHdr_hdr_err]
    | .laneCntStuff => [.laneCntStuff_stuff]
    | .laneCntFill => [.laneCntFill_fill]
    | .laneCntAbort => [.laneCntAbort_abort]
    | .laneCntLol => [.laneCntLol_lol]
    | .laneCntSat => [.laneCntSat_sat]
    | .laneHlthCfg => [.laneHlthCfg_degr_hdr, .laneHlthCfg_fail_hdr, .laneHlthCfg_eye_h_min,
      .laneHlthCfg_eye_w_min]
    | .laneCntClr => [.laneCntClr_clr]
    | .wlBrCfg => [.wlBrCfg_exp_len, .wlBrCfg_auto_resplit, .wlBrCfg_split_force]
    | .wlBrSts => [.wlBrSts_n_b, .wlBrSts_split, .wlBrSts_topo, .wlBrSts_break_pos, .wlBrSts_disc,
      .wlBrSts_disc_mismatch, .wlBrSts_locked]
    | .wlCntUpbad => [.wlCntUpbad_upbad]
    | .wlCntMiss => [.wlCntMiss_miss]
    | .wlCntBulkto => [.wlCntBulkto_bulkto]
    | .wlCntResplit => [.wlCntResplit_resplit]
    | .wlCntSat => [.wlCntSat_sat]
    | .wlDiscCtl => [.wlDiscCtl_start, .wlDiscCtl_busy]
    | .wlTimeSts => [.wlTimeSts_worst_err, .wlTimeSts_worst_cell, .wlTimeSts_all_locked]
    | .wlCntClr => [.wlCntClr_clr]
    | .curdBase => [.curdBase_base]
    | .curdSdClk => [.curdSdClk_rate, .curdSdClk_enable, .curdSdClk_refused]
    | .curdSdCfg => [.curdSdCfg_clk_sel, .curdSdCfg_osr, .curdSdCfg_enable, .curdSdCfg_edge]
    | .curdPinFilt => [.curdPinFilt_filt]
    | .curdSdSts => [.curdSdSts_stuck]
    | .curdHygSts => [.curdHygSts_stale_pts, .curdHygSts_frozen_pts]
    | .harpProfMv => [.harpProfMv_tc, .harpProfMv_mv_mode, .harpProfMv_pmin]
    | .harpProfDab => [.harpProfDab_dab_n, .harpProfDab_law, .harpProfDab_fo_max]
    | .harpProfSts => [.harpProfSts_refused, .harpProfSts_invalid, .harpProfSts_prof, .harpProfSts_words_max]
    | .harpDtCfg => [.harpDtCfg_dt_min, .harpDtCfg_dt_max]
    | .harpLpPer => [.harpLpPer_period]
    | .harpLpDuty => [.harpLpDuty_on_ticks, .harpLpDuty_on_frac]
    | .harpLpCfg => [.harpLpCfg_enable, .harpLpCfg_centre, .harpLpCfg_pol_a, .harpLpCfg_pol_b, .harpLpCfg_dt,
      .harpLpCfg_grp]
    | .harpLpSts => [.harpLpSts_armed, .harpLpSts_forced_off, .harpLpSts_a_level, .harpLpSts_b_level]
    | .harpTripCfg => [.harpTripCfg_filt, .harpTripCfg_n_trip, .harpTripCfg_enable, .harpTripCfg_pol,
      .harpTripCfg_win]
    | .harpTripBind => [.harpTripBind_pairs]
    | .harpTripSts => [.harpTripSts_latched, .harpTripSts_live, .harpTripSts_clr_refused]
    | .harpCtripCfg => [.harpCtripCfg_filt, .harpCtripCfg_n_trip, .harpCtripCfg_enable, .harpCtripCfg_win]
    | .harpDbgCtl => [.harpDbgCtl_halt, .harpDbgCtl_resume, .harpDbgCtl_halt_off, .harpDbgCtl_halt_park]
    | .harpDbgSts => [.harpDbgSts_halted, .harpDbgSts_permit, .harpDbgSts_refused]
    | .pressCtl => [.pressCtl_bank_commit, .pressCtl_bank_copy, .pressCtl_cfg_commit]
    | .pressSts => [.pressSts_active_bank, .pressSts_swap_pending, .pressSts_copy_busy, .pressSts_cfg_pending,
      .pressSts_cfg_refused, .pressSts_refuse_code, .pressSts_bank_refused]
    | .pressLoadSlot => [.pressLoadSlot_cost, .pressLoadSlot_cost_max]
    | .pressLoadPrep => [.pressLoadPrep_prep]
    | .pressL1Cfg => [.pressL1Cfg_hold]
    | .pressCprof0 => [.pressCprof0_k_bal, .pressCprof0_i_db]
    | .pressCprof1 => [.pressCprof1_kp_dab]
    | .pressCprof2 => [.pressCprof2_ki_dab]
    | .pressCprof3 => [.pressCprof3_k_dab]
    | .pressCprof4 => [.pressCprof4_p_lim, .pressCprof4_kc]
    | .pressCprof5 => [.pressCprof5_kd, .pressCprof5_d_max]
    | .chedBrCfg => [.chedBrCfg_k, .chedBrCfg_rot_n, .chedBrCfg_byp_en]
    | .chedBrSts => [.chedBrSts_n_act, .chedBrSts_spares, .chedBrSts_bypassed, .chedBrSts_rho,
      .chedBrSts_exhausted, .chedBrSts_isolating]
    | .chedCfg => [.chedCfg_dev_max, .chedCfg_hr_n, .chedCfg_refused]
    | .twinCfg => [.twinCfg_enable, .twinCfg_end, .twinCfg_prefer, .twinCfg_role_gpio_en, .twinCfg_role_gpio,
      .twinCfg_swap, .twinCfg_calibrate]
    | .twinSts => [.twinSts_role, .twinSts_epoch, .twinSts_peer0, .twinSts_peer1, .twinSts_cal_valid,
      .twinSts_hb_miss, .twinSts_took_over, .twinSts_demoted, .twinSts_cfg_match]
    | .twinOffset => [.twinOffset_theta]
    | .twinCntHbmiss => [.twinCntHbmiss_hbmiss]
    | .twinCntMdrop => [.twinCntMdrop_mdrop]
    | .twinCntDiverge => [.twinCntDiverge_diverge]
    | .twinCntSat => [.twinCntSat_sat]
    | .twinCntClr => [.twinCntClr_clr]
    | .modeReq => [.modeReq_grid, .modeReq_flow, .modeReq_svc, .modeReq_rt_en]
    | .modeCtl => [.modeCtl_commit, .modeCtl_start, .modeCtl_stop, .modeCtl_restart]
    | .modeSts => [.modeSts_conv, .modeSts_formed, .modeSts_rt, .modeSts_deferred, .modeSts_pending,
      .modeSts_refused, .modeSts_refuse_code, .modeSts_start_refused, .modeSts_armed]
    | .modeEff => [.modeEff_eff]
    | .modeLvEff => [.modeLvEff_lv]
    | .modeLimCfg0 => [.modeLimCfg0_p_max, .modeLimCfg0_i_max]
    | .modeLimCfg1 => [.modeLimCfg1_i_float, .modeLimCfg1_c_max]
    | .modeLimCfg2 => [.modeLimCfg2_lim_slew, .modeLimCfg2_t_rd]
    | .modePrechgCfg => [.modePrechgCfg_v_min, .modePrechgCfg_t_pre]
    | .modeBsCfg => [.modeBsCfg_v_dead, .modeBsCfg_v_ok]
    | .modeRtSrc => [.modeRtSrc_pa]
    | .modeRtCfg0 => [.modeRtCfg0_v_lo, .modeRtCfg0_v_hi]
    | .modeRtCfg1 => [.modeRtCfg1_f_dev, .modeRtCfg1_n_in, .modeRtCfg1_hyst]
    | .modeRtCfg2 => [.modeRtCfg2_t_exit, .modeRtCfg2_t_max]
    | .modeTestCfg => [.modeTestCfg_branches]
    | .modeLvgCfg => [.modeLvgCfg_lv, .modeLvgCfg_leader, .modeLvgCfg_br_mask]
    | .affCfg => [.affCfg_policy, .affCfg_epoch_h, .affCfg_gamma, .affCfg_rf_hyst, .affCfg_kf_exp,
      .affCfg_cap_hour, .affCfg_refused]
    | .affCtl => [.affCtl_accept, .affCtl_reject, .affCtl_epoch_now]
    | .affSts => [.affSts_busy, .affSts_proposed, .affSts_deferred, .affSts_plan_late, .affSts_at_risk]
    | .affPlanSeq => [.affPlanSeq_seq]
    | .affLimCfg0 => [.affLimCfg0_d_max, .affLimCfg0_w_hyst]
    | .affLimCfg1 => [.affLimCfg1_tj_lim, .affLimCfg1_ilim_min]
    | .affLimCfg2 => [.affLimCfg2_fo_up, .affLimCfg2_fo_dn]
    | .affLimCfg3 => [.affLimCfg3_cap_min, .affLimCfg3_esr_max]
    | .affHorizonLo => [.affHorizonLo_hz_lo]
    | .affHorizonHi => [.affHorizonHi_hz_hi]
    | .affDieCfg => [.affDieCfg_margin_tgt, .affDieCfg_fbb_max, .affDieCfg_die_en, .affDieCfg_pmbus_addr]
    | .affDieSts => [.affDieSts_margin_min, .affDieSts_v_code, .affDieSts_fbb, .affDieSts_worst_mon,
      .affDieSts_pmbus_fail]
    | .affDieEolLo => [.affDieEolLo_eol_lo]
    | .affDieEolHi => [.affDieEolHi_eol_hi]
    | .affUcoef => [.affUcoef_gain]
    | .rindCfg => [.rindCfg_inj_en, .rindCfg_trip_hold]
    | .rindSts => [.rindSts_lockout, .rindSts_trip_n, .rindSts_safe_n, .rindSts_standing, .rindSts_refused,
      .rindSts_clr_refused]
    | .rindFirst => [.rindFirst_index, .rindFirst_class, .rindFirst_valid]
    | .rindLockRec => [.rindLockRec_index, .rindLockRec_k_lo]
    | .rindIntSts => [.rindIntSts_cls, .rindIntSts_mask]
    | .rindExtCfg => [.rindExtCfg_en, .rindExtCfg_pol]
    | .rindHostwdCfg => [.rindHostwdCfg_period]
    | .rindHostwdKick => [.rindHostwdKick_kick]
    | .rindCellLim0 => [.rindCellLim0_ov, .rindCellLim0_uv]
    | .rindCellLim1 => [.rindCellLim1_oc, .rindCellLim1_ot]
    | .rindSticky => [.rindSticky_sticky]
    | .rindLive => [.rindLive_live]
    | .rindForce => [.rindForce_force]
    | .rindCls => [.rindCls_cls0, .rindCls_cls1, .rindCls_cls2, .rindCls_cls3, .rindCls_cls4, .rindCls_cls5,
      .rindCls_cls6, .rindCls_cls7]
    | .rindCellCls => [.rindCellCls_cls0, .rindCellCls_cls1, .rindCellCls_cls2, .rindCellCls_cls3,
      .rindCellCls_cls4, .rindCellCls_cls5, .rindCellCls_cls6, .rindCellCls_cls7]
    | .rindCellAny => [.rindCellAny_any]
    | .rindSdLim1 => [.rindSdLim1_lo1, .rindSdLim1_hi1]
    | .rindSdLim2 => [.rindSdLim2_lo2, .rindSdLim2_hi2]
    | .cellarCfg => [.cellarCfg_diode_en, .cellarCfg_refused]
    | .cellarSts => [.cellarSts_t_c, .cellarSts_hot_node, .cellarSts_state, .cellarSts_diode_ok,
      .cellarSts_mismatch, .cellarSts_sd_latch, .cellarSts_clk_fb]
    | .cellarBase => [.cellarBase_t_base]
    | .cellarPeak => [.cellarPeak_peak, .cellarPeak_clr]
    | .cellarSdRec => [.cellarSdRec_temp, .cellarSdRec_where, .cellarSdRec_diode, .cellarSdRec_count]
    | .cellarSdTimeLo => [.cellarSdTimeLo_s_lo]
    | .cellarSdTimeHi => [.cellarSdTimeHi_s_hi]
    | .cellarNode => [.cellarNode_temp, .cellarNode_power]
    | .cellarDiode => [.cellarDiode_reading, .cellarDiode_model]
    | .cmdQCfg => [.cmdQCfg_enable, .cmdQCfg_transport, .cmdQCfg_int_en, .cmdQCfg_size]
    | .cmdSqBaseLo => [.cmdSqBaseLo_sq_lo]
    | .cmdSqBaseHi => [.cmdSqBaseHi_sq_hi]
    | .cmdCqBaseLo => [.cmdCqBaseLo_cq_lo]
    | .cmdCqBaseHi => [.cmdCqBaseHi_cq_hi]
    | .cmdSqTail => [.cmdSqTail_tail]
    | .cmdCqHead => [.cmdCqHead_head]
    | .cmdQSts => [.cmdQSts_state, .cmdQSts_sq_head, .cmdQSts_cq_tail, .cmdQSts_busy, .cmdQSts_err]
    | .cmdQDrop => [.cmdQDrop_drops]
    | .cmdUdpPeer => [.cmdUdpPeer_peer]
    | .cmdEvCfg => [.cmdEvCfg_enable, .cmdEvCfg_udp, .cmdEvCfg_q, .cmdEvCfg_size, .cmdEvCfg_types]
    | .cmdEvBaseLo => [.cmdEvBaseLo_base]
    | .cmdEvBaseHi => [.cmdEvBaseHi_base]
    | .cmdEvHead => [.cmdEvHead_head]
    | .cmdEvSts => [.cmdEvSts_tail, .cmdEvSts_dropped]
    | .cmdLockCfg => [.cmdLockCfg_hold_ms]
    | .cmdSts => [.cmdSts_bar_refused, .cmdSts_q_error, .cmdSts_lock_broken, .cmdSts_restarted, .cmdSts_locks]
    | .cmdIntPendLo => [.cmdIntPendLo_pend]
    | .cmdIntPendHi => [.cmdIntPendHi_pend]
    | .cmdIntEnLo => [.cmdIntEnLo_en]
    | .cmdIntEnHi => [.cmdIntEnHi_en]
    | .cmdUdpCfg => [.cmdUdpCfg_port, .cmdUdpCfg_en_p0, .cmdUdpCfg_en_p1, .cmdUdpCfg_jumbo, .cmdUdpCfg_vlan,
      .cmdUdpCfg_vlan_en]
    | .cmdSpiCfg => [.cmdSpiCfg_queue, .cmdSpiCfg_enable]
    | .cmdEthIp => [.cmdEthIp_ip]
    | .cmdEthMacLo => [.cmdEthMacLo_mac_lo]
    | .cmdEthMacHi => [.cmdEthMacHi_mac_hi]
    | .msixAddrLo => [.msixAddrLo_addr]
    | .msixAddrHi => [.msixAddrHi_addr]
    | .msixData => [.msixData_data]
    | .msixCtrl => [.msixCtrl_mask]
    | .msixPba => [.msixPba_pba]
    | .vatMap => [.vatMap_req]
    | .vatCtl => [.vatCtl_commit, .vatCtl_map_refused, .vatCtl_snap_skip]
    | .vatSts => [.vatSts_starve]
    | .vatCntClr => [.vatCntClr_clr]
    | .vatLoss => [.vatLoss_loss, .vatLoss_wait_max]
    | .vatGrant => [.vatGrant_grants]
    | .caveTrcCfg => [.caveTrcCfg_trig_cls]
    | .caveTrcSts => [.caveTrcSts_state, .caveTrcSts_src, .caveTrcSts_sel_pending, .caveTrcSts_armed,
      .caveTrcSts_ignored]
    | .caveTrcDepth => [.caveTrcDepth_depth]
    | .caveLogNew => [.caveLogNew_newest]
    | .caveLogAck => [.caveLogAck_ack]
    | .caveLogOvr => [.caveLogOvr_ovr]
    | .caveLogLost => [.caveLogLost_lost]
    | .caveEccSts => [.caveEccSts_sbe, .caveEccSts_sbe_ovf]
    | .caveDbeAddr => [.caveDbeAddr_addr]
    | .cavePersCfg => [.cavePersCfg_hour]
    | .cavePersSts => [.cavePersSts_busy, .cavePersSts_copy, .cavePersSts_fail, .cavePersSts_days]
    | .pwrCfg => [.pwrCfg_osc_en, .pwrCfg_osc_gpio, .pwrCfg_osc_pol]
    | .pwrWakeCfg => [.pwrWakeCfg_wake_n_en, .pwrWakeCfg_pcie_en, .pwrWakeCfg_eth_en, .pwrWakeCfg_trip_mask]
    | .pwrWakeKey => [.pwrWakeKey_key]
    | .pwrSts => [.pwrSts_state, .pwrSts_entering, .pwrSts_waking, .pwrSts_last_src]
    | .pwrWaxSts => [.pwrWaxSts_wake_fail, .pwrWaxSts_alert, .pwrWaxSts_cellar_hold, .pwrWaxSts_rail_uv,
      .pwrWaxSts_cave_lost, .pwrWaxSts_ret_lost, .pwrWaxSts_src_mask, .pwrWaxSts_attempts]
    | .pwrWaxCal => [.pwrWaxCal_f_w]
    | .pwrWaxCntLo => [.pwrWaxCntLo_n_lo]
    | .pwrWaxCntHi => [.pwrWaxCntHi_n_hi]
    | .pwrAlarmLo => [.pwrAlarmLo_alarm_lo]
    | .pwrAlarmHi => [.pwrAlarmHi_alarm_hi]
    | .pwrRailSts => [.pwrRailSts_uv, .pwrRailSts_ov]

/-- Default bases of Table 05-4 in milli-units. -/
def curdBaseReset : Nat → Nat
  | 1 => 1250000 | 2 => 40000 | 3 => 1500000 | 4 => 37559000 | 5 => 200000 | 6 => 2000000 | 7 => 250000
  | _ => 0

/-- Default class of F_SRAM_DBE by region of Table 01-5 (Table 01-6). -/
def sramClass (r : Nat) : Nat := [2, 2, 3, 3, 2, 1, 4, 1, 3].getD r 0

/-- Default class of device source n: the fourth column of Table 11-5 with the tables it names (01-6, 03-9, 05-7, 08-9,
09-9, 10-5 and the chapters' own lists). -/
def deviceClassReset (n : Nat) : Nat :=
  if n < 2 then 4
  else if n < 3 then 3
  else if n < 19 then 1
  else if n < 28 then sramClass (n - 19)
  else if n < 37 then 0
  else if n < 49 then 1
  else if n < 73 then 2
  else if n < 186 then 1
  else if n < 242 then 0
  else if n < 266 then 1
  else if n < 278 then 2
  else if n < 474 then if (n - 278) % 4 = 1 then 1 else 0
  else if n < 506 then 1
  else if n < 634 then if (n - 506) % 4 ≤ 1 then 1 else 3
  else if n < 646 then 1
  else if n < 658 then 0
  else if n < 682 then 2
  else if n < 683 then 3
  else if n < 684 then 1
  else if n < 700 then 0
  else if n < 716 then 2
  else if n < 732 then 1
  else if n < 733 then 3
  else if n < 745 then 0
  else if n < 769 then 2
  else if n < 770 then 3
  else if n < 782 then 1
  else if n < 788 then if (n - 782) = 5 then 0 else 1
  else if n < 793 then if (n - 788) = 0 ∨ (n - 788) = 4 then 3 else 1
  else if n < 798 then if (n - 793) = 0 then 0 else if (n - 793) = 2 then 3 else 1
  else if n < 802 then if (n - 798) = 3 then 3 else 1
  else if n < 810 then if (n - 802) = 0 then 3 else if (n - 802) = 7 then 0 else 1
  else if n < 829 then if (n - 810) = 18 then 1 else 3
  else if n < 833 then if (n - 829) = 1 then 3 else 1
  else if n < 906 then 0
  else if n < 908 then 3
  else if n < 943 then 1
  else if n < 945 then 0
  else if n < 946 then 1
  else 0

/-- Lowest class R288 accepts for device source n (the floor column of Table 11-5). -/
def deviceClassFloor (n : Nat) : Nat :=
  if n < 2 then 4
  else if n < 19 then 0
  else if n < 28 then sramClass (n - 19)
  else if n < 49 then 0
  else if n < 73 then 2
  else if n < 266 then 0
  else if n < 278 then 2
  else if n < 658 then 0
  else if n < 682 then 2
  else if n < 683 then 3
  else if n < 700 then 0
  else if n < 716 then 2
  else if n < 732 then 0
  else if n < 733 then 3
  else if n < 745 then 0
  else if n < 769 then 2
  else if n < 770 then 3
  else if n < 788 then 0
  else if n < 793 then if (n - 788) = 0 ∨ (n - 788) = 4 then 3 else 0
  else if n < 798 then if (n - 793) = 2 then 3 else 0
  else if n < 802 then if (n - 798) = 3 then 3 else 0
  else if n < 810 then if (n - 802) = 0 then 3 else 0
  else if n < 829 then if (n - 810) = 18 then 0 else 3
  else if n < 906 then 0
  else if n < 907 then 3
  else if n < 946 then 0
  else 0

/-- Default class of cell bit i (Table 11-6). -/
def cellClassDefault (i : Nat) : Nat :=
  [0, 1, 2, 1, 2, 2, 1, 0, 0, 0, 1, 0, 0, 2, 0, 2, 0, 2, 1, 1, 1, 1, 1, 1, 1, 0, 0, 2, 1, 2, 2, 2].getD i 0

/-- Lowest class R288 accepts for cell bit i (Table 11-6). -/
def cellClassFloor (i : Nat) : Nat := if i = 15 ∨ i = 17 ∨ i = 27 then 2 else 0

/-- Reset of class field f of `RIND_CLS[m]`: device source 8m + f. -/
def classReset (f m : Nat) : Nat := deviceClassReset (8 * m + f)

/-- Reset of class field f of `RIND_CELL_CLS[m]`: cell bit 8m + f. -/
def cellClassReset (f m : Nat) : Nat := cellClassDefault (8 * m + f)

/-- The reset column of the field tables (R18); i is the register's index. Fields not listed reset to 0. -/
def Fld.reset (f : Fld) (i : Nat) : Nat :=
  match f with
  | .stuFrmCfg_hop_bound => 64
  | .stuFrmSts_t_snap => 2500
  | .laneCfg_enable => 1
  | .laneCfg_tx_swing => 8
  | .laneCfg_tx_post => 4
  | .laneCfg_keepalive => 100
  | .laneEq_ctle => 12
  | .laneHlthCfg_degr_hdr => 4
  | .laneHlthCfg_fail_hdr => 64
  | .laneHlthCfg_eye_h_min => 5
  | .laneHlthCfg_eye_w_min => 38
  | .laneEyeCtl_dwell_exp => 20
  | .wlBrCfg_auto_resplit => 1
  | .wlBrCfg_split_force => 63
  | .wlBrSts_break_pos => 63
  | .curdBase_base => curdBaseReset i
  | .curdSdCfg_clk_sel => i / 8
  | .curdSdCfg_osr => 1
  | .curdPinFilt_filt => if i = 16 then 100 else 10
  | .harpProfMv_tc => 1600000
  | .harpProfMv_mv_mode => 2
  | .harpProfDab_dab_n => 4
  | .harpDtCfg_dt_min => 4000
  | .harpDtCfg_dt_max => 4000
  | .harpLpPer_period => 40000
  | .harpLpCfg_dt => 400
  | .harpTripCfg_filt => 25
  | .harpTripCfg_n_trip => 10
  | .harpTripCfg_win => 100
  | .harpCtripCfg_filt => 50
  | .harpCtripCfg_n_trip => 10
  | .harpCtripCfg_enable => 1
  | .harpCtripCfg_win => 100
  | .pressL1Cfg_hold => 8
  | .pressCprof0_k_bal => 2048
  | .pressCprof0_i_db => 328
  | .pressCprof1_kp_dab => 16384
  | .pressCprof2_ki_dab => 1654784
  | .pressCprof3_k_dab => 81920
  | .pressCprof4_p_lim => 26214
  | .chedBrCfg_rot_n => 4
  | .chedBrCfg_byp_en => 1
  | .chedCfg_dev_max => 1638
  | .chedCfg_hr_n => 100
  | .modeReq_flow => 3
  | .modeLvgCfg_leader => i
  | .modeLvgCfg_br_mask => 2 ^ i
  | .modeLimCfg0_p_max => 29491
  | .modeLimCfg0_i_max => 29491
  | .modeLimCfg1_i_float => 1638
  | .modeLimCfg2_lim_slew => 3
  | .modeLimCfg2_t_rd => 500
  | .modePrechgCfg_v_min => 22937
  | .modePrechgCfg_t_pre => 2000
  | .modeBsCfg_v_dead => 3276
  | .modeBsCfg_v_ok => 22937
  | .modeRtSrc_pa => 1048575
  | .modeRtCfg0_v_lo => 22937
  | .modeRtCfg0_v_hi => 32767
  | .modeRtCfg1_f_dev => 328
  | .modeRtCfg1_n_in => 2
  | .modeRtCfg1_hyst => 2
  | .modeRtCfg2_t_exit => 100
  | .modeRtCfg2_t_max => 3000
  | .affCfg_policy => 2
  | .affCfg_epoch_h => 6
  | .affCfg_gamma => 3
  | .affCfg_rf_hyst => 1
  | .affCfg_kf_exp => 5
  | .affCfg_cap_hour => 3
  | .affLimCfg0_d_max => 26214
  | .affLimCfg0_w_hyst => 655
  | .affLimCfg1_tj_lim => 19660
  | .affLimCfg1_ilim_min => 16384
  | .affLimCfg2_fo_up => 29491
  | .affLimCfg2_fo_dn => 22937
  | .affLimCfg3_cap_min => 29491
  | .affLimCfg3_esr_max => 32
  | .affUcoef_gain => 16384
  | .affDieCfg_margin_tgt => 70
  | .affDieCfg_fbb_max => 8
  | .affDieCfg_die_en => 1
  | .affDieCfg_pmbus_addr => 64
  | .affDieSts_v_code => 10
  | .rindCfg_trip_hold => 100
  | .rindSts_trip_n => 1
  | .rindSts_safe_n => 1
  | .rindCls_cls0 => classReset 0 i
  | .rindCls_cls1 => classReset 1 i
  | .rindCls_cls2 => classReset 2 i
  | .rindCls_cls3 => classReset 3 i
  | .rindCls_cls4 => classReset 4 i
  | .rindCls_cls5 => classReset 5 i
  | .rindCls_cls6 => classReset 6 i
  | .rindCls_cls7 => classReset 7 i
  | .rindCellCls_cls0 => cellClassReset 0 i
  | .rindCellCls_cls1 => cellClassReset 1 i
  | .rindCellCls_cls2 => cellClassReset 2 i
  | .rindCellCls_cls3 => cellClassReset 3 i
  | .rindCellCls_cls4 => cellClassReset 4 i
  | .rindCellCls_cls5 => cellClassReset 5 i
  | .rindCellCls_cls6 => cellClassReset 6 i
  | .rindCellCls_cls7 => cellClassReset 7 i
  | .rindCellLim0_ov => 31457
  | .rindCellLim1_oc => 32767
  | .rindCellLim1_ot => 13107
  | .rindSdLim1_lo1 => 0x8000
  | .rindSdLim1_hi1 => 0x7FFF
  | .rindSdLim2_lo2 => 0x8000
  | .rindSdLim2_hi2 => 0x7FFF
  | .cellarCfg_diode_en => 15
  | .cmdQCfg_int_en => 1
  | .cmdQCfg_size => 64
  | .cmdEvCfg_size => 64
  | .cmdEvCfg_types => 1
  | .cmdLockCfg_hold_ms => 100
  | .cmdIntEnLo_en => 4294967295
  | .cmdIntEnHi_en => 1023
  | .cmdUdpCfg_port => 50576
  | .cmdSpiCfg_queue => 31
  | .vatMap_req => i % 16
  | .caveTrcCfg_trig_cls => 3
  | .cavePersCfg_hour => 2
  | .strCfg_auto_sw => 1
  | .strCfg_ref_en => 3
  | .strCfg_lref_en => 7
  | .strBand_valid => if i = 0 then 1 else 0
  | .strBand_band => 63
  | .strBand_t_max => 127
  | .strSts_on_safe => 1
  | .strNw_nw => 671088640
  | .strNwLock_nw_lock => 671088640
  | .strClkoutCfg_div_m1 => 9
  | .strClkoutCfg_sync_en => 1
  | .stuPtpCfg_port_en => 3
  | .stuPtpCfg_ann_to => 3
  | .stuPtpCfg_kp_sh => 1
  | .stuPtpCfg_ki_sh => 4
  | .stuServoCfg0_step_thr => 10
  | .stuServoCfg0_lock_thr => 1000
  | .stuServoCfg1_off_alarm => 500
  | .stuServoCfg1_dly_gate => 200
  | .stuPtpSts_port => 3
  | .stuTpWidth_width => 100
  | .pwrWakeCfg_wake_n_en => 1
  | .pwrWakeCfg_pcie_en => 1
  | .msixCtrl_mask => 1
  | _ => 0

/-- The reset word of element i of a register: its fields' reset values in their places. -/
def RegName.resetWord (r : RegName) (i : Nat) : Nat :=
  (r.fields.map fun f => (f.reset i % 2 ^ f.spec.width) * 2 ^ f.spec.lo).sum

/-- BAR0 byte address of element i (R430). -/
def RegName.addr (r : RegName) (i : Nat) : Nat :=
  r.place.addr + r.place.stride * (i - r.place.first)

/-- Element i exists (R430). -/
def RegName.hasIndex (r : RegName) (i : Nat) : Bool :=
  decide (r.place.first ≤ i) && decide (i < r.place.first + r.place.count)

/-- Whether a BAR0 byte address lies in register r, and at which index. -/
def RegName.indexAt (r : RegName) (a : Nat) : Option Nat :=
  let p := r.place
  if a < p.addr then none
  else if p.stride = 0 then (if a = p.addr then some p.first else none)
  else if (a - p.addr) % p.stride = 0 ∧ (a - p.addr) / p.stride < p.count
    then some (p.first + (a - p.addr) / p.stride) else none

/-- The register and index assigned to a BAR0 byte address, or none where Table 18-2 assigns nothing (R427). -/
def regAt (a : Nat) : Option (RegName × Nat) :=
  allRegs.findSome? fun r => (r.indexAt a).map fun i => (r, i)

/-- Bits of a register whose fields have an access code that `p` accepts, as a word mask. -/
def RegName.mask (r : RegName) (p : Acc → Bool) : Nat :=
  (r.fields.map fun f => if p f.spec.acc then (2 ^ f.spec.width - 1) * 2 ^ f.spec.lo else 0).sum

/-- Some field of the register has access code `a`. -/
def RegName.hasAcc (r : RegName) (a : Acc) : Bool := r.fields.any fun f => f.spec.acc == a

/-- Every field of the register is RO or ROF (Table 13-11, PID space 0). -/
def RegName.readOnly (r : RegName) : Bool := r.fields.all fun f => f.spec.acc == .ro || f.spec.acc == .rof

end Sys2Proof.Machine
end

