-- ==== Sys2Proof/Machine/State.lean ====
section
/-!
DEFINITION. The state of the TB576, as plain data: the registers of chapter 18, every piece of state chapters 01 to 19 give
the device, the part of each cell node that the node contract of chapter 04 describes, and the queue of waiting commands.
-/
namespace Sys2Proof.Machine

/-! ### Sparse tables -/

/-- A sparse table: entries by key, keys strictly rising, no entry equal to its default. -/
abbrev Tbl (α : Type) := List (Nat × α)

/-! ### Registers (chapter 18) -/

/-- A shadow word that differs from the value in force, with the bits that each queue wrote since the last commit, kept for the restoration
of R336. -/
structure Shadow where
  val : Word
  own : Tbl Nat
deriving DecidableEq, Repr

/-- The register file. `vals` holds the words in force by BAR0 byte address, listing only those that differ from their
reset word; `shadow` the pending RWS words (R15, R433); `staged` the accepted words of commits that have not yet applied
(R433, R434), with their block code; `applying` bit n: an accepted commit of block n has not yet applied. -/
structure Regs where
  vals : Tbl Word
  shadow : Tbl Shadow
  staged : Tbl (Nat × Word)
  applying : BitVec 14
  /-- The words the last BAR0 or SPI read returned, oldest first. -/
  readData : List Word
deriving DecidableEq, Repr

/-! ### Frame (chapter 02) -/

/-- The Station Time Unit's frame state. Times of day are counted in quarter nanoseconds of station time. -/
structure Frame where
  /-- k, the number of the current frame (R55), 48 bits. -/
  k : Nat
  /-- T_snap of the current frame has passed (R43). -/
  snapped : Bool
  /-- frame_len code in force (R37). -/
  len : Fin 4
  /-- Frame epoch E in quarter nanoseconds, signed (R37, R56). -/
  epoch : Int
  /-- Length of the current frame in quarter nanoseconds (T_F, or a realignment frame, R57). -/
  ticks : Nat
  /-- The current frame is a realignment frame, and the one before it was (R138). -/
  realign : Bool
  realignPrev : Bool
  /-- A realignment frame announced for this boundary with this length in ticks (R57, R102). -/
  realignAt : Option (Nat × Nat)
  /-- An accepted frame length waits for a boundary on a whole second (R37). -/
  lenPending : Option (Fin 4)
  /-- e of R57 in nanoseconds. -/
  phaseErr : Int
  /-- T_snap of the current frame, ns (R43). -/
  tsnap : Nat
  /-- Largest hop count served; a segment is fed through the standby; latest arrival of R53; late tails of the last frame and of
  this one (Tables 02-8, 02-9). -/
  hMax : Nat
  relayActive : Bool
  worstArrival : Nat
  lateTails : Nat
  lateNow : Nat
  /-- The cell map, split, hop bound or frame length changed: R53 is checked at the next boundary. -/
  checkDue : Bool
  /-- Branches that the check of R53 has removed from the order, and those that it removes from the next frame on. -/
  budgetFail : BitVec 12
  budgetNext : BitVec 12
  /-- The counting of k has started (R55: at the first whole second of station time after reset). -/
  running : Bool
  /-- Latched words of Tables 02-10 and 02-11. -/
  cntHi : Half
  epochSHi : Half
  epochNs : Nat
deriving DecidableEq, Repr

/-! ### Lanes (chapter 03) -/

/-- Lane states of Table 03-8, in the order of `LANE_STS.state`. -/
inductive LaneMode where
  | down | training | up | degraded | eidle
deriving DecidableEq, Repr

/-- Slab types of Table 03-3, in the order of their codes. -/
inductive SlabType where
  | idle | filler | first | mid | last | bulk | mark | park | train | eidle | link
deriving DecidableEq, Repr

/-- The transmitter of a lane. -/
structure LaneTx where
  /-- The last 58 bits that left the scrambler, the latest in bit 0 (R65, R69). -/
  hist : Nat
  /-- Slabs that are left of the message in progress, and of the bulk frame in progress. -/
  cur : List (SlabType × List Byte)
  bulk : List (SlabType × List Byte)
  /-- Slab times since the last IDLE, FILLER or LINK (R72) and since the last LINK (R68), and those a due MARK has waited (R74). -/
  gap : Nat
  sinceLink : Nat
  wait : Nat
  /-- Slabs or blocks that have left in this frame. -/
  wire : List Slab
deriving DecidableEq, Repr

/-- The receiver of a lane. -/
structure LaneRx where
  /-- The last 58 scrambled bits received, the latest in bit 0. -/
  hist : Nat
  /-- Consecutive valid headers while out of lock; the validity of the last 64 headers in lock, the latest first (R67), in
  64b/66b of the window of 64 headers in progress. -/
  good : Nat
  heads : List Bool
  /-- The next slab is the first after lock, which is discarded (R65). -/
  discard : Bool
  /-- Bytes of the message part in progress, the first block of a LINK, the bytes of the bulk frame in progress. -/
  part : Option (List Byte)
  link : Option (List Byte)
  bulk : List Byte
  /-- Elastic buffer: its fill in slabs or blocks; it is to be re-centred at the next gap (R71, R73). -/
  fill : Nat
  recentre : Bool
  /-- Invalid headers that runs have brought in the present health window. -/
  errs : Nat
  /-- In 64b/66b, data blocks pass until a control block has come (R70). -/
  await : Bool
  /-- In the present health window: the coefficients that have stood at a limit all the time, and whether the equaliser was free at some
  instant (R76, R77). -/
  eqEdges : BitVec 6
  eqFree : Bool
deriving DecidableEq, Repr

/-- An eye scan in progress (R78). -/
structure EyeScan where
  /-- At its start: station time, LANE_EQ, dwell exponent, coding. -/
  start : Nat
  eq : Word
  dwell : Nat
  coding : Bool
  /-- Ticks for which it has run, which give its row and column; points at which electrical idle paused it; it is paused now. -/
  elapsed : Nat
  paused : Nat
  pausing : Bool
deriving DecidableEq, Repr

/-- One serial lane 0 to 27. -/
structure Lane where
  mode : LaneMode
  /-- Slab or block lock; receive signal present; coding in use (R61). -/
  lock : Bool
  sig : Bool
  coding : Bool
  /-- Its transmitter (R65 to R75) and its receiver (R63 to R73). -/
  tx : LaneTx
  rx : LaneRx
  /-- A valid LINK was received in the present attempt (Table 03-7). -/
  linkSeen : Bool
  /-- Training passed its check point: UP at the next boundary (Table 03-8). -/
  trained : Bool
  /-- Consecutive failed attempts; frames since the last attempt; no attempt has been made since reset. -/
  fails : Nat
  sinceTry : Nat
  firstTry : Bool
  /-- A failed attempt is retried at the next boundary (R83). -/
  retry : Bool
  /-- The present exit is a keep-alive (R84), and frames since the last one. -/
  keepAlive : Bool
  sinceKeep : Nat
  /-- The equaliser is held (R77). -/
  eqHeld : Bool
  /-- An EIDLE slab preceded (R67, R81). -/
  eidleSeen : Bool
  /-- Consecutive health windows below degr_hdr. -/
  goodWins : Nat
  /-- Latest eye map: none, or height, width (R80). -/
  eye : Option (Nat × Nat)
  /-- Scan in progress (R78, R79). -/
  scan : Option EyeScan
  /-- A PARK request stands on a lane in electrical idle (R85): its content. -/
  parkPend : Option (List Byte)
  /-- Accepted coding changes that wait, with the frame in which each takes effect, the earliest first (R61). -/
  codingAt : List (Nat × Bool)
deriving DecidableEq, Repr

/-! ### Whey link, TB576 side (chapter 04) -/

/-- `WL_BR_STS.disc` (Table 04-16). -/
inductive Disc where
  | idle | enumerating | reading | addressing | acquiring | done | failed
deriving DecidableEq, Repr

/-- One branch's chain as the TB576 knows it. -/
structure Branch where
  nb : Nat
  /-- a_last + 1 in force (R93). -/
  split : Nat
  /-- A new split and the boundary it starts at (R111). -/
  splitNext : Option (Nat × Nat)
  /-- A break is evident (R111); the first position beyond the first and beyond the last break, as seen from end A. -/
  broken : Bool
  breakLo : Nat
  breakHi : Nat
  /-- T_snap instants in a row without a break; the split in force came from a break. -/
  healed : Nat
  resplit : Bool
  /-- The discovery of the branch (R111 to R113); the map of its cells is complete. -/
  disc : Disc
  mapDone : Bool
  /-- ENUM counts of a discovery: arrived at end A and end B from the other end, end replies at A and B (R113). -/
  enumA : Option Nat
  enumB : Option Nat
  replyA : Option Nat
  replyB : Option Nat
  /-- Frame in which the discovery started. -/
  discFrame : Nat
  /-- The far segment is fed through the standby (twin split feed); bytes of the bulk frame that relayed slabs bring (Table 08-5). -/
  relay : Bool
  relayBulk : List Byte
deriving DecidableEq, Repr

/-- Cell roles of Table 08-1 in their code order. -/
inductive Role where
  | idle | inserted | spare | isolating | bypassed
deriving DecidableEq, Repr

/-- An edge word of Table 04-4. -/
structure Edge where
  offset : Nat
  frac : Nat
  sw : Nat
  on : Bool
deriving DecidableEq, Repr

/-- An edge list of Table 04-3. -/
structure EdgeList where
  dest : Nat
  byp : Nat
  stale : Bool
  holder : Bool
  kLo : Half
  path : Nat
  tailStart : Nat
  headStart : Nat
  edges : List Edge
deriving DecidableEq, Repr

/-- A bulk request the TB576 has outstanding at a node (R106). -/
structure Bulk where
  write : Bool
  addr : Nat
  len : Nat
  data : List Byte
  tag : Half
  tries : Nat
  /-- Hop-addressed on the lane of end B, or of end A; or position-addressed. -/
  hop : Option (Bool × Nat)
  /-- 0 discovery, 1 trip block, 2 + q the command waiting on queue q. -/
  owner : Nat
deriving DecidableEq, Repr

/-! ### Cells: what the TB576 holds per cell (chapters 02, 04, 06, 07, 08) -/

/-- Level 1 state of one cell context (chapter 07, 08) and its Harp carriers (chapter 06) stand in `CellCtl`; here is what the
Whey link holds of a cell. -/
structure CellLink where
  /-- In the cell map (R113); its position is c mod 48. -/
  inMap : Bool
  /-- Identity block read by discovery (Table 04-10). -/
  ident : List Byte
  /-- Discovery's progress at this node: 0 none, 1 reading the identity, 2 the factory record, 3 read, 4 reading the identity again,
  5 verified; bytes read so far. -/
  rd : Nat
  rdBuf : List Byte
  /-- Discovery reaches the node from end B. -/
  viaB : Bool
  /-- Factory record as read (R132): none until read; bad on CRC, zero, infinite or NaN gain. -/
  fact : Option (List Byte)
  factBad : Bool
  /-- Held uplink head of this frame and its frame (R40, R41). -/
  head : Option (List Byte)
  /-- U-MARK of this head slot: arrival in 1/64 ns from F(k), corr (R108). -/
  umark : Option (Int × Int)
  /-- d values of the cell's last completed exchanges, newest first, at most 8 (R108). -/
  dHist : List Int
  /-- Path sent in the last list, 1/64 ns (R108). -/
  pathSent : Option Int
  /-- Path to use until the first exchange of the present segment (R108, R112). -/
  pathFirst : Option Int
  /-- L(p) measured in the last frame, 1/64 ns, and whether one was completed since the filter restarted. -/
  lup : Option Int
  /-- Reported node time error of the last exchange, and consecutive frames with |e| above 1 ns (R110). -/
  terr : Int
  terrRun : Nat
  /-- An accepted uplink came this frame; consecutive snapshots without one (R118). -/
  gotUp : Bool
  missUp : Nat
  /-- Head byte 1 of the last accepted uplink; time lock reported, bypass closed reported in it (Table 04-5). -/
  nstate : Nat
  timeLocked : Bool
  byClosed : Bool
  /-- Port lock bits of the last head and tail (R111). -/
  ports : Nat
  /-- Reported before as locked, for F_WL_TIME_LOST. -/
  wasLocked : Bool
  /-- Outstanding bulk request (R106). -/
  bulk : Option Bulk
  /-- Boundary frame of an ARM sent to the cell whose first head is still to come (R461). -/
  armed : Option Nat
deriving DecidableEq, Repr

/-! ### Cell nodes (R114–R117): the cell-side part each message ends at -/

/-- Cell node states, in the code order of head byte 1. -/
inductive NodeMode where
  | init | unaddr | parked | run | safe
deriving DecidableEq, Repr

/-- One trip channel of a cell node (R165). -/
structure NodeTrip where
  active : Bool
  blocked : Bool
  count : Nat
  winLeft : Nat
  latched : Bool
  /-- Switches whose turn-on was pending in dead time at a trip, which cancels it. -/
  cancel : List Nat
deriving DecidableEq, Repr

/-- The transmitter of a cell node's port (R72, R74, R95). -/
structure NodeTx where
  /-- Slab times left of the node's own content in progress, and of forwarded content in progress. -/
  own : Nat
  fwd : Nat
  /-- Slab times since the last gap (R72). -/
  run : Nat
  /-- The message parts in progress, which a PARK aborts (R75). -/
  parts : List (List Byte)
  /-- Forwarded content in the FIFO, and own content that waits: each entry's messages leave one after another. -/
  fifo : List (List (SlabType × List Byte))
  wait : List (List (SlabType × List Byte))
deriving DecidableEq, Repr

/-- A cell node under the contract of chapter 04. -/
structure Node where
  mode : NodeMode
  present : Bool
  portUp : BitVec 2
  portSig : BitVec 2
  pos : Nat
  nb : Nat
  /-- Hop counts recorded from port A and port B (R103). -/
  hopsA : Option Nat
  hopsB : Option Nat
  /-- Role token: holder and epoch (R104). -/
  token : Option (Bool × Nat)
  /-- Serving port (true: B), segment end, none before the first SETPOS; and a SPLIT waiting for its boundary. -/
  serve : Option (Bool × Bool)
  /-- A SPLIT is in force (Table 04-12). -/
  splitOn : Bool
  splitNext : Option (Nat × Nat)
  /-- Own frame count; it has been set by a list since power-up; frame length code; ticks of the current window. -/
  k : Nat
  counted : Bool
  len : Fin 4
  ticks : Nat
  /-- Announced changes: k_eff, kind, code, length (R102, R460). -/
  announce : List (Nat × Nat × Nat × Nat)
  coding : Bool
  /-- List received in this window, list governing this window, each with the ticks left from its arrival to the boundary, and the
  last list before it. -/
  rxList : Option (EdgeList × Nat)
  curList : Option (EdgeList × Nat)
  prevList : Option EdgeList
  /-- Window miss count (R115). -/
  miss : Nat
  /-- The list that governs the window came as a stale resend (head byte 1, Table 04-5, log entry 145). -/
  staleRun : Bool
  /-- The frame in which an announced ARM takes effect (R102, R461). -/
  armAt : Option Nat
  /-- Gates, per switch; switches commanded off and the tick their off command fell (for the 20 ns interlock). -/
  gates : BitVec 12
  offTick : Tbl Int
  fired : List Nat
  /-- Dither counters m of turn-on and turn-off per switch (R116). -/
  mOn : Tbl Nat
  mOff : Tbl Nat
  /-- The bypass relay is closed; it is closing. -/
  byClosed : Bool
  byClosing : Bool
  /-- The trip channels of the node (Table 06-6); those that fired since the last head (R165). -/
  trips : Tbl NodeTrip
  tripSince : BitVec 3
  /-- gd bits since the last head (Table 04-5), delays since the last head. -/
  ilock : BitVec 12
  gdFault : BitVec 12
  gdUv : BitVec 12
  tOn : Tbl Half
  tOff : Tbl Half
  /-- Forwarded content that the FIFO dropped (R95). -/
  fwdDrop : Nat
  /-- Time: error after correction (1/64 ns), path held, D-MARK arrival and corr of the last one, good and bad runs, lock (R109, R110). -/
  err : Int
  path : Option Int
  markRx : Int
  corrDn : Int
  good : Nat
  bad : Nat
  noMark : Nat
  locked : Bool
  ignoreMarks : Bool
  /-- Sensor samples of the last own boundary: bytes 82–121 as 20 codes, tsts. -/
  samples : List Half
  tsts : Half
  /-- Readable and writable memory: identity, trip parameters, calibration, history, eye maps (Table 04-9). -/
  mem : Tbl Byte
  /-- The head sent in the last head slot, for the CRC of its tail. -/
  headSent : Option (List Byte)
  /-- The transmitters of port A and port B. -/
  txA : NodeTx
  txB : NodeTx
deriving DecidableEq, Repr

/-! ### Curd table (chapter 05) -/

/-- One point with its status word and hygiene state (R125, R128). -/
structure Point where
  val : Half
  stale : Bool
  frozen : Bool
  range : Bool
  rateLim : Bool
  held : Bool
  age : Nat
  lastK : Half
  lastRaw : Half
  same : Nat
  hist : BitVec 8
  accepted : Bool
  /-- Frame number (k) of the last accepted sample; a sample was accepted for the current frame. -/
  accK : Nat
  fresh : Bool
  /-- Consecutive accepted samples that were clamped (R142). -/
  rateRun : Nat
deriving DecidableEq, Repr

/-- A point descriptor (Table 05-6). -/
structure Desc where
  min : Half
  max : Half
  rateMax : Nat
  staleTo : Nat
  frzN : Nat
  noise : Nat
  base : Nat
  fs : Nat
deriving DecidableEq, Repr

/-- The Curd table. -/
structure Curd where
  /-- Points by PA. -/
  points : Tbl Point
  /-- The points as of the last snapshot, for POINT_READ (R140). -/
  snap : Tbl Point
  snapK : Nat
  /-- Descriptors by cell point index 0–511, then 512 + j; changes waiting for the next boundary (R127). -/
  descs : Tbl Desc
  descNext : List (Nat × Desc)
  /-- User gain and offset by PA (R134). -/
  ucal : Tbl (Half × Half)
  /-- Host writes waiting for the next snapshot (R141). -/
  hostNext : List (Nat × Half)
  /-- Sigma-delta inputs now stuck (R137); frames for which decimator samples are not samples (R129, R138). -/
  stuck : BitVec 32
  sdSkip : Tbl Nat
  /-- Filtered level of GPIO 0–15 and ARM_N (as PT_ARM polarity), 17 bits (R139). -/
  pins : BitVec 17
deriving DecidableEq, Repr

/-! ### Harp (chapter 06) -/

/-- The triangular carrier of one branch (R145). Times in ticks relative to F(k) of the current frame. -/
structure Carrier where
  running : Bool
  valley : Int
  tc : Nat
  /-- Period before the valley. -/
  tcPrev : Nat
deriving DecidableEq, Repr

/-- The Harp's state for one cell. Times in sixteenths of a tick relative to the start of the window the next list governs. -/
structure CellHarp where
  /-- DAB and MV sequences run (the cell has entered RUN). -/
  started : Bool
  /-- MV mode in force: 0 PSC, 1 HOLD, 2 OFF (R148, R154). -/
  mvMode : Nat
  /-- Commanded state of each switch at the end of the last list's window (R157). -/
  on : BitVec 12
  /-- Time of each switch's last turn-off command; of each MV leg's last transition (R147, R156). -/
  offAt : Tbl Int
  lastTr : Tbl Int
  /-- Start of the DAB period in progress and its n (R149). -/
  ps : Int
  n : Nat
  /-- dab_n of the period in progress, and the profile's MV mode in the last window (R154). -/
  nMin : Nat
  profMv : Nat
  /-- sh, a1 and a2 of the DAB period in progress (R150). -/
  sh : Int
  a1 : Int
  a2 : Int
  /-- Edges carried into a later list (R157): time, switch, on. -/
  carried : List (Int × Nat × Bool)
  /-- The last bridge command Level 1 left (Table 06-1: m, slot, phi, d, byp, run), and whether it is this frame's (R51). -/
  cmd : Option (Int × Nat × Int × Int × Nat × Bool)
  newCmd : Bool
  /-- The list last sent; a list was sent in this frame; stale resends in a row (R51, R52). -/
  lastList : Option EdgeList
  sentNow : Bool
  staleCount : Nat
  /-- The list that governs the current window, and the commanded states at its start (R259). -/
  gov : Option EdgeList
  govOn : BitVec 12
deriving DecidableEq, Repr

/-- One local output pair (R158–R160). Ticks count from the start of the carrier period. -/
structure LPair where
  running : Bool
  per : Nat
  on16 : Nat
  perNext : Option Nat
  /-- A completed pair, or a duty alone, waiting for the carrier boundary: period (none: unchanged), on-time in sixteenths. -/
  next : Option (Option Nat × Nat)
  armed : Bool
  /-- Outputs on (logical level). -/
  aOn : Bool
  bOn : Bool
  /-- Trip of this carrier period: A held off (R162). -/
  tripHold : Bool
  /-- Instants of this carrier period still to come at which the ideal output changes (R158): time in sixteenths of a tick, to B. -/
  sched : List (Nat × Bool)
  /-- Turn-on pending in dead time: output B, and its ideal instant in sixteenths from the start of this carrier period. -/
  pendOn : Option (Bool × Int)
  /-- A trip cancelled a turn-on of B, which waits for its next scheduled one (R162). -/
  cancelB : Bool
  /-- Dither counters of A on, A off, B on, B off. -/
  dith : List Nat
  /-- Forced off by a reaction, a latched trip channel or a halt with halt_off, until the first carrier boundary at which nothing
  holds it off (R160, R163, R167). -/
  forced : Bool
  /-- A resume waits for the carrier boundary. -/
  resume : Bool
  /-- The latest edge: its tick in its carrier period, with its dither (R157); output B; on. -/
  edge : Option (Int × Bool × Bool)
deriving DecidableEq, Repr

/-- The Harp. -/
structure Harp where
  carriers : Tbl Carrier
  cells : Tbl CellHarp
  pairs : Tbl LPair
  tripCount : Tbl Nat
  tripLive : BitVec 12
  /-- Trip inputs at their active level, enabled or not. -/
  tripRaw : BitVec 12
  /-- Cell trip channels by 3 × cell + r: rise counts and latches, as the uplink reported them (R165, R166). -/
  ctripCount : Tbl Nat
  ctripLatched : Tbl Bool
  /-- Trip blocks still to be written to nodes: global cells (R166). -/
  ctripDue : List Nat
  /-- A debug halt is in force (R167). -/
  halted : Bool
  /-- The pin gate of the local outputs when the halt began (R29, R167). -/
  gateAtHalt : Bool
  /-- The halt ends at the next boundary (R167). -/
  resumeNext : Bool
  /-- Level of `DBG_PERMIT`. -/
  permit : Bool
  /-- Profiles no longer valid after a length change: i = 8b + p (R153). -/
  invalid : List Nat
  /-- Profile in force per branch (R23). -/
  profile : Tbl Nat
  wordsMax : Nat
  wordsNow : Nat
deriving DecidableEq, Repr

/-! ### Press (chapter 07) -/

/-- A loop descriptor (Table 07-3). `none` points are 0xF_FFFF, `obs` none is 0x7FFF. -/
structure LoopDesc where
  kind : Nat
  level : Nat
  scope : Half
  order : Nat
  nu : Nat
  in0 : Nat
  in1 : Nat
  in2 : Nat
  in3 : Nat
  out : Nat
  loPt : Nat
  hiPt : Nat
  loC : Half
  hiC : Half
  obs : Nat
  grid : Bool
  critical : Bool
  group : Nat
  modeMask : Word
  slew : Nat
  hold : Nat
  tHand : Nat
deriving DecidableEq, Repr

/-- The states of one loop instance (R184–R193, R197). Q9.31 states are exact integers. -/
structure LoopSt where
  /-- Integrators I (kinds 1, 2) or I_0 to I_3 (kind 7); W of kind 8 is `w`. -/
  integ : List Int
  s1 : List Int
  s2 : List Int
  /-- Filter history x1, x2, y1, y2 (R186). -/
  hist : List Int
  /-- Predicted states xm of the observer (R187). -/
  xm : List Int
  w : Int
  theta : Nat
  /-- cos θ and sin θ of the prepare part (R190). -/
  cs : Int × Int
  /-- Slew limiter positions by input number (R191); none: starts at the next run. -/
  lim : List (Option Int)
  /-- Fallback counts and state (R197). -/
  ok : Nat
  bad : Nat
  fb : Bool
  /-- Frames in a row with valid y and a residual above r_max (R187). -/
  resRun : Nat
  /-- Values the slot part of this frame left for the prepare part; empty where the slot part did not run. -/
  prep : List Int
  /-- Outputs of the last run, and the instance ran in the last frame. -/
  outs : List Int
  ran : Bool
deriving DecidableEq, Repr

/-- A hand-over group (R200–R203): its active member; a blend in progress: outgoing member (none: frozen), frozen u_A, the step j of the
next frame and length n. -/
structure HandOver where
  active : Option Nat
  blend : Option (Option Nat × List Int × Nat × Nat)
deriving DecidableEq, Repr

/-- The Press. -/
structure Press where
  loops : Tbl LoopDesc
  /-- Pending descriptors, each with the fields that each queue wrote since the last commit (R336), as a mask. -/
  loopShadow : Tbl (LoopDesc × Tbl Nat)
  /-- Descriptors that an accepted commit applies at the next boundary (R178). -/
  loopStaged : Tbl LoopDesc
  /-- State of each instance; the hand-over groups by number (R200). -/
  st : Tbl LoopSt
  groups : Tbl HandOver
  /-- Coefficient banks A and B by 128 × instance + word; active bank B (R192). -/
  bankA : Tbl Word
  bankB : Tbl Word
  activeB : Bool
  swapPending : Bool
  copyBusy : Bool
  /-- Uncommitted words of the inactive bank that queues wrote: a mask of the queues (R336). -/
  coefOwner : Tbl Nat
  /-- Refusal code of Table 07-2. -/
  refuseCode : Nat
  /-- C of the last frame, of check 5 at the last accepted commit, and its prepare load (Table 07-10). -/
  cost : Nat
  costMax : Nat
  prepLoad : Nat
  /-- Instances omitted in this frame (R50). -/
  omitted : List Nat
  /-- l1_start of this frame in ns (R44). -/
  l1Start : Nat
deriving DecidableEq, Repr

/-! ### Cheddaring balancer, redundancy logic and Level 1 context (chapters 07, 08) -/

/-- The control state of one cell: Level 1 states, role, slot, and the Affinage quantities in force. -/
structure CellCtl where
  role : Role
  slot : Nat
  rank : Nat
  slotAge : Nat
  key : Int
  /-- DAB integrator, Q9.31; PT_VDC_EST; last v, pmv, pd for the prepare part (R195). -/
  dabI : Int
  est : Int
  prep : Option (Int × Int × Int)
  ok : Nat
  bad : Nat
  fb : Bool
  /-- Consecutive frames with |PT_KEY| above dev_max (R219). -/
  devRun : Nat
  /-- A fault decision waits for its T_snap (R216). -/
  decision : Bool
  /-- The role the cell had at its fault decision was Inserted. -/
  wasInserted : Bool
  /-- Frame by which the bypass must be confirmed (R217), or the restore (R218). -/
  bypBy : Option Nat
  restBy : Option Nat
  /-- byp command of the next lists: 2 while a restore opens the bypass (R218). -/
  bypOpen : Bool
  /-- Share weight, current limit, frequency offset, dead-time trims, preferred-spare mark in force (Table 01-4). -/
  weight : Half
  ilim : Half
  fo : Nat
  trims : List Nat
  pref : Bool
deriving DecidableEq, Repr

/-- The control state of one branch. -/
structure BranchCtl where
  /-- Armed for RUN (R207, R461); ARM goes with this boundary and carriers start at the next. -/
  armed : Bool
  entered : Bool
  rho : Nat
  nAct : Nat
  /-- Carrier periods completed since RUN entry. -/
  periods : Nat
  /-- Snapshots in a row with high headroom use (R219). -/
  hrRun : Nat
  /-- Spares are exhausted: more departures than Spares (R216). -/
  exhausted : Bool
  /-- Last profile request that was refused (R194). -/
  badProf : Option Nat
  /-- An accepted restart waits for its boundary; a restart under R242 precharges the branch. -/
  restart : Bool
  joining : Bool
  /-- Cells that left at this snapshot need a new slot assignment (R216). -/
  reslot : Bool
  /-- A class-2 reaction has parked the branch, and it has not been armed since (R242). -/
  classTwo : Bool
deriving DecidableEq, Repr

/-- Twin roles. -/
inductive TwinRole where
  | off | primary | standby
deriving DecidableEq, Repr

/-- Twin operation (chapter 08). Times in 1/64 ns. -/
structure Twin where
  role : TwinRole
  epoch : Nat
  /-- Arrival of the peer's latest P-MARK less its nominal F(k) and corr, per R223; the peer's report of ours. -/
  tOwn : Option Int
  tPeer : Option Int
  theta : Int
  pPeer : Int
  thetaOk : Nat
  ready : Bool
  mirrorsOk : Nat
  calValid : Bool
  /-- Remaining frames of a far-end calibration (R228) and e_far per branch. -/
  calLeft : Option Nat
  eFar : Tbl Int
  /-- Heartbeat deadlines missed in a row (R229). -/
  hbMiss : Nat
  /-- ROLE of the primary seen since the last missed deadline; what the last valid heartbeat said; the peer claims primary too. -/
  roleSeen : Bool
  peerReady : Bool
  peerDigest : Option Word
  peerYield : Bool
  clash : Bool
  /-- Peer's k and own k at the first heartbeat heard; the two have since drifted apart: the peer's frames have another length. -/
  peerK : Option (Nat × Nat)
  peerDiff : Bool
  /-- Frame of a planned swap: this device hands over (primary) or takes over (standby). -/
  swapAt : Option Nat
  /-- The last heartbeat heard, its k and half, which comes on both lanes; the half that the next one of the primary is to have (R229). -/
  hbLast : Option (Nat × Bool)
  hbHalf : Bool
  /-- Mirror being received: the chunks held, and the frame in which the first came; a complete mirror waiting for its T_snap. -/
  rxChunks : Tbl (List Byte)
  rxFrom : Nat
  mirror : Option (List Byte)
  /-- State words of the shadow loops at the end of the last compute phases: frame, and instance, index, value (R226). -/
  shadow : List (Nat × List (Nat × Nat × Int))
  /-- Rotating position of the loop records sent (R225). -/
  rotPos : Nat
  /-- After a takeover: the frame from which the device computes as primary. -/
  computeFrom : Option Nat
deriving DecidableEq, Repr

/-! ### Modes (chapter 09) -/

/-- Converter states in the code order of `MODE_STS.conv`. -/
inductive Conv where
  | parked | precharge | run | rampDown | safe
deriving DecidableEq, Repr

/-- The mode logic. -/
structure Mode where
  conv : Conv
  /-- Frames since the present converter state was entered. -/
  inState : Nat
  /-- Events waiting for the boundary (Table 09-2): an accepted start, stop; a class-3 or Cellar reaction; a class-4 reaction;
  a class-2 reaction that left a phase with no armed branch; precharge complete, timeouts. -/
  startReq : Bool
  stopReq : Bool
  tripReq : Bool
  safeReq : Bool
  phaseLost : Bool
  preDone : Bool
  preTimeout : Bool
  rdDone : Bool
  rdTimeout : Bool
  /-- Frames in a row that meet R240, and that have every limit point at 0. -/
  preRun : Nat
  rdRun : Nat
  joinRun : Tbl Nat
  joinDone : BitVec 12
  formed : Bool
  /-- Frames in a row with |V| valid and at or above v_ok (R249); the formed event waits for the boundary. -/
  formRun : Nat
  formReq : Bool
  /-- Ride-through: active, waiting entry or exit, counts and frames since entry, t_max has been reported in this episode (R247). -/
  rt : Bool
  rtEnter : Bool
  rtExit : Bool
  rtOut : Nat
  rtIn : Nat
  rtFor : Nat
  rtLong : Bool
  /-- Grid, flow and per-group LV values in force at entry; a deferred commit's values wait (R248). -/
  held : Option (Nat × Nat × BitVec 12)
  deferred : Bool
  /-- Requested grid, flow and LV values as the latest boundary outside RIDE-THROUGH took them. -/
  req : Nat × Nat × BitVec 12
  /-- Effective mode word and per-group LV (Table 09-5), as last written. -/
  eff : Word
  lvEff : BitVec 12
  /-- Refusal code of Table 09-7. -/
  refuseCode : Nat
  /-- Limit points 261–265, exact (Table 09-4). -/
  lim : List Int
  /-- A plan application that fell due during RIDE-THROUGH (R248). -/
  planDue : Bool
deriving DecidableEq, Repr

/-! ### Affinage (chapter 10). Real quantities are IEEE 754 binary32 words. -/

/-- One switch's ageing state. -/
structure Wear where
  /-- Foster nodes 1–4, correction c, fusion stopped until the next epoch (R260, R261). -/
  node : List Word
  c : Word
  stopped : Bool
  tjModel : Word
  /-- p(s) of the last accepted frame, sum of p over the frames of the present step. -/
  p : Word
  pSum : Word
  /-- Latest valid PT_VON, and the latest turn-off sample of the step: t_off and |i| (R261). -/
  von : Option Half
  toff : Option (Half × Word)
  /-- Drift window: samples and the sums of their v_on, t_off and |i| codes (R265); δ_off in force. -/
  drN : Nat
  drVon : Int
  drToff : Nat
  drI : Int
  dOff : Word
  /-- Rainflow: last extreme and direction up, residue stack oldest first, queued cycles (range, mean, full) (R262, R263). -/
  ext : Option (Word × Option Bool)
  stack : List Word
  queue : List (Nat × Nat × Bool)
  /-- Damage accumulator D in units of 2^−40, and the growth of the present epoch interval (R264). -/
  dmg : Nat
  dDmg : Nat
  peak : Word
  /-- The fused tj of the latest step, and PT_VON_DRIFT of the latest epoch (R261, R265). -/
  tj : Word
  vonDr : Half
deriving DecidableEq, Repr

/-- One cell's planning state (R269–R271). -/
structure Plan where
  /-- Coefficient block valid (R257); paused, frames in a row without an accepted uplink (R259). -/
  valid : Bool
  paused : Bool
  missing : Nat
  rn : Word
  life : Nat
  /-- Targets as published by the latest plan, and the targets that applications move to: weight, limit, offset, spare, trims. -/
  pubW : Half
  pubI : Half
  pubFo : Nat
  pubSpare : Bool
  pubDt : List Nat
  /-- Targets of an epoch whose work is not complete: weight, limit, offset, spare, trims. -/
  pend : Option (Half × Half × Nat × Bool × List Nat)
  tgtW : Half
  tgtI : Half
  tgtFo : Nat
  tgtSpare : Bool
  tgtDt : List Nat
  /-- Hours since each applied quantity last changed: weight, limit, offset, then trims (Table 10-3). -/
  hrs : List Nat
  /-- Heat-sink temperature codes of the epoch: sum and count. -/
  thsSum : Int
  thsN : Nat
  /-- The last valid PT_THS (R260). -/
  ths : Option Half
  /-- PT_AFF_STS bits 2 and 3: horizon unreachable, capacitor limit. -/
  unreach : Bool
  capLim : Bool
  /-- Capacitor fit in progress: frames left, frames lacking a pair, sums over x1, x2, y; last pair of tail values; retries today. -/
  fit : Option (Nat × Nat × List Word)
  fitPrev : Option (Word × Word)
  retries : Nat
  /-- Station seconds of the last accepted fit. -/
  capAt : Option Nat
  /-- PT_CAP_UF, PT_ESR_UOHM and PT_CAP_REL of the last accepted fit (R266, R356). -/
  capUf : Half
  capEsr : Half
  capRel : Half
  /-- Lost counted rainflow cycles (PT_RF_LOST). -/
  rfLost : Nat
deriving DecidableEq, Repr

/-- The quantities applied to a cell: weight, limit, offset, trims, spare mark. -/
structure Applied where
  weight : Half
  ilim : Half
  fo : Nat
  trims : List Nat
  pref : Bool
deriving DecidableEq, Repr

/-- The Affinage store as persisted (R356): sequence number of the image and what it holds. -/
structure AffStore where
  seq : Nat
  wear : Tbl Wear
  plans : Tbl Plan
  bins : Tbl Nat
  binsOld : Tbl Nat
  planSeq : Nat
  planForce : Nat
  lastEpoch : Nat
  hdDay : Int × Nat
  hdDayNo : Nat
  hdMeans : List (Nat × Word)
  eol : Nat
  /-- Gains in force, a plan that awaits acceptance, day of the last capacitor fits. -/
  gains : List Half
  proposed : Bool
  capDay : Nat
  applied : Tbl Applied
deriving DecidableEq, Repr

/-- The Affinage unit. -/
structure Aff where
  wear : Tbl Wear
  plans : Tbl Plan
  seq : Nat
  /-- Sequence number of the plan in force, whose targets applications move to (Table 08-7). -/
  inForce : Nat
  /-- Epoch work is in progress; a plan awaits acceptance (R31, R273). -/
  busy : Bool
  proposed : Bool
  /-- Policy as the latest application boundary took it. Whole hours of station time, plus one: of that boundary (R271, R272); of the
  latest epoch that fell on one (R273). -/
  pol : Nat
  hourAt : Nat
  epochHour : Nat
  /-- The same at the boundary before, and at the latest boundary; 0 before the first (R271). -/
  hourPrev : Nat
  hourNow : Nat
  /-- Epoch work waits for the end of shedding (R273). -/
  deferred : Bool
  /-- Gains of R258 as the latest epoch took them; frame of the last Foster step, plus one. -/
  gains : List Half
  stepAt : Nat
  lastEpoch : Nat
  /-- Matrix bins as of the last epoch, by 256 × switch + bin. -/
  binsOld : Tbl Nat
  /-- Die loop (R274–R276): lowest margin of the epoch and its monitor, margin of the last epoch, core voltage and bias codes, last
  acknowledged voltage code, attempts of the write in progress, headroom daily sums and means, end of life, its latch. -/
  mLow : Option (Nat × Nat)
  marginMin : Nat
  worstMon : Nat
  fbb : Nat
  vAck : Nat
  /-- Exponent of the regulator's ULINEAR16 format, once boot has read it (R275). -/
  vExp : Option Int
  vWant : Option Nat
  attempts : Nat
  pmbusFail : Bool
  hdDay : Int × Nat
  hdDayNo : Nat
  hdMeans : List (Nat × Word)
  eol : Nat
  eolHi : Half
  capDay : Nat
  /-- Plan and ageing image that a primary is sending: its next record, the one after its last, and the copy of the store; the hour, plus
  one, of the plan application ahead of which one last went (R223). -/
  imgSend : Option (Nat × Nat × AffStore)
  imgHour : Nat
  /-- What a standby's image says of the quantities applied to each cell, until a boundary takes it, and that it has all come (R31). -/
  appNext : Tbl Applied
  appReady : Bool
deriving DecidableEq, Repr

/-! ### Cellar (chapter 12). Temperatures in 1/16 °C. -/

/-- Cellar states (Table 12-2). -/
inductive CellarMode where
  | normal | warn | shed | shutdown
deriving DecidableEq, Repr

/-- The Cellar. Node rises are held with 16 further fraction bits, T_base with 16 (R304, R305). -/
structure Cellar where
  mode : CellarMode
  rise : List Int
  base : Int
  baseOk : Bool
  tC : Int
  hot : Nat
  /-- T_i and the assigned power of each node at the latest update. -/
  temp : List Int
  power : List Nat
  /-- Latest readings (none: invalid), diodes converted since reset, model at the same reading, runs of high readings, of mismatches
  and of agreements per diode. -/
  diode : List (Option Int)
  seen : BitVec 4
  diodeModel : List Int
  hiRun : List Nat
  missRun : List Nat
  okRun : List Nat
  mismatch : Bool
  clkFb : Bool
  peak : Int
  /-- Shutdown latch and record (Table 12-8), held in the Wax domain. -/
  sdLatch : Bool
  sdTemp : Int
  sdWhere : Nat
  sdDiode : Bool
  sdCount : Nat
  sdTime : Nat
  sdTimeHi : Half
deriving DecidableEq, Repr

/-! ### Rind (chapter 11) -/

/-- The state of one fault source (Table 11-1), with its first-fault record (Table 11-2). The configured class stands in the
register file. `cond` is the condition its owner last reported (condition sources), `evNow` that the source had an event in the
present frame window (event sources). -/
structure Src where
  live : Bool
  cond : Bool
  evNow : Bool
  sticky : Bool
  force : Bool
  applied : Nat
  latch : Bool
  /-- A class-3 reaction set the latch (R286); `applied` may since be lower. -/
  latch3 : Bool
  /-- A class-2 reaction set the latch (R285); `applied` may since be another. -/
  latch2 : Bool
  /-- The branches that class-2 reactions under this latch have parked (Table 11-4; R34 for the errors of one SRAM region). -/
  brs : BitVec 12
  /-- An event source had an event in the window before: its condition until the next boundary (R280). -/
  evPrev : Bool
  /-- Record: station time of the first rise (quarter ns), its k, detail, applied class and flags at the first rise. -/
  time : Nat
  k : Nat
  detail : Word
  recCls : Nat
  flags : Nat
  count : Nat
  lastK : Word
deriving DecidableEq, Repr

/-- Rind's own state. -/
structure Rind where
  /-- Sources by source index s (R279). -/
  src : Tbl Src
  /-- `RIND_FIRST`: index and applied class (R283). -/
  first : Option (Nat × Nat)
  /-- `first` was taken in the present row, whose rises count as those of one clock cycle. -/
  firstNow : Bool
  /-- The lockout latch and `RIND_LOCK_REC`, held in the Wax domain (R287). -/
  lockout : Bool
  lockRec : Word
  /-- `TRIP_N` and `SAFE_N` asserted. -/
  tripN : Bool
  safeN : Bool
  /-- trip_hold ms have not yet passed since the latest assertion (R286). -/
  holding : Bool
  /-- Frames of the latest assertion of `TRIP_N` and of the latest restart of the host watchdog's period. -/
  tripK : Nat
  wdK : Nat
  /-- The asserting conditions that are not latches: the Cellar shutdown (R32), reset or start-up (R408). -/
  tripBoot : Bool
  /-- Sources raised by a reaction, a log entry or an event ring, still to be taken: source and detail. -/
  todo : List (Nat × Word)
  /-- Corrected single-bit errors by SRAM region, 16 bits, stopping (R34). -/
  sbe : Tbl Nat
deriving DecidableEq, Repr

/-! ### Cave and Vat arbiters (chapter 14) -/

/-- `CAVE_TRC_STS.state`. -/
inductive TraceMode where
  | stopped | recording | post | frozen
deriving DecidableEq, Repr

/-- A recorded frame: k, flags of Table 14-3, F(k) in quarter ns, values. -/
structure TraceRec where
  k : Nat
  gap : Bool
  trig : Bool
  first : Bool
  bad : Bool
  time : Nat
  vals : List Half
deriving DecidableEq, Repr

/-- An event log entry (Table 14-5). -/
structure LogEntry where
  typ : Nat
  bad : Bool
  index : Word
  time : Nat
  k : Nat
  detail : List Byte
deriving DecidableEq, Repr

/-- A requester's state on one channel (R358–R361). Times in nanoseconds. -/
structure VatReq where
  loss : Nat
  wait : Nat
  backoff : Nat
  starving : Bool
deriving DecidableEq, Repr

/-- The Cave. -/
structure Cave where
  mode : TraceMode
  src : Nat
  list : List Nat
  listNext : Option (List Nat)
  firstRec : Bool
  /-- The next record is the first after a wake (R403). -/
  gapNext : Bool
  ring : List TraceRec
  /-- Trigger: point, level, edge code, pre, post; the trigger frame and post length in force; last value of the trigger point. -/
  arm : Option (Nat × Half × Nat × Nat × Nat)
  trigK : Option Nat
  preLen : Nat
  postLen : Nat
  lastVal : Option Half
  /-- A re-arm waits for the boundary; triggers that were ignored (CAVE_TRC_STS). -/
  rearmNext : Bool
  ignored : Nat
  /-- The event log, its newest index, it holds an entry, the index of its first entry, entries overwritten and lost (R354). -/
  log : List LogEntry
  logNew : Word
  logAny : Bool
  logFirst : Word
  logOvr : Nat
  logLost : Nat
  /-- Rainflow matrices by 256 × switch + bin (R263). -/
  bins : Tbl Nat
  /-- Eye maps by lane: header and counts (R79). -/
  eyes : Tbl (List Byte)
  /-- Completed eye maps that wait for the eye-scan dump (R79): lane, map. -/
  eyeDump : List (Nat × List Byte)
  /-- The next slot of the Rind snapshots (Table 14-6). -/
  snapshots : Nat
  /-- The Rind snapshots: the records of each slot as the rise found them (Table 14-6). -/
  snapSlots : Tbl (Tbl Src)
  /-- Station time (quarter ns) of the latest Rind snapshot, for snap_skip (R357). -/
  snapTime : Option Nat
  /-- The Press spill ring, oldest first (R357). -/
  spill : List (List Byte)
  /-- Corrected and uncorrectable error counts of the Cave by channel, and the switches whose matrix was lost (R347). -/
  sbe : Tbl Nat
  dbe : Tbl Nat
  badSwitch : List Nat
  /-- Bursts of the Rind snapshots, the Press spill ring and the eye maps that read uncorrectable (Table 14-2). -/
  badSlots : List Nat
  /-- Bytes of trace records and of log entries that wait in staging while their requester starves (R349, R354). -/
  trcStage : Nat
  logStage : Nat
  /-- Persist: lost switches that its image left out; busy, copy being written, start time, waits for the end of shedding, days since the last success, sequence. -/
  persBad : Nat
  persist : Option (Nat × Nat)
  persImg : Option AffStore
  persCopy : Nat
  persDue : Bool
  persDays : Nat
  persDay : Nat
  persSeq : Nat
  /-- Vat: requesters by 16 × channel + code; mapping in force stands in the register file. -/
  vat : Tbl VatReq
  /-- Wait maxima (16 ns units) and grant counts by 16 × channel + input. -/
  waitMax : Tbl Nat
  grants : Tbl Nat
deriving DecidableEq, Repr

/-! ### Starter, Station Time Unit (chapter 15) -/

/-- Relock progress (R373). -/
inductive Relock where
  | idle | locking | holding | ready | failed
deriving DecidableEq, Repr

/-- The Starter. -/
structure Clock where
  relock : Relock
  locked : Bool
  onSafe : Bool
  band : Nat
  entry : Nat
  refUse : Bool
  vtune : Bool
  nw : Nat
  nwLock : Nat
  refuseCode : Nat
  /-- Per reference, 0–1 `REFCLK` and 2–4 `LREFCLK`: absent now; failing R366 until a whole good window; present since the present
  window began. -/
  absent : BitVec 5
  offFreq : BitVec 5
  goodWin : BitVec 5
  /-- Relock wanted at the next boundary (commit), reference it takes. -/
  relockNext : Option Bool
  /-- Dividers restarted by SYNC_IN, and when: core cycles left to the first rising edge, per output. -/
  sync : List (Option Nat)
  /-- Times of all nodes unlocked because of a failed relock: hold of F_WL_TIME (R374, R395). -/
  holdTime : Bool
deriving DecidableEq, Repr

/-- `STU_PTP_STS.quality` (Table 15-12). -/
inductive Quality where
  | free | acquiring | locked | holdover | set
deriving DecidableEq, Repr

/-- PTP port states (Table 13-37). -/
inductive PtpPort where
  | disabled | listening | passive | slave | faulty
deriving DecidableEq, Repr

/-- A master an Announce named on a port. -/
structure Master where
  /-- sourcePortIdentity of its Announce messages. -/
  sender : List Byte
  /-- What the Announce said: grandmasterIdentity, clockClass, stepsRemoved, the data set that R381 compares, UTC offset and its
  validity. -/
  grandmaster : List Byte
  cls : Nat
  steps : Nat
  rank : List Nat
  utc : Half
  utcValid : Bool
deriving DecidableEq, Repr

/-- An event message sent whose send stamp is still to come: its port, a response (or a delay request), sequenceId, the requester's
port identity and the correction of its request. -/
structure Sent where
  port : Nat
  resp : Bool
  seq : Half
  who : List Byte
  corr : Int
deriving DecidableEq, Repr

/-- A time pulse output as armed (R386): schedule in quarter ns, its next edge, the end of the active pulse. -/
structure Pulse where
  start : Nat
  period : Nat
  width : Nat
  next : Option Nat
  till : Option Nat
deriving DecidableEq, Repr

/-- Station time and PTP. Station time in 2^−32 quarter nanoseconds. -/
structure Stu where
  /-- Station time of F(k) of the current frame. -/
  time : Nat
  /-- Ticks of the present frame that passed at another rate, and what station time advanced over them, in 2^−32 quarter ns (R379). -/
  cut : Nat × Nat
  /-- Servo rate y and integrator I in 2^−40. -/
  y : Int
  i : Int
  /-- The quality of station time (R383, R384). -/
  quality : Quality
  /-- Latest offset o and filtered path delay in quarter ns (R383). -/
  offset : Int
  dly : Int
  /-- A step of station time waits (R380): amount in quarter ns (relative), from TIME_SET. -/
  step : Option (Int × Bool)
  /-- Offsets in a row within the lock limit; station time (quarter ns) of the loss of lock; 60 s in ACQUIRING or FREE have passed
  (source 808). -/
  okRun : Nat
  lostAt : Nat
  alarm : Bool
  /-- The PTP ports, and the master that each hears (R381). -/
  ports : List PtpPort
  masters : List (Option Master)
  /-- What the latest accepted Announce named (Table 13-37). -/
  lastMaster : Option Master
  /-- Pending two-step Sync per port: sequenceId, receipt stamp, correction, interval. -/
  sync2 : List (Option (Half × Int × Int × Int))
  /-- Path delay: samples, discards in a row; delay request in progress per port: sequenceId, send stamp, response stamps. -/
  dlyHist : List Int
  discards : Nat
  req : List (Option (Half × Option Int × Option (Int × Int)))
  seqId : Half
  lastStamp : Option Nat
  /-- Stamps not yet matched with their message: receive stamps per port, and what waits for its send stamp, per port (R382). -/
  rxStamps : List (Option Int)
  sentQ : List Sent
  /-- Receipt stamp less origin time and corrections of the latest Sync, quarter ns (R383). -/
  syncDiff : Option Int
  /-- Event messages without a stamp (R382); station time (quarter ns) of the latest accepted offset; the output pulses (R386). -/
  unstamped : Nat
  lastOff : Option Nat
  pulses : List Pulse
  /-- Captures per input: time, count, read, coarse, valid; latched high part. -/
  caps : List (Nat × Nat × Bool × Bool × Bool)
  capLatch : List (Word × Word)
  timeLatch : Half × Word
deriving DecidableEq, Repr

/-! ### Power (chapter 16) -/

/-- Power states in the code order of `PWR_STS.state`. -/
inductive PowerMode where
  | run | idle | cure
deriving DecidableEq, Repr

/-- The power state and its Wax-held part. -/
structure Power where
  mode : PowerMode
  /-- An accepted PWR_IDLE; an accepted PWR_CURE; the end of IDLE by code (R394). -/
  idleReq : Bool
  cureReq : Bool
  exitReq : Option Nat
  entering : Bool
  /-- Wake progress: none, 1 waiting for power-good, 2 for oscillator-ready, 3 waiting 10 ms for a retry. -/
  wakeStep : Option Nat
  /-- The state R397 returns to, and whether PTP ran and the quality was locked at entry. -/
  from_ : PowerMode
  ptpOn : Bool
  /-- `WAKE_N` has gone low since the last reset; no row tells its release. -/
  wakeNSeen : Bool
  /-- Sources held pending by cellar_hold (R402). -/
  held : List Nat
  /-- Wax-held fields of Tables 16-5 to 16-7. -/
  lastSrc : Nat
  wakeFail : Bool
  cellarHold : Bool
  railUv : BitVec 9
  caveLost : Bool
  retLost : Bool
  srcMask : BitVec 6
  attempts : Nat
  waxCal : Nat
  waxCnt : Nat
  cntHi : Half
  /-- t0 of R396 in 2^−32 quarter ns; the alarm count. -/
  t0 : Nat
  alarm : Nat
  /-- The station seconds the latest PWR_CURE named, 0 none; the count follows from them at the entry. -/
  alarmAt : Nat
  /-- The Wax frequency f_w × 2^16 that the STU measured in its latest complete window. -/
  fW : Nat
  /-- Rails below UV and above OV now, and OV crossings seen in CURE. -/
  uv : BitVec 9
  ov : BitVec 9
  ovCure : BitVec 9
  /-- UV crossings of the present CURE; the sources are held pending after a diode crossing of it (R402, R405). -/
  cureUv : BitVec 9
  holdOn : Bool
  /-- `PWR_CFG` and `PWR_WAKE_CFG` as taken at the latest entry or wake (R406). -/
  cfg : Nat
  wakeCfg : Nat
  /-- Cells whose sources R395 holds at 0. -/
  suppressed : List Nat
  /-- CONV_START waits for all_locked (R395). -/
  lockWait : Bool
deriving DecidableEq, Repr

/-! ### Reset and boot (chapter 17) -/

/-- A saved image in flash: sequence number and the words it holds, by BAR0 address or by the key its owner uses. -/
structure Image where
  seq : Nat
  words : Tbl Word
deriving DecidableEq, Repr

/-- The external flash (R412). `raw` holds the boot records and both firmware slots byte by byte, listing only bytes that differ from
0xFF; the other regions are held as the images saved in their two copies. -/
structure Flash where
  raw : Tbl Byte
  /-- RWU fields and user calibration; cell map (b × 64 + position: global cell, serial words); Affinage store. -/
  rwu : List (Option Image)
  map : List (Option Image)
  aff : List (Option AffStore)
  /-- Saved configuration: sequence number and the image bytes of R435. -/
  cfg : List (Option (Nat × List Byte))
deriving DecidableEq, Repr

/-- Boot state. -/
structure Boot where
  stage : Nat
  ready : Bool
  slot : Bool
  fallback : Bool
  cfgLoaded : Bool
  mapLoaded : Bool
  rwuLoaded : Bool
  readyMs : Nat
  /-- Straps: the latched value, the first sample of a release (R410), a sample awaits its repeat. -/
  straps : BitVec 12
  sample : BitVec 12
  sampling : Bool
  /-- `SYS_RST_STS`: por, porst, rst_pin, cmd, cellar, ret_lost, bits 0–5. -/
  rstSts : BitVec 6
  /-- `RST_N` and `PORST_N` are low. -/
  rstLow : Bool
  porstLow : Bool
  /-- The always-on supply stands above its power-on threshold. -/
  aonUp : Bool
  /-- The firmware runs; the recovery set is served (R416). -/
  firmware : Bool
  recovery : Bool
  /-- Version word of the running image. -/
  version : Word
  /-- Boot window bytes (R428) and `SYS_BOOT_CTL.go`. -/
  window : Tbl Byte
  go : Bool
  /-- HOLD-BUS in force (R420); it was started by the TB576; R423 waits for the key cycle: 0 no, 1 for PT_ARM 0 for 1 s, 2 for its
  return to 1; frames since PT_ARM last read 1 or the cycle was asked for. -/
  holdBus : Bool
  hbOwn : Bool
  hbCycle : Nat
  hbLow : Nat
  /-- Station times (quarter ns) of the automatic starts (R422). -/
  hbStarts : List Nat
  /-- Boot ends in WATCH whatever the strap says (R312). -/
  watch : Bool
  /-- Boot bound queue 30 as the status queue (R419). -/
  statusQueue : Bool
  /-- Attempts left of the twin block retry (R415). -/
  twinRetry : Nat
  /-- The words of the twin block that is tried again (R415). -/
  twinWords : Tbl Word
  /-- REFCLK_0 absent at boot: REFCLK_1 is used (R450). -/
  refFallback : Bool
  /-- Output levels of GPIO 0–15 that the TB576 itself drives: 14 and 15 of Table 17-6, `osc_gpio`, `role_gpio`. -/
  gpioOut : BitVec 16
  /-- `PLL_LD` is held high (R370); while it is not, it is high for the duration of each phase error pulse only. -/
  pllLd : Bool
  /-- What each `CLKOUT_n` carries: its source (0 core, 1 reference, 2 safe clock), divider, and the source cycles of its high phase; none
  while it is low (R376). -/
  clkOut : List (Option (Nat × Nat × Nat))
  /-- Driven GPIO; serial number of the device; the flash (R412). -/
  gpioDrive : BitVec 16
  serial : Nat
  flash : Flash
deriving DecidableEq, Repr

/-! ### Commands (chapter 13) -/

/-- A lock scope: depth 0 station, 1 phase, 2 branch, 3 cell, and its number (R333). -/
structure LockKey where
  depth : Nat
  num : Nat
deriving DecidableEq, Repr

/-- A held lock. -/
structure Lock where
  queue : Nat
  key : LockKey
  hold : Nat
  /-- Station time (quarter ns) of the owner's last command whose target overlapped it. -/
  since : Nat
deriving DecidableEq, Repr

/-- Queue states in the code order of `CMD_Q_STS.state`. -/
inductive QMode where
  | disabled | active | error | resetting
deriving DecidableEq, Repr

/-- What a waiting command waits for (the wait points of R321). -/
inductive Wait where
  | lock (key : LockKey) (hold : Nat)
  | bulk (cell : Nat) (write : Bool) (addr len : Nat) (data : List Byte)
  | eye (cell : Nat) (addr left : Nat) (got : List Byte)
  | trip (cell chan : Nat)
  | disc (br : Nat)
  | restore (cell : Nat)
  | calibrate
  | copy
  | epoch
  | flash
  | boundary (k : Nat)
  | dma (result : Nat) (reply : List Byte)
deriving DecidableEq, Repr

/-- A command in execution at a wait point. -/
structure Waiting where
  queue : Nat
  opcode : Half
  packet : Packet
  wait : Wait
deriving DecidableEq, Repr

/-- A completion with its reply, as kept for replay on UDP (R330) and for SPI_FETCH (R331). -/
structure Done where
  tag : Half
  crc : Word
  bytes : List Byte
deriving DecidableEq, Repr

/-- One command queue (R327). Its configuration, bases, doorbells and drop counter stand in the register file. -/
structure Queue where
  mode : QMode
  sqHead : Nat
  cqTail : Nat
  phase : Bool
  err : Nat
  /-- Fetched or received commands waiting to be executed, oldest first. -/
  ready : List (Half × Packet)
  /-- The last 16 completions of a UDP queue (R330). -/
  replay : List Done
  /-- The completion and reply held for the SPI host (R331). -/
  spi : Option (List Byte)
  /-- Ethernet port, source MAC, IPv4 address and UDP port of the latest accepted datagram. -/
  peer : Option (Nat × Nat × Nat × Nat)
  /-- Scopes of broken locks whose owner's next overlapping command fails with ST_LOCK_EXPIRED (R336). -/
  expired : List LockKey
deriving DecidableEq, Repr

/-- One event ring (R328). -/
structure EvRing where
  tail : Nat
  dropped : Nat
  phase : Bool
deriving DecidableEq, Repr

/-- The command processor. -/
structure Cmd where
  queues : Tbl Queue
  waits : List Waiting
  locks : List Lock
  /-- Scopes whose lock broke: the next grant of an overlapping lock completes with ST_LOCK_BROKEN (R336). -/
  broken : List LockKey
  /-- The event rings (R328). -/
  rings : Tbl EvRing
  /-- Pending vectors (`CMD_INT_PEND`) as last signalled, bits 0–41. -/
  pend : BitVec 42
  /-- Messages pending while their vector is masked (MSI-X pending-bit array). -/
  pba : BitVec 64
  /-- `INT_N` asserted. -/
  intN : Bool
  /-- PCIe link up (R342). -/
  link : Bool
  /-- `CMD_STS` attention bits: bar_refused, q_error, lock_broken, restarted. -/
  sts : BitVec 4
deriving DecidableEq, Repr

/-! ### Outputs -/

/-- What waits for a lane's next slab times, and what the device or a cell node has put on a bus or a host transport, since the last
frame boundary. -/
inductive Tx where
  /-- A message for lane n: its slab type, `first` for a message part, and its bytes. -/
  | lane (n : Nat) (typ : SlabType) (bytes : List Byte)
  /-- A message a cell node sends or forwards out of a port. -/
  | node (cell : Nat) (portB : Bool) (bytes : List Byte)
  /-- A node's training burst. -/
  | nodeTrain (cell : Nat) (portB : Bool)
  /-- A write to host memory (completion, reply or event entry). -/
  | dma (addr : Nat) (bytes : List Byte)
  /-- A datagram: Ethernet port, MAC, IPv4 address, UDP port, payload. -/
  | udp (port mac ip udpPort : Nat) (bytes : List Byte)
  /-- Another Ethernet frame (ARP, ICMP, PTP). -/
  | eth (port : Nat) (bytes : List Byte)
  /-- An MSI-X message: address and data. -/
  | msi (addr : Nat) (data : Word)
  /-- A PMBus write of VOUT_COMMAND: the regulator's address and the data word; a read of its VOUT_MODE (R275). -/
  | pmbus (addr : Nat) (data : Half)
  | pmbusMode (addr : Nat)
deriving DecidableEq, Repr

/-! ### The machine -/

/-- The whole device. -/
structure State where
  regs : Regs
  frame : Frame
  lanes : Tbl Lane
  brs : Tbl Branch
  links : Tbl CellLink
  nodes : Tbl Node
  curd : Curd
  harp : Harp
  press : Press
  ctls : Tbl CellCtl
  brCtls : Tbl BranchCtl
  twin : Twin
  mode : Mode
  aff : Aff
  cellar : Cellar
  cave : Cave
  clk : Clock
  stu : Stu
  rind : Rind
  power : Power
  boot : Boot
  cmd : Cmd
  tx : List Tx
  /-- The model's own counter of free values drawn (no part of the device). -/
  fresh : Nat
  /-- Commands waiting, first in first out. -/
  pending : List Instr
deriving DecidableEq, Repr

/-! ### Reset values -/

/-- A source that has never risen (Table 11-1). -/
def Src.zero : Src :=
  ⟨false, false, false, false, false, 0, false, false, false, 0, false, 0, 0, 0, 0, 0, 0, 0⟩

/-- A queue after reset (Tables 13-27 to 13-29). -/
def Queue.zero : Queue := ⟨.disabled, 0, 0, true, 0, [], [], none, none, []⟩

/-- An event ring after reset. -/
def EvRing.zero : EvRing := ⟨0, 0, true⟩

/-- A transmitter and a receiver at rest; their scramblers start with all ones (DESIGN CHOICE, log entry 102). -/
def LaneTx.zero : LaneTx := ⟨2 ^ 58 - 1, [], [], 0, 100, 0, []⟩
def LaneRx.zero : LaneRx := ⟨2 ^ 58 - 1, 0, [], false, none, none, [], 0, false, 0, false, 0, true⟩

/-- A lane after reset: DOWN, no attempt made yet (Table 03-8). -/
def Lane.zero : Lane :=
  { mode := .down, lock := false, sig := false, coding := false, tx := .zero, rx := .zero, linkSeen := false, trained := false,
    fails := 0, sinceTry := 0, firstTry := true, retry := false, keepAlive := false, sinceKeep := 0, eqHeld := false,
    eidleSeen := false, goodWins := 0, eye := none, scan := none, parkPend := none, codingAt := [] }

/-- A branch of which nothing is discovered (Table 04-16). -/
def Branch.zero : Branch :=
  ⟨0, 0, none, false, 63, 63, 0, false, .idle, false, none, none, none, none, 0, false, []⟩

/-- What the TB576 holds of a cell outside the cell map. -/
def CellLink.zero : CellLink :=
  { inMap := false, ident := [], rd := 0, rdBuf := [], viaB := false, fact := none, factBad := false, head := none, umark := none,
    dHist := [], pathSent := none, pathFirst := none, lup := none, terr := 0, terrRun := 0, gotUp := false, missUp := 0,
    nstate := 0, timeLocked := false, byClosed := false, ports := 0, wasLocked := false, bulk := none, armed := none }

/-- A trip channel of a node with its reset parameters. -/
def NodeTrip.zero : NodeTrip := ⟨false, false, 0, 0, false, []⟩

/-- A node's transmitter with nothing in progress. -/
def NodeTx.zero : NodeTx := ⟨0, 0, 0, [], [], []⟩

/-- A cell node before its supply comes up: in INIT, gates off (R114). -/
def Node.zero : Node :=
  { mode := .init, present := false, portUp := 0, portSig := 0, pos := 63, nb := 0, hopsA := none, hopsB := none,
    token := none, serve := none, splitOn := false, splitNext := none, k := 0, counted := false, len := 0, ticks := 0, announce := [], coding := false,
    rxList := none, curList := none, prevList := none, miss := 0, staleRun := false, armAt := none,
    gates := 0, offTick := [], fired := [], mOn := [], mOff := [], byClosed := false, byClosing := false, trips := [],
    tripSince := 0, ilock := 0, gdFault := 0, gdUv := 0, tOn := [], tOff := [], fwdDrop := 0, err := 0, path := none,
    markRx := 0, corrDn := 0, good := 0, bad := 0, noMark := 0, locked := false, ignoreMarks := false, samples := [],
    tsts := 0, mem := [], headSent := none, txA := NodeTx.zero, txB := NodeTx.zero }

/-- A point of any writer but the hygiene chain before its first write: value 0, status 0 (R125). -/
def Point.zero : Point :=
  ⟨0, false, false, false, false, false, 0, 0, 0, 0, 0, false, 0, false, 0⟩

/-- A carrier that does not run. -/
def Carrier.zero : Carrier := ⟨false, 0, 0, 0⟩

/-- The Harp's state of a cell that has not entered RUN. -/
def CellHarp.zero : CellHarp :=
  ⟨false, 2, 0, [], [], 0, 0, 0, 2, 0, 0, 0, [], none, false, none, false, 0, none, 0⟩

/-- A local pair after reset: off (Table 06-13). -/
def LPair.zero : LPair :=
  ⟨false, 0, 0, none, none, false, false, false, false, [], none, false, [0, 0, 0, 0], false, false, none⟩

/-- The default descriptor, of an unused instance (Table 07-3). -/
def LoopDesc.zero : LoopDesc :=
  ⟨0, 2, 0xF003, 1, 0, 0xFFFFF, 0xFFFFF, 0xFFFFF, 0xFFFFF, 0xFFFFF, 0xFFFFF, 0xFFFFF, 0x8000, 0x7FFF, 0x7FFF, false, true, 0,
    0xFFFFFFFF, 0, 8, 20⟩

/-- A loop instance's states at 0 (R184). -/
def LoopSt.zero : LoopSt :=
  ⟨[0, 0, 0, 0], [], [], [0, 0, 0, 0], [], 0, 0, (0, 0), [], 0, 0, false, 0, [], [], false⟩

/-- A hand-over group without a member. -/
def HandOver.zero : HandOver := ⟨none, none⟩

/-- A cell's control state after reset: role Idle (Table 08-1). -/
def CellCtl.zero : CellCtl :=
  { role := .idle, slot := 63, rank := 63, slotAge := 0, key := 0, dabI := 0, est := 0, prep := none, ok := 0, bad := 0,
    fb := false, devRun := 0, decision := false, wasInserted := false, bypBy := none, restBy := none,
    bypOpen := false, weight := 0x7FFF, ilim := 0x7FFF, fo := 0, trims := List.replicate 12 0, pref := false }

/-- A branch's control state after reset. -/
def BranchCtl.zero : BranchCtl := ⟨false, false, 0, 0, 0, 0, false, none, false, false, false, false⟩

/-- A switch's ageing state after reset. -/
def Wear.zero : Wear :=
  ⟨[0, 0, 0, 0], 0, false, 0, 0, 0, none, none, 0, 0, 0, 0, 0, none, [], [], 0, 0, 0xFF800000, 0, 0⟩

/-- A cell's plan after reset. -/
def Plan.zero : Plan :=
  { valid := false, paused := false, missing := 0, rn := 0, life := 0, pubW := 0x7FFF, pubI := 0x7FFF, pubFo := 0,
    pubSpare := false, pubDt := List.replicate 12 0, pend := none, tgtW := 0x7FFF, tgtI := 0x7FFF, tgtFo := 0, tgtSpare := false,
    tgtDt := List.replicate 12 0, hrs := List.replicate 15 0, thsSum := 0, thsN := 0, ths := none, unreach := false, capLim := false,
    fit := none, fitPrev := none, retries := 0, capAt := none, capUf := 0, capEsr := 0, capRel := 0, rfLost := 0 }

/-- A requester that has lost no decision. -/
def VatReq.zero : VatReq := ⟨0, 0, 0, false⟩

/-- The reasons a step stops with a fault: none, every command of the spec has an effect or leaves the state as it is. -/
inductive Fault where
deriving DecidableEq, Repr

/-- The reasons a step is refused. -/
inductive Refusal where
  /-- Raised by the arms of `exec` whose command has no meaning yet. Safe. -/
  | notModelled (mnemonic : String)
deriving DecidableEq, Repr

/-- The TB576 right after its first power-on and the release of `RST_N` with every strap ball at 0: every register at its reset
value, every memory empty, boot stage 0 (R407, R410, R426). -/
def State.reset : State where
  regs := { vals := [(0, 576#32)], shadow := [], staged := [], applying := 0, readData := [] }
  frame :=
    { k := 0, snapped := false, len := 0, epoch := 0, ticks := 40000, realign := false, realignPrev := false,
      realignAt := none, lenPending := none, phaseErr := 0, tsnap := 2500, hMax := 0, relayActive := false,
      worstArrival := 0, lateTails := 0, lateNow := 0, checkDue := false, budgetFail := 0, budgetNext := 0, running := false,
      cntHi := 0, epochSHi := 0, epochNs := 0 }
  lanes := []
  brs := []
  links := []
  nodes := []
  curd :=
    { points := [], snap := [], snapK := 0, descs := [], descNext := [], ucal := [], hostNext := [], stuck := 0,
      sdSkip := [], pins := 0 }
  harp :=
    { carriers := [], cells := [], pairs := [], tripCount := [], tripLive := 0, tripRaw := 0, ctripCount := [], ctripLatched := [],
      ctripDue := [], halted := false, gateAtHalt := false, resumeNext := false, permit := false, invalid := [], profile := [], wordsMax := 0,
      wordsNow := 0 }
  press :=
    { loops := [], loopShadow := [], loopStaged := [], st := [], groups := [], bankA := [], bankB := [], activeB := false,
      swapPending := false, copyBusy := false, coefOwner := [], refuseCode := 0, cost := 0, costMax := 0, prepLoad := 0, omitted := [],
      l1Start := 0 }
  ctls := []
  brCtls := []
  twin :=
    { role := .off, epoch := 0, tOwn := none, tPeer := none, theta := 0, pPeer := 0, thetaOk := 0, ready := false,
      mirrorsOk := 0, calValid := false, calLeft := none, eFar := [], hbMiss := 0, roleSeen := false,
      peerReady := false, peerDigest := none, peerYield := false, clash := false, peerK := none, peerDiff := false,
      swapAt := none, hbLast := none, hbHalf := false, rxChunks := [], rxFrom := 0, shadow := [], mirror := none, rotPos := 0, computeFrom := none }
  mode :=
    { conv := .parked, inState := 0, startReq := false, stopReq := false, tripReq := false, safeReq := false,
      phaseLost := false, preDone := false, preTimeout := false, rdDone := false, rdTimeout := false, preRun := 0,
      rdRun := 0, joinRun := [], joinDone := 0, formed := false, formRun := 0, formReq := false, rt := false,
      rtEnter := false, rtExit := false, rtOut := 0, rtIn := 0, rtFor := 0, rtLong := false, held := none, deferred := false,
      req := (0, 3, 0), eff := 0,
      lvEff := 0, refuseCode := 0, lim := [0, 0, 0, 0, 0], planDue := false }
  aff :=
    { wear := [], plans := [], seq := 0, inForce := 0, busy := false, proposed := false, pol := 2, hourAt := 0, epochHour := 0, hourPrev := 0, hourNow := 0, deferred := false,
      gains := List.replicate 12 0x4000, stepAt := 0, lastEpoch := 0, binsOld := [], mLow := none,
      marginMin := 0, worstMon := 0, fbb := 0, vAck := 10, vExp := none, vWant := none, attempts := 0, pmbusFail := false, hdDay := (0, 0),
      hdDayNo := 0, hdMeans := [], eol := 0, eolHi := 0, capDay := 0,
      imgSend := none, imgHour := 0, appNext := [], appReady := false }
  cellar :=
    { mode := .normal, rise := List.replicate 16 0, base := 0, baseOk := false, tC := 0, hot := 0, temp := List.replicate 16 0, power := [],
      diode := [none, none, none, none], seen := 0, diodeModel := [0, 0, 0, 0], hiRun := [0, 0, 0, 0], missRun := [0, 0, 0, 0],
      okRun := [0, 0, 0, 0], mismatch := false, clkFb := false, peak := 0, sdLatch := false, sdTemp := 0, sdWhere := 0,
      sdDiode := false, sdCount := 0, sdTime := 0, sdTimeHi := 0 }
  cave :=
    { mode := .stopped, src := 0, list := [], listNext := none, firstRec := true, gapNext := false, ring := [], arm := none, trigK := none,
      preLen := 0, postLen := 0, lastVal := none, rearmNext := false, ignored := 0, log := [],
      logNew := 0, logAny := false, logFirst := 0, logOvr := 0, logLost := 0, bins := [], eyes := [], eyeDump := [],
      snapshots := 0, snapSlots := [], snapTime := none, spill := [], sbe := [], dbe := [], badSwitch := [], badSlots := [], trcStage := 0, logStage := 0,
      persBad := 0, persist := none, persImg := none, persCopy := 0,
      persDue := false, persDays := 0, persDay := 0, persSeq := 0, vat := [], waitMax := [], grants := [] }
  clk :=
    { relock := .idle, locked := false, onSafe := true, band := 0, entry := 0, refUse := false,
      vtune := false, nw := 0x28000000, nwLock := 0x28000000, refuseCode := 0, absent := 0, offFreq := 0, goodWin := 0, relockNext := none,
      sync := [none, none, none, none], holdTime := false }
  stu :=
    { time := 0, cut := (0, 0), y := 0, i := 0, quality := .free, offset := 0, dly := 0, step := none, okRun := 0, lostAt := 0,
      alarm := false, ports := [.disabled, .disabled], masters := [none, none], lastMaster := none, sync2 := [none, none], dlyHist := [],
      discards := 0, req := [none, none], seqId := 0, lastStamp := none, rxStamps := [none, none], sentQ := [], syncDiff := none, unstamped := 0, lastOff := none,
      pulses := List.replicate 4 ⟨0, 0, 0, none, none⟩, caps := List.replicate 2 (0, 0, false, false, false),
      capLatch := List.replicate 2 (0, 0), timeLatch := (0, 0) }
  rind :=
    { src := [], first := none, firstNow := false, lockout := false, lockRec := 0, tripN := true, safeN := false, holding := false, tripK := 0, wdK := 0,
      tripBoot := true, todo := [], sbe := [] }
  power :=
    { mode := .run, idleReq := false, cureReq := false, exitReq := none, entering := false, wakeStep := none,
      from_ := .run, ptpOn := false, wakeNSeen := false, held := [], lastSrc := 0, wakeFail := false, cellarHold := false, railUv := 0,
      caveLost := false, retLost := false, srcMask := 0, attempts := 0, waxCal := 0, waxCnt := 0, cntHi := 0, t0 := 0,
      alarm := 0, alarmAt := 0, fW := 2147483648, uv := 0, ov := 0, ovCure := 0, cureUv := 0, holdOn := false, cfg := 0, wakeCfg := 3, suppressed := [], lockWait := false }
  boot :=
    { stage := 0, ready := false, slot := false, fallback := false, cfgLoaded := false, mapLoaded := false,
      rwuLoaded := false, readyMs := 0, straps := 0, sample := 0, sampling := true, rstSts := 1, rstLow := false,
      porstLow := false, aonUp := true, firmware := false, recovery := false, version := 0, window := [], go := false,
      holdBus := false, hbOwn := false, hbCycle := 0, hbLow := 0, hbStarts := [], watch := false, statusQueue := false, twinRetry := 0,
      twinWords := [], refFallback := false, gpioOut := 0, pllLd := true, clkOut := [none, none, none, none], gpioDrive := 0, serial := 0,
      flash := { raw := [], rwu := [none, none], map := [none, none], aff := [none, none], cfg := [none, none] } }
  cmd :=
    { queues := [], waits := [], locks := [], broken := [], rings := [], pend := 0, pba := 0, intN := false, link := false,
      sts := 0 }
  tx := []
  fresh := 0
  pending := []

end Sys2Proof.Machine
end

