-- ==== Sys2Proof/Machine/Arith.lean ====
section
/-!
DEFINITION. Numbers, bytes and checks: bit fields, little-endian bytes (R13), the two CRCs (R96), exact signed arithmetic with
saturation (R11, R12), and sparse tables.
-/
namespace Sys2Proof.Machine

/-! ### Sparse tables -/

/-- Entry k of a table, `d` where it has none. -/
def tget {α : Type} (d : α) : Tbl α → Nat → α
  | [], _ => d
  | (a, v) :: t, k => if a = k then v else tget d t k

/-- Removes every entry k. -/
def tdel {α : Type} : Tbl α → Nat → Tbl α
  | [], _ => []
  | (a, v) :: t, k => if a = k then tdel t k else (a, v) :: tdel t k

/-- Puts an entry in its place by rising key. -/
def tput {α : Type} : Tbl α → Nat → α → Tbl α
  | [], k, w => [(k, w)]
  | (a, v) :: t, k, w => if k < a then (k, w) :: (a, v) :: t else if a = k then (k, w) :: t else (a, v) :: tput t k w

/-- Sets entry k, listing nothing where the value is the default. -/
def tset {α : Type} [DecidableEq α] (d : α) (t : Tbl α) (k : Nat) (v : α) : Tbl α :=
  if v = d then tdel t k else tput t k v

/-- Changes entry k. -/
def tmod {α : Type} [DecidableEq α] (d : α) (t : Tbl α) (k : Nat) (f : α → α) : Tbl α :=
  tset d t k (f (tget d t k))

/-- The canonical form of a table: keys strictly rising, no entry equal to the default. -/
def tblWf {α : Type} [DecidableEq α] (d : α) : Tbl α → Bool
  | [] => true
  | [(_, v)] => v ≠ d
  | (a, v) :: (b, w) :: t => decide (a < b) && decide (v ≠ d) && tblWf d ((b, w) :: t)

/-- Replaces element i of a list. -/
def lset {α : Type} (l : List α) (i : Nat) (v : α) : List α := l.set i v

/-! ### Bits -/

/-- Bits [lo + width − 1 : lo] of a number. -/
def bitsAt (w lo width : Nat) : Nat := w / 2 ^ lo % 2 ^ width

/-- Bit i of a number. -/
def bitAt (w i : Nat) : Bool := w.testBit i

/-- Writes a bit field. -/
def putBits (w lo width v : Nat) : Nat :=
  w - bitsAt w lo width * 2 ^ lo + v % 2 ^ width * 2 ^ lo

/-- A flag as a number. -/
def b2n (b : Bool) : Nat := if b then 1 else 0

/-- The signed value of the low `width` bits. -/
def sx (width v : Nat) : Int :=
  let u := v % 2 ^ width
  if u < 2 ^ (width - 1) then u else (u : Int) - 2 ^ width

/-- The low `width` bits of a signed value, two's complement. -/
def ux (width : Nat) (v : Int) : Nat := (v % 2 ^ width).toNat

/-- The signed value of a 16-bit code. -/
def h2i (h : Half) : Int := h.toInt

/-- A 16-bit code of a signed value (low 16 bits). -/
def toHalf (v : Int) : Half := BitVec.ofInt 16 v

/-! ### Signed arithmetic -/

/-- Saturation to [lo, hi]. -/
def clampI (lo hi v : Int) : Int := if v < lo then lo else if hi < v then hi else v

/-- Saturation to 16 bits. -/
def sat16 (v : Int) : Int := clampI (-32768) 32767 v

/-- Saturation to 40 bits (Q9.31). -/
def sat40 (v : Int) : Int := clampI (-(2 ^ 39)) (2 ^ 39 - 1) v

/-- Arithmetic shift right: truncation toward minus infinity. -/
def asr (v : Int) (n : Nat) : Int := v / 2 ^ n

/-- |v|. -/
def absI (v : Int) : Int := if v < 0 then -v else v

/-- Division rounded up. -/
def cdiv (a b : Nat) : Nat := (a + b - 1) / b

/-- Rounding of a/b to the nearest integer, halves up. -/
def rnd (a b : Int) : Int := (2 * a + b) / (2 * b)

/-- Saturating counter. -/
def satInc (lim n : Nat) : Nat := if n < lim then n + 1 else n

/-! ### Bytes -/

/-- n bytes of a number, little-endian. -/
def leB : Nat → Nat → List Byte
  | 0, _ => []
  | n + 1, v => BitVec.ofNat 8 v :: leB n (v / 256)

/-- The number a byte list spells, little-endian. -/
def leN : List Byte → Nat
  | [] => 0
  | b :: t => b.toNat + 256 * leN t

/-- Byte i of a message, 0 beyond its end. -/
def byteAt (l : List Byte) (i : Nat) : Nat := (l.getD i 0).toNat

/-- The n-byte field at offset `at`. -/
def fieldAt (l : List Byte) (o n : Nat) : Nat := leN ((l.drop o).take n)

/-- n zero bytes. -/
def zeroB (n : Nat) : List Byte := List.replicate n 0

/-- A message cut or padded with zeros to n bytes. -/
def padB (n : Nat) (l : List Byte) : List Byte := (l ++ zeroB n).take n

/-- One bit step of the reflected CRC-32. -/
def crc32Bit (c : Word) : Word := if c.getLsbD 0 then (c >>> 1) ^^^ 0xEDB88320#32 else c >>> 1

/-- One byte of the CRC-32. -/
def crc32Byte (c : Word) (b : Byte) : Word :=
  let c0 := c ^^^ b.setWidth 32
  crc32Bit (crc32Bit (crc32Bit (crc32Bit (crc32Bit (crc32Bit (crc32Bit (crc32Bit c0)))))))

/-- CRC-32 of R96. -/
def crc32 (l : List Byte) : Word := ~~~(l.foldl crc32Byte 0xFFFFFFFF#32)

/-- One bit step of the CRC-16. -/
def crc16Bit (c : Half) : Half := if c.getLsbD 15 then (c <<< 1) ^^^ 0x1021#16 else c <<< 1

/-- One byte of the CRC-16. -/
def crc16Byte (c : Half) (b : Byte) : Half :=
  let c0 := c ^^^ (b.setWidth 16 <<< 8)
  crc16Bit (crc16Bit (crc16Bit (crc16Bit (crc16Bit (crc16Bit (crc16Bit (crc16Bit c0)))))))

/-- CRC-16 of R96. -/
def crc16 (l : List Byte) : Half := l.foldl crc16Byte 0xFFFF#16

/-! ### Lists of numbers -/

/-- The numbers below n that satisfy p, ascending. -/
def below (n : Nat) (p : Nat → Bool) : List Nat := (List.range n).filter p

/-- Insertion by a strict order. -/
def insertBy (lt : Nat → Nat → Bool) (x : Nat) : List Nat → List Nat
  | [] => [x]
  | y :: t => if lt x y then x :: y :: t else y :: insertBy lt x t

/-- Sorting by a strict order. -/
def sortBy (lt : Nat → Nat → Bool) (l : List Nat) : List Nat := l.foldr (insertBy lt) []

/-- The largest of a list, 0 when empty. -/
def maxOf (l : List Nat) : Nat := l.foldl max 0

/-- Applies a change for each element in turn. -/
def forEach {α σ : Type} (l : List α) (s : σ) (f : σ → α → σ) : σ := l.foldl f s

/-- Lexicographic comparison of keys (each key: smaller first). -/
def lexLt : List Int → List Int → Bool
  | a :: s, b :: t => if a < b then true else if b < a then false else lexLt s t
  | _, _ => false

end Sys2Proof.Machine
end

