-- ==== Sys2Proof/Machine/Float.lean ====
section
/-!
DEFINITION. IEEE 754 numbers as exact dyadics, rounded to nearest, ties to even: the binary64 steps of R131 and the binary32
quantities of chapter 10. A finite number is a pair (m, e) that stands for m × 2^e.
-/
namespace Sys2Proof.Machine

/-- A finite binary number m × 2^e. -/
structure Dy where
  m : Int
  e : Int
deriving DecidableEq, Repr

/-- 2^e as numerator and denominator. -/
def pow2 (e : Int) : Nat × Nat := if 0 ≤ e then (2 ^ e.toNat, 1) else (1, 2 ^ (-e).toNat)

/-- Numerator and denominator of a dyadic. -/
def dyNum (x : Dy) : Int := x.m * ((pow2 x.e).1 : Int)
def dyDen (x : Dy) : Nat := (pow2 x.e).2

/-- a / d to the nearest integer, ties to even. -/
def rneDiv (a d : Nat) : Nat :=
  let q := a / d; let r := a % d
  if 2 * r < d then q else if d < 2 * r then q + 1 else if q % 2 = 0 then q else q + 1

/-- The rational n / d rounded to `prec` significant bits, no bit below 2^emin (ties to even). -/
def roundRat (prec : Nat) (emin : Int) (n : Int) (d : Nat) : Dy :=
  let a := n.natAbs
  if a = 0 then ⟨0, 0⟩
  else
    let e0 : Int := (Nat.log2 a : Int) - (Nat.log2 d : Int) - (prec : Int)
    let fits := fun (e : Int) => decide (a * (pow2 e).2 < 2 ^ prec * d * (pow2 e).1)
    let e1 := if fits e0 then e0 else if fits (e0 + 1) then e0 + 1 else e0 + 2
    let e := max e1 emin
    let q := rneDiv (a * (pow2 e).2) (d * (pow2 e).1)
    ⟨if n < 0 then -(q : Int) else q, e⟩

/-- Arithmetic on dyadics with rounding to `prec` bits. -/
def dyMul (prec : Nat) (emin : Int) (x y : Dy) : Dy := roundRat prec emin (dyNum x * dyNum y) (dyDen x * dyDen y)
def dyAdd (prec : Nat) (emin : Int) (x y : Dy) : Dy :=
  roundRat prec emin (dyNum x * dyDen y + dyNum y * dyDen x) (dyDen x * dyDen y)
def dyDiv (prec : Nat) (emin : Int) (x y : Dy) : Dy :=
  if y.m = 0 then ⟨0, 0⟩
  else
    let n := dyNum x * dyDen y; let d := dyNum y * dyDen x
    roundRat prec emin (if d < 0 then -n else n) d.natAbs
def dyOfInt (v : Int) : Dy := ⟨v, 0⟩
def dyFloor (x : Dy) : Int := dyNum x / (dyDen x : Int)
def dyLe (x y : Dy) : Bool := decide (dyNum x * dyDen y ≤ dyNum y * dyDen x)

/-- The value of a binary32 word; none for an infinity or a NaN. -/
def dec32 (w : Nat) : Option Dy :=
  let ex := bitsAt w 23 8; let fr := bitsAt w 0 23; let neg := bitAt w 31
  if ex = 255 then none
  else
    let m : Nat := if ex = 0 then fr else fr + 2 ^ 23
    let e : Int := if ex = 0 then -149 else (ex : Int) - 150
    some ⟨if neg then -(m : Int) else m, e⟩

/-- The binary32 word of a dyadic, rounded to nearest even; an overflow gives an infinity. -/
def enc32 (x : Dy) : Word :=
  let y := roundRat 24 (-149) (dyNum x) (dyDen x)
  let a := y.m.natAbs
  let s : Nat := if y.m < 0 then 2 ^ 31 else 0
  if a = 0 then BitVec.ofNat 32 s
  else
    let l := Nat.log2 a
    let top : Int := y.e + l
    if 128 ≤ top then BitVec.ofNat 32 (s + 255 * 2 ^ 23)
    else if top < -126 then BitVec.ofNat 32 (s + a * (pow2 (y.e + 149)).1)
    else
      let ex : Nat := (top + 127).toNat
      let fr := (a * 2 ^ 24 / 2 ^ l) / 2 - 2 ^ 23
      BitVec.ofNat 32 (s + ex * 2 ^ 23 + fr)

/-- binary64 rounding of R131. -/
def mul64 (x y : Dy) : Dy := dyMul 53 (-1074) x y
def add64 (x y : Dy) : Dy := dyAdd 53 (-1074) x y
def div64 (x y : Dy) : Dy := dyDiv 53 (-1074) x y

/-- The factory stage of R131: raw code, gain, offset, base in milli-units. -/
def factoryStage (raw : Int) (g o : Dy) (base : Nat) : Int :=
  let t := add64 (mul64 (dyOfInt raw) g) o
  let u := div64 (mul64 t (dyOfInt 32768000)) (dyOfInt base)
  sat16 (dyFloor u)

end Sys2Proof.Machine
end

