-- ==== Sys2Proof/Machine/F32.lean ====
section
/-!
DEFINITION. IEEE 754 binary32 arithmetic on words, each operation rounded to nearest, ties to even, with exp and powers rounded from
their exact values (chapter 10).
-/
namespace Sys2Proof.Machine

/-- A binary32 value. -/
inductive F32 where
  | nan
  | inf (neg : Bool)
  | fin (x : Dy)
deriving DecidableEq, Repr

/-- Value of a word. -/
def f32Of (w : Word) : F32 :=
  match dec32 w.toNat with
  | some x => .fin x
  | none => if bitsAt w.toNat 0 23 = 0 then .inf (bitAt w.toNat 31) else .nan

/-- Word of a value. -/
def f32To : F32 → Word
  | .nan => 0x7FC00000
  | .inf neg => if neg then 0xFF800000 else 0x7F800000
  | .fin x => enc32 x

/-- Exact sum and product. -/
def dySum (x y : Dy) : Dy :=
  let e := min x.e y.e
  ⟨x.m * 2 ^ (x.e - e).toNat + y.m * 2 ^ (y.e - e).toNat, e⟩
def dyProd (x y : Dy) : Dy := ⟨x.m * y.m, x.e + y.e⟩

def f32Neg (a : Word) : Word := a ^^^ 0x80000000
def f32Abs (a : Word) : Word := a &&& 0x7FFFFFFF

def f32Add (a b : Word) : Word :=
  match f32Of a, f32Of b with
  | .fin x, .fin y => enc32 (dySum x y)
  | .inf p, .inf q => if p = q then a else f32To .nan
  | .inf _, .fin _ => a
  | .fin _, .inf _ => b
  | _, _ => f32To .nan

def f32Sub (a b : Word) : Word := f32Add a (f32Neg b)

def f32Mul (a b : Word) : Word :=
  let neg := bitAt (a ^^^ b).toNat 31
  match f32Of a, f32Of b with
  | .fin x, .fin y => enc32 (dyProd x y)
  | .inf _, .inf _ => f32To (.inf neg)
  | .inf _, .fin y => if y.m = 0 then f32To .nan else f32To (.inf neg)
  | .fin x, .inf _ => if x.m = 0 then f32To .nan else f32To (.inf neg)
  | _, _ => f32To .nan

def f32Div (a b : Word) : Word :=
  let neg := bitAt (a ^^^ b).toNat 31
  match f32Of a, f32Of b with
  | .fin x, .fin y =>
    if y.m = 0 then (if x.m = 0 then f32To .nan else f32To (.inf neg)) else enc32 (dyDiv 24 (-149) x y)
  | .inf _, .fin _ => f32To (.inf neg)
  | .fin _, .inf _ => 0
  | _, _ => f32To .nan

/-- a ≤ b and a < b; false with a NaN. -/
def f32Le (a b : Word) : Bool :=
  match f32Of a, f32Of b with
  | .fin x, .fin y => dyLe x y
  | .inf p, .inf q => p || !q
  | .inf p, .fin _ => p
  | .fin _, .inf q => !q
  | _, _ => false
def f32Lt (a b : Word) : Bool :=
  f32Le a b && !f32Le b a

/-- An integer, and a fraction n / d. -/
def f32Int (v : Int) : Word := enc32 (dyOfInt v)
def f32Rat (n : Int) (d : Nat) : Word := if d = 0 then f32To .nan else enc32 (roundRat 24 (-149) n d)

/-- Floor; clamped to lo and hi, a NaN gives lo. -/
def f32Floor (lo hi : Int) (a : Word) : Int :=
  match f32Of a with
  | .fin x => clampI lo hi (dyFloor x)
  | .inf neg => if neg then lo else hi
  | .nan => lo

/-- a scaled by 2^n. -/
def f32Scale (a : Word) (n : Int) : Word :=
  match f32Of a with
  | .fin x => enc32 ⟨x.m, x.e + n⟩
  | _ => a

/-- Square root. -/
def f32Sqrt (a : Word) : Word :=
  match f32Of a with
  | .fin x =>
    if x.m < 0 then f32To .nan
    else
      let (m, e) : Nat × Int := if x.e % 2 = 0 then (x.m.toNat, x.e) else (2 * x.m.toNat, x.e - 1)
      let n := m * 2 ^ 60
      let r := Nat.sqrt n
      enc32 ⟨(2 * r + (if r * r = n then 0 else 1) : Nat), e / 2 - 31⟩
  | .inf neg => if neg then f32To .nan else a
  | .nan => a

/-! ### exp, ln, powers: fixed point in units of 2^−128 -/

/-- ln 2. -/
def ln2Fix : Int := 0xB17217F7D1CF79ABC9E3B39803F2F6AF

/-- Taylor series of exp: term t, next index i. -/
def expSum : Nat → Nat → Int → Int → Int
  | 0, _, _, _ => 0
  | n + 1, i, r, t => t + expSum n (i + 1) r (t * r / 2 ^ 128 / (i : Nat))

/-- exp of v × 2^−128 as a dyadic. -/
def expFix (v : Int) : Dy :=
  let n := v / ln2Fix
  if n < -400 then ⟨0, 0⟩ else if 400 < n then ⟨1, 400⟩
  else ⟨expSum 40 1 (v - n * ln2Fix) (2 ^ 128), n - 128⟩

/-- Σ z^(2k+1) / (2k+1). -/
def atanhSum : Nat → Nat → Int → Int → Int
  | 0, _, _, _ => 0
  | n + 1, i, z2, t => t / (i : Nat) + atanhSum n (i + 2) z2 (t * z2 / 2 ^ 128)

/-- ln of a positive dyadic. -/
def lnFix (x : Dy) : Int :=
  let l := Nat.log2 x.m.toNat
  let m : Int := x.m * 2 ^ 128 / 2 ^ l
  let z := (m - 2 ^ 128) * 2 ^ 128 / (m + 2 ^ 128)
  2 * atanhSum 42 1 (z * z / 2 ^ 128) z + (x.e + l) * ln2Fix

/-- A dyadic in units of 2^−128. -/
def dyFix (x : Dy) : Int := if 0 ≤ x.e + 128 then x.m * 2 ^ (x.e + 128).toNat else x.m / 2 ^ (-(x.e + 128)).toNat

/-- exp. -/
def f32Exp (a : Word) : Word :=
  match f32Of a with
  | .fin x => if dyLe ⟨1, 9⟩ x then f32To (.inf false) else if dyLe x ⟨-1, 9⟩ then 0 else enc32 (expFix (dyFix x))
  | .inf neg => if neg then 0 else a
  | .nan => a

/-- a^(n/d) for a positive finite a; 0 for 0, a NaN below. -/
def f32PowRat (a : Word) (n : Int) (d : Nat) : Word :=
  match f32Of a with
  | .fin x =>
    if x.m = 0 then (if n = 0 then f32Int 1 else 0) else if x.m < 0 ∨ d = 0 then f32To .nan
    else enc32 (expFix (lnFix x * n / d))
  | .inf neg => if neg then f32To .nan else a
  | .nan => a

/-- a^b for a positive finite a. -/
def f32Pow (a b : Word) : Word :=
  match f32Of a, f32Of b with
  | .fin x, .fin y =>
    if x.m = 0 then (if y.m = 0 then f32Int 1 else 0) else if x.m < 0 then f32To .nan
    else enc32 (expFix (lnFix x * dyFix y / 2 ^ 128))
  | _, _ => f32To .nan

/-- Sum of a list from the left. -/
def f32Sum (l : List Word) : Word := l.foldl f32Add 0

/-- The larger of two. -/
def f32Max (a b : Word) : Word := if f32Le a b then b else a

end Sys2Proof.Machine
end

