-- ==== Sys2Proof/Config.lean ====
section
/-!
DEFINITION. The values the spec leaves open, as constants without a body: nothing in Lean can evaluate them.
-/
namespace Sys2Proof

/-- The n-th free value drawn (see State.fresh). -/
opaque Config.free : Nat → Nat

/-- The byte a cell node's maker put at an address of its identity block or factory record (Tables 04-9, 04-10). -/
opaque Config.nodeByte (cell addr : Nat) : Nat

/-- Slabs that a cell node's forwarding FIFO holds beyond the 16 slabs or 24 blocks of Table 04-13. -/
opaque Config.nodeFifo (cell : Nat) : Nat

/-- The Cellar's factory coefficients in OTP (R304), scaled by 2^32 per update: kind 0 conductance between nodes i and j, 1 conductance
of node i to the base, 2 rise of node i per milliwatt, 3 share of domain j's power in node i. -/
opaque Config.thermal (kind i j : Nat) : Nat

/-- The factory timestamp latency of an Ethernet port in OTP (R382), in quarter nanoseconds: port, and sending. -/
opaque Config.latency (port : Nat) (send : Bool) : Nat

/-- What the HOLD-BUS set of a firmware image holds beyond R420 and Table 07-7 (points, scopes, factory coefficients): image version,
strap code, item. -/
opaque Config.holdBus (image straps item : Nat) : Nat

/-- VOUT_MODE of the board's core regulator (R275). -/
opaque Config.voutMode : Nat

/-- A byte of a copy of a saved region, by flash address and the copy's sequence number, that the spec gives no layout (R412). -/
opaque Config.flashOpen (a seq : Nat) : BitVec 8

/-- Bytes of the board's flash beyond the regions of Table 17-4, which give the flash no end. -/
opaque Config.flashTail : Nat

end Sys2Proof
end

