-- ==== Sys2Proof/Machine/Slab.lean ====
section
/-!
DEFINITION. The line codings (R62 to R66, R69, R70): the bits of a Whey slab and of a 64b/66b block, and how the content of a message
is cut into them.
-/
namespace Sys2Proof.Machine

/-! ### Slab types (Table 03-3) -/

/-- Codes 0x0 to 0xA. -/
def slabTypes : List SlabType := [.idle, .filler, .first, .mid, .last, .bulk, .mark, .park, .train, .eidle, .link]

/-- The type of a code; 0xB to 0xF are reserved. -/
def slabOf (n : Nat) : Option SlabType := slabTypes[n]?

/-- The code of a type. -/
def slabCode (t : SlabType) : Nat := slabTypes.idxOf t

/-- type and type_n as one byte (Table 03-2). -/
def typeByte (t : SlabType) : Nat := slabCode t + 16 * (15 - slabCode t)

/-! ### Bits -/

/-- The lowest w bits of a number, the least significant first. -/
def bitsOf (w n : Nat) : List Bool := (List.range w).map n.testBit

/-- The number whose bits these are. -/
def ofBits : List Bool → Nat
  | [] => 0
  | b :: t => b2n b + 2 * ofBits t

/-- Bits of a byte list (R64). -/
def bitsB (l : List Byte) : List Bool := l.flatMap fun b => bitsOf 8 b.toNat

/-- The first n bytes of a bit list. -/
def bytesOf (n : Nat) (l : List Bool) : List Byte :=
  (List.range n).map fun i => BitVec.ofNat 8 (ofBits ((l.drop (8 * i)).take 8))

/-! ### Scrambling and stuffing (R65, R66, R69) -/

/-- What the scrambler adds to the next bit: x^23 + x^18 + 1 in Whey coding, x^58 + x^39 + 1 in 64b/66b. -/
def scBit (b64 : Bool) (h : Nat) : Bool :=
  if b64 then xor (h.testBit 38) (h.testBit 57) else xor (h.testBit 17) (h.testBit 22)

/-- The history after one more scrambled bit. -/
def scPush (h : Nat) (b : Bool) : Nat := (2 * h + b2n b) % 2 ^ 58

/-- Scrambled bits, and the history after them. -/
def scramble (b64 : Bool) : Nat → List Bool → List Bool × Nat
  | h, [] => ([], h)
  | h, d :: t =>
    let b := xor d (scBit b64 h)
    let (l, h') := scramble b64 (scPush h b) t
    (b :: l, h')

/-- The bits that were scrambled, and the history after them. -/
def descramble (b64 : Bool) : Nat → List Bool → List Bool × Nat
  | h, [] => ([], h)
  | h, b :: t =>
    let (l, h') := descramble b64 (scPush h b) t
    (xor b (scBit b64 h) :: l, h')

/-- Length of the run of identical bits that ends with b. -/
def runOf (run : Nat) (prev : Option Bool) (b : Bool) : Nat := if prev = some b then run + 1 else 1

/-- Payload bits with their stuff bits. -/
def stuff (run : Nat) (prev : Option Bool) : List Bool → List Bool
  | [] => []
  | b :: t => if runOf run prev b = 24 then b :: (!b) :: stuff 1 (some !b) t else b :: stuff (runOf run prev b) (some b) t

/-- The payload bits and the number of stuff bits removed; none where the bit after 24 identical ones is not their complement. -/
def unstuff (run : Nat) (prev : Option Bool) : List Bool → Option (List Bool × Nat)
  | [] => if run = 24 then none else some ([], 0)
  | b :: t =>
    if run = 24 then
      if prev = some b then none else (unstuff 1 (some b) t).map fun (l, n) => (l, n + 1)
    else (unstuff (runOf run prev b) (some b) t).map fun (l, n) => (b :: l, n)

/-! ### Slabs and blocks -/

/-- Bits 0 to 15 of a slab (Table 03-2). -/
def slabHead (t : SlabType) : List Bool := bitsOf 16 (typeByte t + 256 * 0x9A)

/-- A Whey slab on the wire, and the scrambler's history after it. -/
def slabBits (h : Nat) (t : SlabType) (l : List Byte) : Slab × Nat :=
  if t = .train then (slabHead t ++ bitsB (List.replicate 14 0x33), h)
  else
    let (p, h') := scramble false h (bitsB (padB 14 l))
    (slabHead t ++ stuff 0 none p, h')

/-- The eight bytes of a 64b/66b block (Table 03-4). -/
def blockBytes (t : SlabType) (l : List Byte) : List Byte :=
  match t with
  | .first | .mid | .last => padB 8 l
  | .idle | .filler => leB 1 0x1E ++ zeroB 7
  | .train => leB 1 0x5A ++ leB 1 (typeByte t) ++ List.replicate 6 0x33
  | .bulk | .mark | .park | .eidle | .link => leB 1 0x5A ++ leB 1 (typeByte t) ++ padB 6 l

/-- A message part travels in data blocks. -/
def isPart (t : SlabType) : Bool := t == .first || t == .mid || t == .last

/-- A 64b/66b block on the wire: its sync header, 01 for data and 10 for control, then the scrambled block. -/
def blockBits (h : Nat) (t : SlabType) (l : List Byte) : Slab × Nat :=
  let (p, h') := scramble true h (bitsB (blockBytes t l))
  ([!isPart t, isPart t] ++ p, h')

/-- A slab or block in the running coding. -/
def wireBits (b64 : Bool) (h : Nat) (t : SlabType) (l : List Byte) : Slab × Nat :=
  if b64 then blockBits h t l else slabBits h t l

/-- What a receiver makes of one slab or block: invalid, with the validity of its header; the content of a slab or control block; another
control block of Clause 49; a data block. -/
inductive RxSlab where
  | bad (head : Bool)
  | ctl
  | slab (t : SlabType) (bytes : List Byte)
  | data (bytes : List Byte)
deriving DecidableEq, Repr

/-- The descrambler's history after bits that are not interpreted: it goes on shifting (R65). -/
def shiftIn (h : Nat) (l : List Bool) : Nat := l.foldl scPush h

/-- The descrambler's history after an invalid slab: its payload bits, as far as stuff bits can be told from them. -/
def badPayload (h : Nat) (w : Slab) : Nat :=
  shiftIn h (match unstuff 0 none (w.drop 16) with | some (p, _) => p | none => w.drop 16)

/-- A Whey slab as received (R63, R66): what it is, the stuff bits removed, the descrambler's history after it. -/
def slabRead (h : Nat) (w : Slab) : RxSlab × Nat × Nat :=
  match slabOf (ofBits (w.take 4)) with
  | none => (.bad false, 0, badPayload h w)
  | some t =>
    if w.take 16 ≠ slabHead t then (.bad false, 0, badPayload h w)
    else if t = .train then (.slab t (bytesOf 14 (w.drop 16)), 0, h)
    else
      match unstuff 0 none (w.drop 16) with
      | none => (.bad true, 0, badPayload h w)
      | some (p, n) =>
        if p.length ≠ 112 then (.bad true, 0, badPayload h w)
        else
          let (d, h') := descramble false h p
          (.slab t (bytesOf 14 d), n, h')

/-- Control block types of Clause 49 besides the idle block 0x1E: starts, ordered sets and terminates (R69; PRESUMED, log entry 141). -/
def ctlTypes : List Nat := [0x2D, 0x33, 0x4B, 0x55, 0x66, 0x78, 0x87, 0x99, 0xAA, 0xB4, 0xCC, 0xD2, 0xE1, 0xFF]

/-- A 64b/66b block as received (R69). -/
def blockRead (h : Nat) (w : Slab) : RxSlab × Nat × Nat :=
  if w.take 2 ≠ [false, true] ∧ w.take 2 ≠ [true, false] then (.bad false, 0, shiftIn h (w.drop 2))
  else if w.length ≠ 66 then (.bad true, 0, shiftIn h (w.drop 2))
  else
    let (d, h') := descramble true h (w.drop 2)
    let l := bytesOf 8 d
    if w.take 2 = [false, true] then (.data l, 0, h')
    else if byteAt l 0 = 0x1E then (.slab .idle [], 0, h')
    else if ctlTypes.contains (byteAt l 0) then (.ctl, 0, h')
    else
      match slabOf (byteAt l 1 % 16) with
      | some t => if byteAt l 0 = 0x5A ∧ byteAt l 1 = typeByte t then (.slab t (l.drop 2), 0, h') else (.bad true, 0, h')
      | none => (.bad true, 0, h')

/-- A slab or block in the running coding. -/
def wireRead (b64 : Bool) (h : Nat) (w : Slab) : RxSlab × Nat × Nat := if b64 then blockRead h w else slabRead h w

/-! ### Messages -/

/-- Slabs of a message part (R64, R70). -/
def partSlabs (b64 : Bool) (l : List Byte) : List (SlabType × List Byte) :=
  if b64 then (List.range (cdiv l.length 8)).map fun i => (.first, padB 8 (l.drop (8 * i)))
  else
    let n := max 2 (cdiv l.length 14)
    (List.range n).map fun i => (if i = 0 then .first else if i + 1 = n then .last else .mid, padB 14 (l.drop (14 * i)))

/-- Slabs of a bulk frame: a control byte, [7] start of frame, [3:0] bytes that follow, then those bytes (R105). -/
def bulkSlabs (b64 : Bool) (l : List Byte) : List (SlabType × List Byte) :=
  let n := if b64 then 5 else 13
  (List.range (cdiv l.length n)).map fun i =>
    let c := (l.drop (n * i)).take n
    (.bulk, leB 1 (c.length + 128 * b2n (i == 0)) ++ c)

/-- The slabs or blocks of a message: three for a PARK (R75), two EIDLE (R81), a burst of 256 bits (R82), two blocks for a LINK (R102). -/
def slabsOf (b64 : Bool) (t : SlabType) (l : List Byte) : List (SlabType × List Byte) :=
  match t with
  | .first | .mid | .last => partSlabs b64 l
  | .bulk => bulkSlabs b64 l
  | .link => if b64 then [(.link, l.take 6), (.link, (l.drop 6).take 6)] else [(.link, l)]
  | .park => List.replicate 3 (.park, l)
  | .train => List.replicate (if b64 then 4 else 2) (.train, [])
  | .eidle => List.replicate 2 (.eidle, [])
  | .mark | .idle | .filler => [(t, l)]

/-- Length of a bulk frame whose first eight bytes these are (R105). -/
def bulkFrameLen (l : List Byte) : Nat :=
  12 + (match byteAt l 1 with | 2 | 0x81 => byteAt l 7 | 0xC0 => 1 | _ => 0)

/-- Bits of one slab time, in 1/64 ns times 100: 10.24 ns in Whey coding, 6.4 ns in 64b/66b. -/
def slabUnits (b64 : Bool) : Nat := if b64 then 40960 else 65536

end Sys2Proof.Machine
end

