-- ==== Sys2Proof/Machine/Ops.lean ====
section
/-!
DEFINITION. The named operations over the state: registers and their shadows (R15, R430), the entries of each table of the state,
free values, what goes out on lanes and transports, branches and cells, station time, log entries and event rings.
-/
namespace Sys2Proof.Machine

/-! ### Free values -/

/-- Draws one free value. -/
def draw (s : State) : Nat × State := (Config.free s.fresh, { s with fresh := s.fresh + 1 })

/-- A free value below n (0 for n = 0). -/
def drawBelow (s : State) (n : Nat) : Nat × State := let (v, t) := draw s; (v % n, t)

/-! ### Registers -/

/-- The word in force of a register. -/
def rword (s : State) (r : RegName) (i : Nat) : Nat :=
  (tget (BitVec.ofNat 32 (r.resetWord i)) s.regs.vals (r.addr i)).toNat

/-- Puts a word in force. -/
def putWord (s : State) (r : RegName) (i : Nat) (w : Nat) : State :=
  { s with regs := { s.regs with
      vals := tset (BitVec.ofNat 32 (r.resetWord i)) s.regs.vals (r.addr i) (BitVec.ofNat 32 w) } }

/-- A field's value in force. -/
def fld (s : State) (f : Fld) (i : Nat) : Nat := bitsAt (rword s f.spec.reg i) f.spec.lo f.spec.width

/-- A field of a register that is not an array. -/
def fld0 (s : State) (f : Fld) : Nat := fld s f 0

/-- A one-bit field. -/
def flag (s : State) (f : Fld) (i : Nat) : Bool := fld s f i != 0

/-- Sets a field in force. -/
def setFld (s : State) (f : Fld) (i : Nat) (v : Nat) : State :=
  putWord s f.spec.reg i (putBits (rword s f.spec.reg i) f.spec.lo f.spec.width v)

/-- Sets one bit within a register. -/
def setBit (s : State) (r : RegName) (i : Nat) (b : Nat) (v : Bool) : State :=
  putWord s r i (putBits (rword s r i) b 1 (b2n v))

/-- A counter field counts one, stopping at its largest value (R88, R343). -/
def countFld (s : State) (f : Fld) (i : Nat) : State :=
  setFld s f i (satInc (2 ^ f.spec.width - 1) (fld s f i))

/-- A 32-bit counter of R88 counts n and sets bit b of its saturation register when it stops: on the first count that is lost (DESIGN
CHOICE, log entry 96). -/
def countSat (s : State) (r : RegName) (sat : RegName) (i b n : Nat) : State :=
  let w := rword s r i + n
  if w < 2 ^ 32 then putWord s r i w
  else setBit (putWord s r i (2 ^ 32 - 1)) sat i b true

/-- Bits of a register that are shadowed (RWS). The class fields of reserved sources are none: they read 0 and ignore writes (R279). -/
def rwsMask (r : RegName) (i : Nat) : Nat :=
  if r = .rindCls ∧ 118 ≤ i then (if i = 118 then 0x77 else 0) else r.mask (· == .rws)

/-- Picks the bits of `m` from `a` and the others from `b`. -/
def blend (m a b : Nat) : Nat := (a &&& m) ||| (b - (b &&& m))

/-- The pending (shadow) word of a register: the shadow bits where it differs, else the word in force (R15). -/
def shadowWord (s : State) (r : RegName) (i : Nat) : Nat :=
  match tget none (s.regs.shadow.map fun (a, x) => (a, some x)) (r.addr i) with
  | some x => blend (rwsMask r i) x.val.toNat (rword s r i)
  | none => rword s r i

/-- A field's pending value. -/
def sfld (s : State) (f : Fld) (i : Nat) : Nat := bitsAt (shadowWord s f.spec.reg i) f.spec.lo f.spec.width

/-- The bits of the shadowed fields in which two words of a register differ. -/
def changedBits (r : RegName) (a b : Nat) : Nat :=
  (r.fields.filterMap fun f =>
    let m := f.spec
    if m.acc = .rws ∧ bitsAt a m.lo m.width ≠ bitsAt b m.lo m.width then some ((2 ^ m.width - 1) * 2 ^ m.lo) else none).sum

/-- The mask of what each queue wrote, after `owner` wrote the bits `ch` too; a write of BAR0, SPI or boot (none) leaves it. -/
def ownNow (own : Tbl Nat) (owner : Option Nat) (ch : Nat) : Tbl Nat :=
  match owner with | some q => tset 0 own q (tget 0 own q ||| ch) | none => own

/-- Writes the shadow of a register, keeping nothing where it equals the word in force; `owner` is the queue that writes it. A field whose
pending value the write leaves as it is does not count as written (DESIGN CHOICE, log entry 153). -/
def putShadow (s : State) (r : RegName) (i : Nat) (w : Nat) (owner : Option Nat) : State :=
  let v := blend (rwsMask r i) w (rword s r i)
  let own := match tget none (s.regs.shadow.map fun (a, x) => (a, some x)) (r.addr i) with | some x => x.own | none => []
  { s with regs := { s.regs with
      shadow := if v = rword s r i then tdel s.regs.shadow (r.addr i)
        else tput s.regs.shadow (r.addr i) ⟨BitVec.ofNat 32 v, ownNow own owner (changedBits r (shadowWord s r i) v)⟩ } }

/-- Sets a pending field. -/
def setSfld (s : State) (f : Fld) (i : Nat) (v : Nat) (owner : Option Nat) : State :=
  putShadow s f.spec.reg i (putBits (shadowWord s f.spec.reg i) f.spec.lo f.spec.width v) owner

/-- The register and index of each shadow word of block n (Table 18-3). -/
def blockShadows (s : State) (n : Nat) : List (RegName × Nat × Shadow) :=
  s.regs.shadow.filterMap fun (a, x) =>
    match regAt a with
    | some (r, i) => if r.block = some n then some (r, i, x) else none
    | none => none

/-- Returns block n's register shadows to the values in force (CFG_DISCARD, R336). -/
def discardBlock (s : State) (n : Nat) : State :=
  { s with regs := { s.regs with
      shadow := s.regs.shadow.filter fun (a, _) =>
        match regAt a with
        | some (r, _) => r.block ≠ some n
        | none => true } }

/-- An accepted commit of block n: its shadow words are staged, replacing an earlier commit that has not yet applied (R434);
words that `keep` rejects stay shadows only. What queues wrote into the others is committed (R336). -/
def stageBlock (s : State) (n : Nat) (keep : RegName → Nat → Bool) : State :=
  let words := (blockShadows s n).filter fun (r, i, _) => keep r i
  let old := s.regs.staged.filter fun (_, b, _) => b ≠ n
  { s with regs := { s.regs with
      staged := words.foldl (fun t (r, i, x) => tput t (r.addr i) (n, x.val)) old
      shadow := words.foldl (fun t (r, i, x) => tput t (r.addr i) { x with own := [] }) s.regs.shadow
      applying := s.regs.applying ||| BitVec.ofNat 14 (2 ^ n) } }

/-- Puts one staged word in force; its shadow goes where it now equals the word in force. -/
def applyWord (s : State) (a : Nat) (w : Word) : State :=
  match regAt a with
  | none => s
  | some (r, i) =>
    let t := putWord s r i (blend (rwsMask r i) w.toNat (rword s r i))
    if shadowWord t r i = rword t r i then { t with regs := { t.regs with shadow := tdel t.regs.shadow a } } else t

/-- An accepted commit of block n applies (R433). -/
def applyBlock (s : State) (n : Nat) : State :=
  let t := (s.regs.staged.filter fun (_, b, _) => b = n).foldl (fun t (a, _, w) => applyWord t a w) s
  { t with regs := { t.regs with
      staged := t.regs.staged.filter fun (_, b, _) => b ≠ n
      applying := t.regs.applying &&& ~~~(BitVec.ofNat 14 (2 ^ n)) } }

/-- A field's value as accepted commits leave it: staged where one waits to apply, else in force (R433). -/
def nextFld (s : State) (f : Fld) (i : Nat) : Nat :=
  let w := match s.regs.staged.find? fun (a, _) => a = f.spec.reg.addr i with
    | some (_, _, v) => blend (rwsMask f.spec.reg i) v.toNat (rword s f.spec.reg i)
    | none => rword s f.spec.reg i
  bitsAt w f.spec.lo f.spec.width

/-- Block n has an accepted commit that has not yet applied. -/
def applyingBlock (s : State) (n : Nat) : Bool := s.regs.applying.getLsbD n

/-- A commit of block n is refused: bit 16 + n of SYS_COMMIT_STS (R433). -/
def refuseCommit (s : State) (n : Nat) : State := setBit s .sysCommitSts 0 (16 + n) true

/-! ### Branches and cells -/

/-- The device is a TB288 (SYS_ID.cell_capacity). -/
def tb288 (s : State) : Bool := fld0 s .sysId_cell_capacity == 288

/-- Branch b is present (R2). -/
def brPresent (s : State) (b : Nat) : Bool := decide (b < 12) && (!tb288 s || decide (b % 4 < 2))

/-- The present branches. -/
def presentBrs (s : State) : List Nat := below 12 (brPresent s)

/-- Lane n exists on the device (R4, R60). -/
def lanePresent (s : State) (n : Nat) : Bool := if n < 24 then brPresent s (n / 2) else decide (n < 28)

def getLane (s : State) (n : Nat) : Lane := tget Lane.zero s.lanes n
def modLane (s : State) (n : Nat) (f : Lane → Lane) : State := { s with lanes := tmod Lane.zero s.lanes n f }
def getBr (s : State) (b : Nat) : Branch := tget Branch.zero s.brs b
def modBr (s : State) (b : Nat) (f : Branch → Branch) : State := { s with brs := tmod Branch.zero s.brs b f }
def getLink (s : State) (c : Nat) : CellLink := tget CellLink.zero s.links c
def modLink (s : State) (c : Nat) (f : CellLink → CellLink) : State :=
  { s with links := tmod CellLink.zero s.links c f }
def getNode (s : State) (c : Nat) : Node := tget Node.zero s.nodes c
def modNode (s : State) (c : Nat) (f : Node → Node) : State := { s with nodes := tmod Node.zero s.nodes c f }
def getCtl (s : State) (c : Nat) : CellCtl := tget CellCtl.zero s.ctls c
def modCtl (s : State) (c : Nat) (f : CellCtl → CellCtl) : State := { s with ctls := tmod CellCtl.zero s.ctls c f }
def getBc (s : State) (b : Nat) : BranchCtl := tget BranchCtl.zero s.brCtls b
def modBc (s : State) (b : Nat) (f : BranchCtl → BranchCtl) : State :=
  { s with brCtls := tmod BranchCtl.zero s.brCtls b f }
def getCh (s : State) (c : Nat) : CellHarp := tget CellHarp.zero s.harp.cells c
def modCh (s : State) (c : Nat) (f : CellHarp → CellHarp) : State :=
  { s with harp := { s.harp with cells := tmod CellHarp.zero s.harp.cells c f } }
def getPair (s : State) (j : Nat) : LPair := tget LPair.zero s.harp.pairs j
def modPair (s : State) (j : Nat) (f : LPair → LPair) : State :=
  { s with harp := { s.harp with pairs := tmod LPair.zero s.harp.pairs j f } }
def getQ (s : State) (q : Nat) : Queue := tget Queue.zero s.cmd.queues q
def modQ (s : State) (q : Nat) (f : Queue → Queue) : State :=
  { s with cmd := { s.cmd with queues := tmod Queue.zero s.cmd.queues q f } }
def getRing (s : State) (e : Nat) : EvRing := tget EvRing.zero s.cmd.rings e
def modRing (s : State) (e : Nat) (f : EvRing → EvRing) : State :=
  { s with cmd := { s.cmd with rings := tmod EvRing.zero s.cmd.rings e f } }
def getSrc (s : State) (i : Nat) : Src := tget Src.zero s.rind.src i
def modSrc (s : State) (i : Nat) (f : Src → Src) : State :=
  { s with rind := { s.rind with src := tmod Src.zero s.rind.src i f } }

/-- Cells of branch b in the cell map, by rising global cell number. -/
def mapCells (s : State) (b : Nat) : List Nat := (below 48 fun p => (getLink s (48 * b + p)).inMap).map (48 * b + ·)

/-- Every cell in the cell map. -/
def allCells (s : State) : List Nat := (presentBrs s).flatMap (mapCells s)

/-- Cell c is served from end A under the split in force (R93). -/
def servedA (s : State) (c : Nat) : Bool := decide (c % 48 < (getBr s (c / 48)).split)

/-- Hops from the serving end (R91). -/
def hopsOf (s : State) (c : Nat) : Nat :=
  let b := getBr s (c / 48); let p := c % 48
  if servedA s c then p + 1 else b.nb - p

/-- The hop bound H in force, at least 64 ns (Table 02-7). -/
def hopBound (s : State) : Nat := max 64 (fld0 s .stuFrmCfg_hop_bound)

/-- The lane that serves cell c. -/
def servingLane (s : State) (c : Nat) : Nat := 2 * (c / 48) + (if servedA s c then 0 else 1)

/-- T_F in quarter nanoseconds for a frame length code (Table 02-1). -/
def frameTicks (len : Nat) : Nat := [40000, 50000, 64000, 80000].getD len 40000

/-- T_F in quarter nanoseconds. -/
def tF (s : State) : Nat := frameTicks s.frame.len.val

/-- Every cell of a list is PARKED as the TB576 holds it: neither Inserted nor Spare, and no ARM waits (Table 08-1). -/
def cellsParked (s : State) (cs : List Nat) : Bool :=
  cs.all fun c => let r := (getCtl s c).role; r != .inserted && r != .spare

/-- Branch b is PARKED: not armed with the station, and every cell parked. -/
def brParked (s : State) (b : Nat) : Bool := !(getBc s b).armed && cellsParked s (mapCells s b)

/-- Every cell is PARKED. -/
def allParked (s : State) : Bool := cellsParked s (allCells s)

/-- Ticks of the window W(k+1): T_F, an announced realignment frame (R57), or a frame of a length that takes effect there (R37). -/
def nextTicks (s : State) : Nat :=
  let f := s.frame
  match f.realignAt with
  | some (k, n) => if k = f.k + 1 ∧ allParked s then n else tF s
  | none =>
    match f.lenPending with
    | some l => if (f.epoch + ((f.k + 1) * tF s : Nat)) % 4000000000 = 0 then frameTicks l.val else tF s
    | none => tF s

/-- Every cell in the cell map is time-locked (WL_TIME_STS.all_locked); 0 while the map is empty, as at reset (Table 04-18). -/
def allLocked (s : State) : Bool := !(allCells s).isEmpty && (allCells s).all fun c => (getLink s c).timeLocked

/-- The device is a standby. -/
def standby (s : State) : Bool := s.twin.role == .standby

/-- Outputs are held at rank 7: on a standby (R226), on a primary past its planned swap (R230), and on a device that has taken over
until the frame from which it computes (R229). -/
def outputsHeld (s : State) : Bool :=
  standby s ||
  (match s.twin.swapAt with | some k => decide (k ≤ s.frame.k) | none => false) ||
  (match s.twin.computeFrom with | some k => decide (s.frame.k < k) | none => false)

/-! ### Time -/

/-- Station time of F(k) of the current frame, in quarter nanoseconds. -/
def nowQ (s : State) : Nat := s.stu.time / 2 ^ 32

/-- Whole hours of station time, plus one. -/
def hourNo (q : Nat) : Nat := q / (3600 * 4000000000) + 1

/-- A quantity moves toward its target by at most `step`. -/
def moveTo (cur tgt step : Nat) : Nat := if cur < tgt then min tgt (cur + step) else max tgt (cur - step)

/-- Frames that last ms milliseconds at the frame length in force, rounded up. -/
def msFrames (s : State) (ms : Nat) : Nat := cdiv (ms * 4000000) (tF s)

/-- Seconds and the nanosecond word [29:0] ns, [31:30] quarters of a time in quarter nanoseconds. -/
def secsOf (t : Nat) : Nat := t / 4000000000
def nsWord (t : Nat) : Nat := let q := t % 4000000000; q / 4 + q % 4 * 2 ^ 30
/-- Time as in event entries: seconds [47:0], then the nanosecond word. -/
def timeB (t : Nat) : List Byte := leB 6 (secsOf t) ++ leB 4 (nsWord t)

/-- An instant within the current frame: its start plus a free part of its length, since the spec orders the instants of a frame but
fixes an instant only to its own tolerance (R281, R459). -/
def instant (s : State) : Nat × State := let (v, t) := drawBelow s s.frame.ticks; (nowQ s + v, t)

/-! ### What goes out -/

/-- Puts an item on a lane, a transport or a bus. -/
def send (s : State) (x : Tx) : State := { s with tx := s.tx ++ [x] }

/-- In twin a device reaches the chains from the end it holds (R222): none without twin. -/
def ownEnd (s : State) : Option Bool := if s.twin.role = .off then none else some (fld0 s .twinCfg_end == 1)

/-- A peer message on `PL_0`, or on `PL_1` while that lane is DOWN. -/
def peerOut (s : State) (t : SlabType) (l : List Byte) : State :=
  send s (.lane (if (getLane s 26).mode = .down then 27 else 26) t l)

/-- VOUT_COMMAND data for a voltage in mV in ULINEAR16 with exponent e, to the nearest step (PRESUMED, log entry 111). -/
def voutData (e : Int) (mv : Nat) : Half :=
  let n := if e < 0 then mv * 2 ^ (-e).toNat else mv
  let d := if e < 0 then 1000 else 1000 * 2 ^ e.toNat
  BitVec.ofNat 16 ((2 * n + d) / (2 * d))

/-- The core voltage of a code, in mV (Table 10-10). -/
def voltMv (code : Nat) : Nat := 700 + 5 * code

/-- The core regulator is commanded to a voltage in mV, once its format is known (R275). -/
def sendVout (s : State) (mv : Nat) : State :=
  match s.aff.vExp with
  | some e => send s (.pmbus (fld0 s .affDieCfg_pmbus_addr) (voutData e mv))
  | none => s

/-- Running coding of a lane: 64b/66b; the Ethernet lanes are fixed at it while they are not DOWN (Table 03-1). -/
def laneCoding (s : State) (n : Nat) : Bool :=
  if n = 24 ∨ n = 25 then (getLane s n).mode != .down else (getLane s n).coding

/-- MARK or PARK bytes as sent: the CRC-16 in Whey coding only (R101). -/
def markB (coding64 : Bool) (l : List Byte) : List Byte := if coding64 then l else l ++ leB 2 (crc16 l).toNat

/-- A message to one end of a branch; in twin only the device's own end is connected, and the other is reached through the standby while
`via` holds, a bulk frame slab by slab (Table 08-5). -/
def sendVia (s : State) (b : Nat) (endB via : Bool) (typ : SlabType) (l : List Byte) : State :=
  let n := 2 * b + b2n endB
  match ownEnd s with
  | none => send s (.lane n typ l)
  | some e =>
    if e = endB then send s (.lane n typ l)
    else if via then
      (if typ = .bulk then (bulkSlabs false l).map (·.2) else [l]).foldl
        (fun t m => peerOut t .first (leB 1 0x12 ++ leB 1 b ++ leB 1 (slabCode typ) ++ padB 14 m)) s
    else s

/-- A message to one end of a branch, through the standby while the branch is relayed. -/
def sendEnd (s : State) (b : Nat) (endB : Bool) (typ : SlabType) (l : List Byte) : State := sendVia s b endB (getBr s b).relay typ l

/-- Sends a message from both ends of a branch. -/
def sendBoth (s : State) (b : Nat) (typ : SlabType) (l : List Byte) : State := sendEnd (sendEnd s b false typ l) b true typ l

/-- Cell c is served through the standby (R227). -/
def relayedCell (s : State) (c : Nat) : Bool :=
  (getBr s (c / 48)).relay && (match ownEnd s with | some e => e == servedA s c | none => false)

/-- relay(c): 400 ns for a cell served through the standby (R43). -/
def relayOf (s : State) (c : Nat) : Nat := if relayedCell s c then 400 else 0

/-- Sends a message to the end that serves cell c. -/
def sendCell (s : State) (c : Nat) (typ : SlabType) (l : List Byte) : State := sendEnd s (c / 48) (!servedA s c) typ l

/-- Sends a message part to the end that serves cell c. -/
def sendPart (s : State) (c : Nat) (l : List Byte) : State :=
  if relayedCell s c then peerOut s .first (leB 1 0x10 ++ leB 1 (c / 48) ++ l)
  else send s (.lane (2 * (c / 48) + b2n (!servedA s c)) .first l)

/-- PARK content (Table 04-7): three such slabs leave for each request (R75). -/
def parkB (target reason k : Nat) (close : Bool) : List Byte :=
  leB 1 (target % 64 + 64 * b2n close) ++ leB 1 reason ++ leB 2 k ++ zeroB 2

/-- LINK content (R102). -/
def linkB (op addr : Nat) (args : List Byte) : List Byte :=
  let l := leB 1 op ++ leB 1 addr ++ padB 8 args
  l ++ leB 2 (crc16 l).toNat

/-- LSTAT for the far side of lane n: whether its receiver is locked; the TB576 has no port beyond it (R102, R103). -/
def lstatB (locked other : Bool) : List Byte := linkB 7 0x41 (leB 1 (b2n locked + 2 * b2n other))

/-- A training attempt starts: on chain and peer lanes the burst of R82 leaves, and behind it the LSTAT of the exchange. A keep-alive is
such an attempt (R84). No lane trains in recovery (R416). -/
def startAttempt (s : State) (n : Nat) (keep : Bool) : State :=
  if s.boot.recovery then s else
  let s1 := modLane s n fun x => { x with
    mode := .training
    lock := false
    linkSeen := false
    trained := false
    retry := false
    sinceTry := 0
    sinceKeep := 0
    firstTry := false
    keepAlive := keep
    eqHeld := true
    eidleSeen := false
    tx := { x.tx with cur := [], bulk := [] }
    rx := { x.rx with good := 0, heads := [], part := none, link := none, bulk := [] } }
  if n = 24 ∨ n = 25 then s1 else send (send s1 (.lane n .train [])) (.lane n .link (lstatB false false))

/-- PARK for one cell, or all of its branch, on a lane: a PARK on a lane in electrical idle starts an exit burst ahead of it and is
repeated until the lane is UP (R85). -/
def parkLane (s : State) (n : Nat) (l : List Byte) : State :=
  let m := markB (laneCoding s n) l
  if (getLane s n).mode = .eidle then
    sendEnd (modLane (startAttempt s n false) n fun x => { x with parkPend := some m }) (n / 2) (n % 2 == 1) .park m
  else sendEnd s (n / 2) (n % 2 == 1) .park m

/-- PARK for all cells of a branch on both of its lanes. -/
def parkAllOf (s : State) (b reason : Nat) : State :=
  let l := parkB 0x3F reason s.frame.k false
  parkLane (parkLane s (2 * b) l) (2 * b + 1) l

/-! ### Event log and event rings -/

/-- A requester of the Vat arbiters is starving on some channel (R361). -/
def vatStarving (s : State) (code : Nat) : Bool :=
  (tget VatReq.zero s.cave.vat code).starving || (tget VatReq.zero s.cave.vat (16 + code)).starving

/-- Bytes in the trace and event staging buffer of 1.25 MiB (Table 01-5), which empties at once unless its requester starves (DESIGN CHOICE,
log entry 151). -/
def stageTrace (s : State) : Nat := if vatStarving s 14 then s.cave.trcStage else 0
def stageLog (s : State) : Nat := if vatStarving s 11 then s.cave.logStage else 0
def stageRoom (s : State) (n : Nat) : Bool := decide (stageTrace s + stageLog s + n ≤ 1310720)

/-- A slot of the Cave at bytes [lo, lo + n) is written anew: what was unreadable in it is gone. -/
def slotFresh (s : State) (lo n : Nat) : State :=
  { s with cave := { s.cave with badSlots := s.cave.badSlots.filter fun b => !(decide (lo < 64 * b + 64) && decide (64 * b < lo + n)) } }

/-- A slot of the Cave at bytes [lo, lo + n) holds an unreadable burst: it is returned with flag bad (Table 14-2). -/
def slotBad (s : State) (lo n : Nat) : Bool := s.cave.badSlots.any fun b => decide (lo < 64 * b + 64) && decide (64 * b < lo + n)

/-- The eye map of lane n, which occupies 16,448 bytes (R79). -/
def eyeAt (n : Nat) : Nat := 0x381900000 + 32768 * n

/-- One log entry (R354). An entry that finds staging full is discarded and counted; the caller raises F_CAVE_LOG_OVR for the count. -/
def logEntry (s : State) (typ time : Nat) (detail : List Byte) : State :=
  if !stageRoom s 64 then { s with cave := { s.cave with logLost := satInc (2 ^ 32 - 1) s.cave.logLost } }
  else
    let idx : Word := if s.cave.logAny then s.cave.logNew + 1 else s.cave.logFirst
    let e : LogEntry := ⟨typ, false, idx, time, s.frame.k, padB 40 detail⟩
    let ack := rword s .caveLogAck 0
    let full := decide (16777216 ≤ s.cave.log.length)
    let old : Nat := match s.cave.log with | x :: _ => x.index.toNat | [] => 0
    let late := full && decide (0 < (old + 2 ^ 32 - ack) % 2 ^ 32) && decide ((old + 2 ^ 32 - ack) % 2 ^ 32 < 2 ^ 31)
    { s with cave := { s.cave with
        log := (if full then s.cave.log.drop 1 else s.cave.log) ++ [e]
        logNew := idx
        logAny := true
        logStage := if vatStarving s 11 then s.cave.logStage + 64 else 0
        logOvr := if late then satInc (2 ^ 32 - 1) s.cave.logOvr else s.cave.logOvr } }

/-- Byte address of an event ring. -/
def ringBase (s : State) (e : Nat) : Nat := rword s .cmdEvBaseLo e + 2 ^ 32 * rword s .cmdEvBaseHi e

/-- Size of an event ring. -/
def ringSize (s : State) (e : Nat) : Nat := max 2 (fld s .cmdEvCfg_size e)

/-- Entry bytes 0–31 of Table 13-7. -/
def eventB (typ e time k : Nat) (phase : Bool) (detail : List Byte) : List Byte :=
  leB 2 typ ++ leB 1 (b2n phase) ++ leB 1 e ++ leB 4 k ++ timeB time ++ padB 14 detail

/-- Posts an event on ring e when its group is enabled there: into host memory, or as a datagram (R328). A full ring drops it, and a
datagram ring whose queue has no source yet has nowhere to send it. -/
def postRing (typ time : Nat) (detail : List Byte) (s : State) (e : Nat) : State :=
  if flag s .cmdEvCfg_enable e && bitAt (fld s .cmdEvCfg_types e) (typ / 4096 - 1) then
    let r := getRing s e
    if flag s .cmdEvCfg_udp e then
      match (getQ s (fld s .cmdEvCfg_q e)).peer with
      | some (p, m, ip, port) => send s (.udp p m ip port (eventB typ e time s.frame.k false detail))
      | none => modRing s e fun r => { r with dropped := satInc 0xFFFFF r.dropped }
    else
      let n := ringSize s e
      let nxt := (r.tail + 1) % n
      if nxt = fld s .cmdEvHead_head e then modRing s e fun r => { r with dropped := satInc 0xFFFFF r.dropped }
      else
        let t := send s (.dma (ringBase s e + 32 * r.tail) (eventB typ e time s.frame.k r.phase detail))
        modRing t e fun r => { r with tail := nxt, phase := if nxt = 0 then !r.phase else r.phase }
  else s

/-- An event of Table 13-8: one log entry and one entry on every ring that takes its group. -/
def event (s : State) (typ : Nat) (detail : List Byte) : State :=
  let (t, s1) := instant s
  (List.range 8).foldl (postRing typ t detail) (logEntry s1 typ t detail)

end Sys2Proof.Machine
end

