-- ==== Sys2Proof/Machine/SrcTable.lean ====
section
/-!
DEFINITION. Table 11-5 and Table 11-6: the class-2 reach of each fault source and whether it is an event or a condition.
-/
namespace Sys2Proof.Machine

/-- The class-2 reach of a source (the scope column of Table 11-5, and Table 11-4). -/
inductive SrcScope where
  | none
  | cell (c : Nat)
  | branch (b : Nat)
  | phase (p : Nat)
  | station
  | pair (j : Nat)
  | tripIn (i : Nat)
  | lane (n : Nat)
  | sram (r : Nat)
deriving DecidableEq, Repr

/-- Lanes 0 to 23 have their branch as scope, the others none (Table 11-4). -/
def laneScope (n : Nat) : SrcScope := if n < 24 then .lane n else .none

/-- The scope index σ of the Press sources: 0 station, 1 + p phase, 4 + b branch (Table 11-5). -/
def sigmaScope (o : Nat) : SrcScope :=
  if o = 0 then .station else if o < 4 then .phase (o - 1) else .branch (o - 4)

/-- Class-2 scope of device source n (Table 11-5). -/
def deviceScope (n : Nat) : SrcScope :=
  if n < 2 then .none
  else if n < 19 then .station
  else if n < 28 then .sram (n - 19)
  else if n < 37 then .none
  else if n < 49 then .branch (n - 37)
  else if n < 61 then .branch (n - 49)
  else if n < 73 then .branch (n - 61)
  else if n < 74 then .station
  else if n < 102 then laneScope (n - 74)
  else if n < 130 then laneScope (n - 102)
  else if n < 158 then laneScope (n - 130)
  else if n < 186 then laneScope (n - 158)
  else if n < 214 then laneScope (n - 186)
  else if n < 242 then laneScope (n - 214)
  else if n < 254 then .branch (n - 242)
  else if n < 266 then .branch (n - 254)
  else if n < 278 then .branch (n - 266)
  else if n < 634 then .station
  else if n < 646 then .pair (n - 634)
  else if n < 658 then .tripIn (n - 646)
  else if n < 670 then .tripIn (n - 658)
  else if n < 682 then .branch (n - 670)
  else if n < 684 then .station
  else if n < 700 then sigmaScope (n - 684)
  else if n < 716 then sigmaScope (n - 700)
  else if n < 732 then sigmaScope (n - 716)
  else if n < 733 then .station
  else if n < 745 then .branch (n - 733)
  else if n < 757 then .branch (n - 745)
  else if n < 769 then .branch (n - 757)
  else if n < 770 then .station
  else if n < 782 then .branch (n - 770)
  else if n < 788 then .none
  else if n < 833 then .station
  else if n < 906 then .none
  else if n < 908 then .station
  else if n < 946 then .none
  else .none

/-- Whether device source n is an event source (E) and not a condition source (C) (Table 11-5, R280). -/
def deviceIsEvent (n : Nat) : Bool :=
  if n < 3 then true
  else if n < 19 then false
  else if n < 28 then true
  else if n < 61 then false
  else if n < 74 then true
  else if n < 102 then false
  else if n < 130 then true
  else if n < 158 then false
  else if n < 186 then true
  else if n < 214 then false
  else if n < 242 then true
  else if n < 278 then false
  else if n < 474 then decide (2 ≤ (n - 278) % 4)
  else if n < 634 then false
  else if n < 646 then true
  else if n < 670 then false
  else if n < 684 then true
  else if n < 733 then false
  else if n < 769 then true
  else if n < 782 then false
  else if n < 788 then decide ((n - 782) ≠ 2 ∧ (n - 782) ≠ 3)
  else if n < 793 then decide ((n - 788) ≠ 3)
  else if n < 798 then decide ((n - 793) = 0)
  else if n < 829 then false
  else if n < 908 then true
  else if n < 941 then false
  else if n < 946 then true
  else false

/-- Whether cell bit i is an event source (Table 11-6). -/
def cellBitIsEvent (i : Nat) : Bool :=
  [0, 4, 6, 7, 8, 11, 12, 14, 20, 25, 26].contains i

/-- Lowest class of device source n (Table 11-5); the SRAM sources have their default as floor. -/
def deviceFloor (n : Nat) : Nat :=
  if n < 2 then 4
  else if n < 19 then 0
  else if n < 28 then [2, 2, 3, 3, 2, 1, 4, 1, 3].getD (n - 19) 0
  else if n < 49 then 0
  else if n < 73 then 2
  else if n < 266 then 0
  else if n < 278 then 2
  else if n < 658 then 0
  else if n < 682 then 2
  else if n < 683 then 3
  else if n < 700 then 0
  else if n < 716 then 2
  else if n < 732 then 0
  else if n < 733 then 3
  else if n < 745 then 0
  else if n < 769 then 2
  else if n < 770 then 3
  else if n < 788 then 0
  else if n = 788 ∨ n = 792 ∨ n = 795 ∨ n = 801 ∨ n = 802 ∨ n = 906 then 3
  else if 810 ≤ n ∧ n < 828 then 3
  else 0

/-- Lowest class of cell bit i (Table 11-6). -/
def cellFloor (i : Nat) : Nat := if i = 15 ∨ i = 17 ∨ i = 27 then 2 else 0

end Sys2Proof.Machine
end

