-- ==== Sys2Proof/Machine/Raise.lean ====
section
/-!
DEFINITION. Raising a fault source and taking its reaction (chapter 11): records, classes, the reach of each class, the pins and the
interrupt outputs. Other families raise their sources through `raiseE` (an event) and `setC` (a condition); `settle` ends every
command: it takes the sources the reactions themselves raised, and brings pins and interrupt outputs up to date.
-/
namespace Sys2Proof.Machine

/-! ### Sources -/

/-- Source index of bit i of cell c (R279). -/
def cellSrc (c i : Nat) : Nat := 1152 + 32 * c + i

/-- The source is an event source (Tables 11-5, 11-6). -/
def srcIsEvent (n : Nat) : Bool := if n < 1152 then deviceIsEvent n else cellBitIsEvent ((n - 1152) % 32)

/-- The configured class (RIND_CLS, RIND_CELL_CLS). -/
def classOf (s : State) (n : Nat) : Nat :=
  if n < 1152 then bitsAt (rword s .rindCls (n / 8)) (4 * (n % 8)) 3
  else let i := (n - 1152) % 32; bitsAt (rword s .rindCellCls (i / 8)) (4 * (i % 8)) 3

/-- Sources capped at class 1 in TWIN-S (R290): the sources that Table 11-5 names F_PRESS_ and F_CHED_, and the cell bits (DEDUCED, log
entry 133). -/
def capped (n : Nat) : Bool :=
  if n < 1152 then n == 73 || (decide (683 ≤ n) && decide (n ≤ 781))
  else let i := (n - 1152) % 32; decide (i ≤ 8) || (decide (16 ≤ i) && decide (i ≤ 18))

/-- The class a rise takes (R290; for an SRAM point that no branch owns, at least 3 under R34). -/
def appliedOf (s : State) (n : Nat) (detail : Word) : Nat :=
  let c := classOf s n
  let c1 := if standby s && capped n then min c 1 else c
  if n = 19 ∧ detail.toNat / 2 ^ 20 % 16 = 15 then max c1 3 else c1

/-- The class-2 reach of a source; for the SRAM regions the branch in the record detail (R34). -/
def scopeOf (n : Nat) (detail : Word) : SrcScope :=
  if 1152 ≤ n then .cell ((n - 1152) / 32)
  else match deviceScope n with
    | .sram _ => let b := detail.toNat / 2 ^ 20 % 16; if b < 12 then .branch b else .station
    | sc => sc

/-- The branches a class-2 reaction on a scope parks (Table 11-4). -/
def scopeBranches (s : State) : SrcScope → List Nat
  | .branch b => if brPresent s b then [b] else []
  | .phase p => (presentBrs s).filter fun b => b / 4 = p
  | .station => presentBrs s
  | .lane n => if brPresent s (n / 2) then [n / 2] else []
  | _ => []

/-- Branches as a mask. -/
def brMask (l : List Nat) : BitVec 12 := BitVec.ofNat 12 (l.foldl (fun m b => m ||| 2 ^ b) 0)

/-- Local pair j belongs to a branch of the mask (HARP_LP_CFG.grp). -/
def pairOf (s : State) (m : BitVec 12) (j : Nat) : Bool :=
  let g := fld s .harpLpCfg_grp j; decide (1 ≤ g) && m.getLsbD (g - 1)

/-- A class-2 reaction on a scope, which parked the branches of the mask, forces local pair j off (Table 11-4, R160). -/
def scopePair (s : State) (sc : SrcScope) (m : BitVec 12) (j : Nat) : Bool :=
  match sc with
  | .pair i => i == j
  | .tripIn i => bitAt (fld s .harpTripBind_pairs i) j
  | _ => pairOf s m j

/-- The local pairs a class-2 reaction on a scope forces off. -/
def scopePairs (s : State) (sc : SrcScope) : List Nat := below 12 (scopePair s sc (brMask (scopeBranches s sc)))

/-- A class-2 latch holds branch b parked (R285). -/
def brHeld (s : State) (b : Nat) : Bool := s.rind.src.any fun (_, x) => x.latch2 && x.brs.getLsbD b

/-- A class-2 latch holds cell c parked (R285). -/
def cellHeld (s : State) (c : Nat) : Bool := (List.range 32).any fun i => (getSrc s (cellSrc c i)).latch2

/-- Some latch, or the power state, holds local pair j off (R160, R393). -/
def pairHeld (s : State) (j : Nat) : Bool :=
  s.power.mode != .run || s.power.entering || s.rind.lockout || s.cellar.mode == .shutdown ||
  (s.rind.src.any fun (n, x) => x.latch3 || (x.latch2 && scopePair s (scopeOf n x.detail) x.brs j)) ||
  ((List.range 12).any fun i => bitAt (fld0 s .harpTripSts_latched) i && bitAt (fld s .harpTripBind_pairs i) j)

/-- The cell bits R395 holds at 0 for a suppressed cell, and the two that R374 holds from a relock on. -/
def suppressed (s : State) (n : Nat) : Bool :=
  decide (1152 ≤ n) &&
  (((decide ((n - 1152) % 32 ≤ 12) || decide ((n - 1152) % 32 = 16)) && s.power.suppressed.contains ((n - 1152) / 32)) ||
    (s.clk.holdTime && (decide ((n - 1152) % 32 = 3) || decide ((n - 1152) % 32 = 4))))

/-- A source of a lane or branch the device does not have never fires (R60, R279). -/
def absent (s : State) (n : Nat) : Bool :=
  if 1152 ≤ n then !brPresent s ((n - 1152) / 32 / 48)
  else match deviceScope n with
    | .branch b => !brPresent s b
    | .lane l => !lanePresent s l
    | _ => decide (946 ≤ n)

/-! ### Records and log -/

/-- The 32 bytes of a record (Table 11-2); a record whose sticky is clear reads as zeros. -/
def recordB (x : Src) : List Byte :=
  if x.sticky then
    timeB x.time ++ leB 6 x.k ++ leB 4 x.detail.toNat ++ leB 1 x.recCls ++ leB 1 x.flags ++ leB 2 x.count ++
    leB 4 x.lastK.toNat ++ zeroB 4
  else zeroB 32

/-- A class-3 latch is set. -/
def latch3Set (s : State) : Bool := s.rind.src.any fun (_, x) => x.latch3

/-- A rank above that of class `a` holds every scope: its action on lanes, cells and local outputs is discarded (R29, R284). -/
def outranked (s : State) (a : Nat) : Bool :=
  s.cellar.mode == .shutdown || (decide (a < 4) && s.rind.lockout) || (decide (a < 3) && latch3Set s)

/-- Something that already holds a scope above class `a` when a source rises (record flag bit 2). -/
def heldAbove (s : State) (a : Nat) : Bool :=
  decide (2 ≤ a) && (s.rind.lockout || s.cellar.sdLatch ||
    (decide (a = 2) && latch3Set s))

/-- Class-3 rises and the Cellar assert TRIP_N and start its least assertion (R286). -/
def assertTrip (s : State) : State := { s with rind := { s.rind with tripN := true, holding := true, tripK := s.frame.k } }

/-- A trace trigger in the present frame (R351): the first governs; one that falls in the post period or on a frozen ring is counted. -/
def traceTrigger (s : State) (src : Nat) : State :=
  match s.cave.mode with
  | .stopped => s
  | .recording =>
    { s with cave := { s.cave with
        mode := .post
        src := src
        trigK := some s.frame.k
        preLen := match s.cave.arm with | some (_, _, _, p, _) => p | none => s.cave.preLen
        postLen := if src = 4 then 0 else match s.cave.arm with | some (_, _, _, _, p) => p | none => s.cave.postLen } }
  | .post =>
    if s.cave.trigK = some s.frame.k ∧ src < s.cave.src then { s with cave := { s.cave with src := src } }
    else { s with cave := { s.cave with ignored := satInc 0xFFFF s.cave.ignored } }
  | .frozen => { s with cave := { s.cave with ignored := satInc 0xFFFF s.cave.ignored } }

/-- The Rind snapshot of Table 14-6: at most one copy per millisecond. -/
def rindSnapshot (s : State) (t : Nat) : State :=
  let soon : Bool := match s.cave.snapTime with | some u => decide (t < u + 4000000) | none => false
  if soon then setFld s .vatCtl_snap_skip 0 1
  else
    let u := slotFresh s (0x381000000 + 0x100000 * s.cave.snapshots) 0x100000
    { u with cave := { u.cave with
      snapSlots := tset [] s.cave.snapSlots s.cave.snapshots s.rind.src
      snapshots := (s.cave.snapshots + 1) % 8
      snapTime := some t } }

/-- Puts a source on the list of those still to be taken by `settle`. -/
def later (s : State) (n : Nat) (detail : Word) : State :=
  { s with rind := { s.rind with todo := s.rind.todo ++ [(n, detail)] } }

/-- Log entry and event rings of a rise or a clear (R301): a discarded log entry raises F_CAVE_LOG_OVR, a full ring F_CMD_EVOVF. -/
def logAndRing (s : State) (typ time : Nat) (ring : Bool) (logDetail ringDetail : List Byte) : State :=
  let lost := s.cave.logLost
  let s1 := logEntry s typ time logDetail
  let s2 := if s1.cave.logLost != lost then later s1 943 0 else s1
  if ring then
    (List.range 8).foldl (fun t e =>
      let d := (getRing t e).dropped
      let u := postRing typ time ringDetail t e
      if (getRing u e).dropped != d then later u (897 + e) (BitVec.ofNat 32 e) else u) s2
  else s2

/-- An event of Table 13-8, with the sources its loss raises. -/
def postEvent (s : State) (typ : Nat) (detail : List Byte) : State :=
  let (t, s1) := instant s
  logAndRing s1 typ t true detail detail

/-- Records from the latest one that begins a list on (R352). -/
def sinceFirst (l : List TraceRec) : List TraceRec := l.foldl (fun t r => if r.first then [r] else t ++ [r]) []

/-- The ring freezes on trigger frame t: it holds the frames from t - pre to t + post, none from before the list in force (R352). -/
def freezeRing (s : State) (t : Nat) : State :=
  postEvent { s with cave := { s.cave with
    mode := .frozen
    ring := ((sinceFirst s.cave.ring).filter fun r => decide (t ≤ r.k + s.cave.preLen) && decide (r.k ≤ t + s.cave.postLen)).map fun r =>
      { r with trig := r.k == t } } } 0x4001 (leB 4 t)

/-! ### Reactions -/

/-- A cell's carrier slot becomes v, 63 for none; a change restarts its age (Table 08-2). -/
def slotTo (x : CellCtl) (v : Nat) : CellCtl := { x with slot := v, slotAge := if v = x.slot then x.slotAge else 0 }

/-- A branch leaves the station: no cell of it stays in RUN. -/
def disarm (s : State) (b : Nat) : State :=
  let s1 := (mapCells s b).foldl (fun t c => modCtl t c fun x =>
    if x.role = .inserted ∨ x.role = .spare then { slotTo x 63 with role := .idle } else x) s
  modBc s1 b fun x => { x with
    armed := false
    entered := false
    joining := false
    restart := false }

/-- No branch of the phase of branch b is armed. -/
def phaseBare (s : State) (b : Nat) : Bool := (List.range 4).all fun i => !(getBc s (b / 4 * 4 + i)).armed

/-- Forces a local pair off: both outputs at the level that means off (R160). -/
def forceOff (s : State) (j : Nat) : State :=
  modPair s j fun x => { x with forced := true, aOn := false, bOn := false, sched := [], pendOn := none, cancelB := false }

/-- Parks one branch for a reaction (Table 11-4). -/
def parkBranch (s : State) (b reason : Nat) : State := disarm (parkAllOf s b reason) b

/-- A class-2 reaction parks a branch. One that was the last armed branch of its phase leaves the phase without (Table 09-2, R255). -/
def tripBranch (s : State) (b : Nat) : State :=
  let t := modBc (parkBranch s b 2) b fun x => { x with classTwo := true }
  if (getBc s b).armed && phaseBare t b then { t with mode := { t.mode with phaseLost := true } } else t

/-- Parks every present branch and forces every local pair off (ranks 1 to 3 of Table 01-3). -/
def parkStation (s : State) (reason : Nat) : State :=
  let s1 := (presentBrs s).foldl (fun t b => parkBranch t b reason) s
  (List.range 12).foldl forceOff s1

/-- PARK to all cells from the converter logic or the host, reason 0x20: the branches are disarmed, pairs are left alone. After a debug halt
with halt_park in RUN the converter state stays RUN, since no row of Table 09-2 names it (log entry 134). -/
def parkAll (s : State) : State := (presentBrs s).foldl (fun t b => disarm (parkAllOf t b 0x20) b) s

/-- Bypass of cell c is available (R215). -/
def bypassAvail (s : State) (c : Nat) : Bool :=
  bitAt (byteAt (getLink s c).ident 17) 1 && flag s .chedBrCfg_byp_en (c / 48)

/-- A fault decision on a cell (R214, R215), `reason` its class or the host. The redundancy logic takes it at the next T_snap (R216). -/
def faultDecision (s : State) (c reason : Nat) : State :=
  let x := getCtl s c
  if x.role = .isolating ∨ x.role = .bypassed then s
  else if bypassAvail s c then
    let s1 := parkLane s (servingLane s c) (parkB (c % 48) reason s.frame.k true)
    modCtl s1 c fun x => { x with
      role := .isolating
      decision := true
      wasInserted := x.role == .inserted
      bypBy := some (s.frame.k + 4) }
  else later (modCtl s c fun x => { slotTo x 63 with role := .idle }) (745 + c / 48) (BitVec.ofNat 32 (c / 48))

/-- Class-4 reaction: the lockout latch in the Wax domain, SAFE_N and TRIP_N held, everything parked, converter to SAFE (R287). -/
def lockoutBy (s : State) (n : Nat) : State :=
  let s1 := { s with rind := { s.rind with
      lockout := true
      lockRec := if s.rind.lockout then s.rind.lockRec else BitVec.ofNat 32 (n % 2 ^ 15 + s.frame.k % 2 ^ 17 * 2 ^ 15)
      safeN := true } }
  let s2 := assertTrip (parkStation s1 4)
  { s2 with mode := { s2.mode with safeReq := true } }

/-- The reaction of an applied class (Table 11-3). A class-2 rise or above also ends an entry into CURE in progress (R397). Under a higher
rank the action on cells, lanes and local outputs is discarded, also once that rank has ended (R29; log entry 135); the latch holds its scope. -/
def react (s : State) (n a : Nat) (detail : Word) : State :=
  let s0 := if 2 ≤ a ∧ (s.power.entering ∨ s.power.cureReq) then
      { s with power := { s.power with entering := false, cureReq := false, exitReq := some (if s.power.entering then 0 else 0xFF) } } else s
  if a = 2 then
    match scopeOf n detail with
    | .cell c => if outranked s0 2 then s0 else faultDecision s0 c 2
    | sc =>
      if outranked s0 2 then s0
      else (scopePairs s0 sc).foldl forceOff ((scopeBranches s0 sc).foldl tripBranch s0)
  else if a = 3 then
    let s1 := assertTrip (if outranked s0 3 then s0 else parkStation s0 3)
    { s1 with mode := { s1.mode with tripReq := true } }
  else if 4 ≤ a then lockoutBy s0 n
  else s0

/-! ### Rises -/

/-- `RIND_FIRST` after a rise with class a: the first stands, but among the rises of one clock cycle the highest class wins, then the lowest
index. The rises of one row count as those of one cycle, but for those its reactions bring (R283; DESIGN CHOICE, log entry 116). -/
def takeFirst (s : State) (n a : Nat) : State :=
  let wins : Bool := match s.rind.first with
    | none => true
    | some (m, b) => s.rind.firstNow && (decide (b < a) || (b == a && decide (n < m)))
  if wins ∧ 1 ≤ a then { s with rind := { s.rind with first := some (n, a), firstNow := true } } else s

/-- The latch of a reaction of class a: what set it, and the branches that it parks (R280, R285, R286). -/
def takeLatch (s : State) (n a : Nat) (detail : Word) (x : Src) : Src :=
  { x with
    latch := x.latch || a == 2 || a == 3
    latch2 := x.latch2 || a == 2
    latch3 := x.latch3 || a == 3
    brs := if a = 2 then x.brs ||| brMask (scopeBranches s (scopeOf n detail)) else x.brs }

/-- A rise of live: record, first fault, interrupt, trigger, snapshot, log, reaction (R281 to R285, R301). -/
def rise (s : State) (n : Nat) (detail : Word) (forced : Bool) : State :=
  let a := appliedOf s n detail
  let (t, s1) := instant s
  let flags := b2n forced + 2 * b2n (standby s && capped n && decide (2 ≤ classOf s n)) + 4 * b2n (heldAbove s a)
  let s2 := modSrc s1 n fun x =>
    let y := { takeLatch s n a detail x with
      live := true
      count := satInc 0xFFFF x.count
      lastK := BitVec.ofNat 32 s.frame.k
      applied := a }
    if x.sticky then y
    else { y with sticky := true, time := t, k := s.frame.k, detail := detail, recCls := a, flags := flags }
  let s3 := takeFirst s2 n a
  let s4 := if 1 ≤ a then setBit s3 .rindIntSts 0 (min a 4) true else s3
  let trig := min 4 (fld0 s .caveTrcCfg_trig_cls)
  let s5 := if trig ≠ 0 ∧ trig ≤ a then traceTrigger s4 2 else s4
  let s6 := if 2 ≤ a then rindSnapshot s5 t else s5
  let s7 := logAndRing s6 0x1001 t (decide (1 ≤ a)) (recordB (getSrc s6 n)) (leB 2 n ++ leB 1 a)
  react s7 n a detail

/-- A shutdown has stopped the core clock: nothing in the core, Rind and its records among it, follows (R311). -/
def coreStopped (s : State) : Bool := s.cellar.mode == .shutdown

/-- An event of an event source (R280, R281). -/
def raiseE (s : State) (n : Nat) (detail : Word) : State :=
  if absent s n || suppressed s n || coreStopped s then s
  else
    let x := getSrc s n
    let s1 := modSrc s n fun x => { x with evNow := true }
    if x.live then
      let s2 := modSrc s1 n fun x => { x with count := satInc 0xFFFF x.count, lastK := BitVec.ofNat 32 s.frame.k }
      if 19 ≤ n ∧ n < 28 then
        let a := appliedOf s2 n detail
        react (modSrc s2 n fun x => { takeLatch s n a detail x with applied := max x.applied a }) n a detail
      else s2
    else rise s1 n detail false

/-- The condition of a condition source as its owner evaluates it (R280). -/
def setC (s : State) (n : Nat) (v : Bool) (detail : Word) : State :=
  if absent s n || coreStopped s then s
  else
    let x := getSrc s n
    let s1 := modSrc s n fun x => { x with cond := v }
    if suppressed s n then s1
    else if v && !x.live then rise s1 n detail false
    else if !v && x.live && !x.force then modSrc s1 n fun x => { x with live := false }
    else s1

/-- A source that a hold of R374 or R395 takes to live 0. -/
def holdLow (s : State) (n : Nat) : State :=
  if (getSrc s n).live then modSrc s n fun x => { x with live := x.force, evNow := false, evPrev := false } else s

/-- Sets or clears the force bit of a source (R291). -/
def setForce (s : State) (n : Nat) (v : Bool) : State :=
  let x := getSrc s n
  let s1 := modSrc s n fun x => { x with force := v }
  if absent s n then s
  else if v && !x.live then rise s1 n 0 true
  else if !v && x.force && x.live && !x.cond && !x.evNow && !x.evPrev then modSrc s1 n fun x => { x with live := false }
  else s1

/-- Event sources fall at the boundary that closes a window without an event (R280). -/
def fallEvents (s : State) : State :=
  (s.rind.src.map (·.1)).foldl (fun t n =>
    if srcIsEvent n then modSrc t n fun x =>
      { x with live := x.live && (x.evNow || x.force), evNow := false, evPrev := x.evNow }
    else t) s

/-! ### Clearing -/

/-- Clears one source that qualifies (R292); none: it does not. The accepted clear writes a log entry. -/
def clearSrc (s : State) (n : Nat) : Option State :=
  let x := getSrc s n
  if x.live || s.rind.lockout then none
  else if !x.sticky && !x.latch then some s
  else
    let (t, s1) := instant s
    let s2 := logAndRing s1 0x1002 t true (recordB x) (leB 2 n)
    some (modSrc s2 n fun x =>
      { Src.zero with live := x.live, cond := x.cond, evNow := x.evNow, evPrev := x.evPrev, force := x.force })

/-- RIND_FIRST clears only when every sticky of class 1 or above has been cleared (R283). -/
def clearFirst (s : State) : State :=
  if s.rind.src.any fun (_, x) => x.sticky && decide (1 ≤ x.applied) then s
  else { s with rind := { s.rind with first := none } }

/-- Clears every source of a list that qualifies; the flag says that one was skipped. -/
def clearMany (s : State) (l : List Nat) : State × Bool :=
  let (t, skip) := l.foldl (fun (t, skip) n => match clearSrc t n with | some u => (u, skip) | none => (t, true)) (s, false)
  (clearFirst t, skip)

/-- The highest applied class among standing sources (R293). -/
def standing (s : State) : Nat :=
  maxOf (s.rind.src.map fun (_, x) => if x.latch || (x.sticky && x.applied == 4) then x.applied else 0)

/-! ### Pins and interrupts -/

/-- Something holds TRIP_N asserted (R286, R287, R408). -/
def tripHeld (s : State) : Bool :=
  s.rind.lockout || s.rind.holding || s.rind.tripBoot || (s.rind.src.any fun (_, x) => x.latch3)

/-- Completions of queue q beyond its head, or an unfetched SPI completion (Table 13-10). -/
def queuePend (s : State) (q : Nat) : Bool :=
  let x := getQ s q
  flag s .cmdQCfg_int_en q && (x.spi.isSome ||
    (fld s .cmdQCfg_transport q == 0 && x.mode != .disabled && x.cqTail != fld s .cmdCqHead_head q))

/-- The Rind vector: an unmasked class bit of RIND_INT_STS (R301). -/
def rindPend (s : State) : Bool :=
  (List.range 4).any fun i => bitAt (fld0 s .rindIntSts_cls) i && !bitAt (fld0 s .rindIntSts_mask) i

/-- Pending condition of vector v (Table 13-10). -/
def vecPend (s : State) (v : Nat) : Bool :=
  if v < 32 then queuePend s v
  else if v < 40 then
    let e := v - 32
    flag s .cmdEvCfg_enable e && !flag s .cmdEvCfg_udp e && (getRing s e).tail != fld s .cmdEvHead_head e
  else if v = 40 then rindPend s
  else if v = 41 then s.cmd.sts != 0
  else false

/-- Vector v is masked in the MSI-X table (R332). -/
def vecMasked (s : State) (v : Nat) : Bool := flag s .msixCtrl_mask v

/-- Sends the message of vector v, or holds it in the pending-bit array while the vector is masked. -/
def signal (s : State) (v : Nat) : State :=
  if vecMasked s v then { s with cmd := { s.cmd with pba := s.cmd.pba ||| BitVec.ofNat 64 (2 ^ v) } }
  else
    let a := rword s .msixAddrLo v + 2 ^ 32 * rword s .msixAddrHi v
    { (send s (.msi a (BitVec.ofNat 32 (rword s .msixData v)))) with
      cmd := { s.cmd with pba := s.cmd.pba &&& ~~~(BitVec.ofNat 64 (2 ^ v)) } }

/-- Vectors whose condition rises send their message, held messages leave once unmasked; INT_N follows the enabled pending bits. -/
def signalAll (s : State) : State :=
  let s1 := (List.range 42).foldl (fun t v =>
    let p := vecPend t v
    let was := t.cmd.pend.getLsbD v
    let held := t.cmd.pba.getLsbD v
    let t1 := { t with cmd := { t.cmd with
      pend := if p then t.cmd.pend ||| BitVec.ofNat 42 (2 ^ v) else t.cmd.pend &&& ~~~(BitVec.ofNat 42 (2 ^ v)) } }
    if (p && !was) || (held && !vecMasked t v) then signal t1 v else t1) s
  let en := rword s1 .cmdIntEnLo 0 + 2 ^ 32 * fld0 s1 .cmdIntEnHi_en
  { s1 with cmd := { s1.cmd with intN := (s1.cmd.pend.toNat &&& en) != 0 } }

/-- What claims GPIO i, the earlier claim first, and the level it drives (R445): HOLD-BUS for GPIO 14 and 15 (Table 17-6), the
oscillator gate (R396, R401), the twin role (R222). -/
def gpioClaim (s : State) (i : Nat) : Option Bool :=
  let live := s.mode.conv == .run || s.mode.conv == .rampDown
  let osc := s.power.mode != .cure || s.power.wakeStep == some 2
  let cfg := s.power.cfg
  if s.boot.rstLow || s.boot.porstLow || !s.boot.aonUp then none
  else if s.boot.holdBus && i == 14 then some (live || s.mode.conv == .precharge)
  else if s.boot.holdBus && i == 15 then some live
  else if bitAt cfg 0 && bitsAt cfg 1 4 == i then some (osc != bitAt cfg 5)
  else if flag s .twinCfg_role_gpio_en 0 && fld0 s .twinCfg_role_gpio == i then some (s.twin.role == .primary)
  else none

/-- The main PLL is powered down, relocking or not in use: `PLL_LD` is held high (R370). -/
def pllIdle (s : State) : Bool := s.power.mode == .cure || s.clk.onSafe || s.clk.relock != .idle

/-- What `CLKOUT_n` carries (R376), an even divider high for half its cycles, an odd one for the longer half: nothing while off or in CURE, from the core clock while that is not the main PLL's, and until the first
rising edge after `SYNC_IN` (R373, R375, R377, R397). -/
def clkOutOf (s : State) (n : Nat) : Option (Nat × Nat × Nat) :=
  let src := fld s .strClkoutCfg_src n
  if fld s .strClkoutCfg_fmt n = 0 ∨ s.power.mode = .cure ∨ (src = 0 ∧ pllIdle s) ∨ (s.clk.sync.getD n none).isSome then none
  else
    let div := fld s .strClkoutCfg_div_m1 n + 1
    some (src, div, (div + 1) / 2)

/-- PLL_LD, CLKOUT_n, and the GPIO pads, which follow their claims; in CURE they hold, but for the oscillator gate of the Wax domain (R398, Table 19-8a). -/
def updGpio (s : State) : State :=
  let bits := fun (f : Nat → Bool) => BitVec.ofNat 16 ((below 16 f).map (2 ^ ·)).sum
  let hold := fun i => s.power.mode == .cure && !(bitAt s.power.cfg 0 && bitsAt s.power.cfg 1 4 == i)
  { s with boot := { s.boot with
      gpioDrive := bits fun i => if hold i then s.boot.gpioDrive.getLsbD i else (gpioClaim s i).isSome
      gpioOut := bits fun i => if hold i then s.boot.gpioOut.getLsbD i else (gpioClaim s i).getD false
      pllLd := pllIdle s
      clkOut := (List.range 4).map (clkOutOf s) } }

/-- Level of `PLL_LD`, inside a phase error pulse or outside one (R370). -/
def pllLd (s : State) (pulse : Bool) : Bool := s.boot.pllLd || pulse

/-- TRIP_N, SAFE_N, PLL_LD and the GPIO pads follow their causes; in CURE all but PLL_LD hold (R370, R398). -/
def updPins (s : State) : State :=
  let t := updGpio s
  if s.power.mode = .cure then t
  else { t with rind := { t.rind with tripN := tripHeld t, safeN := t.rind.lockout || t.boot.rstLow || t.boot.porstLow } }

/-- The rises of the row itself are over (R283). -/
def endRises (s : State) : State := { s with rind := { s.rind with firstNow := false } }

/-- Takes the sources raised by reactions, at most `n` of them. -/
def takeTodo : Nat → State → State
  | 0, s => s
  | n + 1, s =>
    match s.rind.todo with
    | [] => s
    | (i, d) :: rest =>
      let s1 := { s with rind := { s.rind with todo := rest } }
      takeTodo n (if srcIsEvent i then raiseE s1 i d else setC s1 i true d)

end Sys2Proof.Machine
end

