-- ==== Sys2Proof/Machine/Points.lean ====
section
/-!
DEFINITION. The Curd table (chapter 05): point addresses, writers, descriptors, the hygiene chain of R128 with its calibration, limit
comparators on the calibrated samples (R297, R298), and how the Press reads points.
-/
namespace Sys2Proof.Machine

/-! ### Addresses and writers -/

/-- PA of cell point i (R120). -/
def cellPa (c i : Nat) : Nat := c * 512 + i

/-- PA of station, phase or branch point j (R120). -/
def stPa (j : Nat) : Nat := 294912 + j

/-- Branch b's Level 2 point i, and phase p's Level 3 point i (Table 05-3). -/
def brPa (b i : Nat) : Nat := stPa (1792 + 192 * b + i)
def phPa (p i : Nat) : Nat := stPa (1024 + 256 * p + i)

/-- Writer code of a point (Tables 05-1, 05-3, 05-6). -/
def writerOf (pa : Nat) : Nat :=
  if pa < 294912 then
    let i := pa % 512
    if i < 64 then 1 else if i < 76 then 5 else if i < 192 then 4 else if i < 320 then 5
    else if i < 384 then 1 else 0
  else
    let j := pa - 294912
    if j < 32 then 2 else if j < 49 then 3 else if j < 64 then 0 else if j < 512 then 4 else if j < 1024 then 7
    else if j < 1792 then (if (j - 1024) % 256 < 192 then 4 else 7)
    else if j < 4096 then (if (j - 1792) % 192 < 128 then 4 else 7) else 0

/-- The points whose samples pass the hygiene chain: the uplink fields, the decimators, the pin filters (R128). -/
def isInput (pa : Nat) : Bool :=
  if pa < 294912 then decide (pa % 512 < 61) else decide (pa < 294912 + 49)

/-- A point before its first write: an input point is stale with age 255 (R125), any other has status 0. -/
def pointInit (pa : Nat) : Point := if isInput pa then { Point.zero with stale := true, age := 255 } else Point.zero

def getPt (s : State) (pa : Nat) : Point := tget (pointInit pa) s.curd.points pa
def modPt (s : State) (pa : Nat) (f : Point → Point) : State :=
  { s with curd := { s.curd with points := tmod (pointInit pa) s.curd.points pa f } }

/-- The branch a point belongs to, 12 for none. -/
def branchOfPa (pa : Nat) : Nat :=
  if pa < 294912 then pa / 512 / 48
  else let j := pa - 294912; if 1792 ≤ j ∧ j < 4096 then (j - 1792) / 192 else 12

/-- R124: the point of a cell outside the cell map, or of an absent branch, is not there. -/
def ptAbsent (s : State) (pa : Nat) : Bool :=
  if pa < 294912 then !(getLink s (pa / 512)).inMap || !brPresent s (pa / 512 / 48)
  else let b := branchOfPa pa; decide (b < 12) && !brPresent s b

/-- A point as any reader sees it (R124). -/
def seePt (s : State) (pa : Nat) : Point :=
  if ptAbsent s pa then { Point.zero with stale := true, age := 255 } else getPt s pa

/-- Status word (Table 05-5). -/
def statusW (p : Point) : Nat :=
  b2n p.stale + 2 * b2n p.frozen + 4 * b2n p.range + 8 * b2n p.rateLim + 16 * b2n p.held + 256 * min p.age 255

/-- Value as the Press reads it. -/
def ptV (s : State) (pa : Nat) : Int := h2i (seePt s pa).val

/-- R126: valid unless stale or frozen. -/
def ptValid (s : State) (pa : Nat) : Bool := let p := seePt s pa; !p.stale && !p.frozen

/-- A write by the Press, the Affinage unit, Rind or the Whey link's link health: status 0, last_k of this frame (R125, R128). -/
def putPt (s : State) (pa : Nat) (v : Half) : State :=
  modPt s pa fun _ => { Point.zero with val := v, lastK := BitVec.ofNat 16 s.frame.k }

/-- As `putPt`, from a signed value. -/
def putPtI (s : State) (pa : Nat) (v : Int) : State := putPt s pa (toHalf v)

/-! ### Descriptors (R127) -/

/-- Descriptor index of a point. -/
def descIdx (pa : Nat) : Nat := if pa < 294912 then pa % 512 else 512 + (pa - 294912)

/-- A PA that has the descriptor (for its writer). -/
def descPa (di : Nat) : Nat := if di < 512 then di else 294912 + (di - 512)

/-- Default descriptors (Tables 05-2, 05-6). -/
def descInit (di : Nat) : Desc :=
  let w := writerOf (descPa di)
  if (w = 1 ∧ ¬(61 ≤ di ∧ di < 64)) ∨ w = 2 ∨ w = 3 then
    let base := if di < 20 then [1, 3, 1, 5, 5, 5, 7, 2].getD di 2 else 0
    let noise := if di < 6 ∨ (8 ≤ di ∧ di < 20) then 1 else if 512 ≤ di ∧ di < 544 then 1 else 0
    if base = 0 then ⟨0, 0xFFFE, 0, 1, 64, noise, 0, 0⟩ else ⟨0x8000, 0x7FFF, 0, 1, 64, noise, base, 0⟩
  else ⟨0x8000, 0x7FFF, 0, 0, 0, 0, 0, 0⟩

def getDesc (s : State) (di : Nat) : Desc := tget (descInit di) s.curd.descs di

/-- Value of a code under a descriptor: unsigned for class 0. -/
def codeV (d : Desc) (h : Half) : Int := if d.base = 0 then h.toNat else h2i h

/-- The base of class j in milli-units; 0 is applied as the reset value (Table 05-8). -/
def baseOf (s : State) (j : Nat) : Nat :=
  let v := rword s .curdBase j
  if v = 0 then RegName.resetWord .curdBase j else v

/-- User gain and offset (R134), neutral by default (R19). -/
def userCal (s : State) (pa : Nat) : Half × Half := tget (0x4000, 0) s.curd.ucal pa

/-! ### Samples -/

/-- Sources of an input point: stale, frozen, range, rate (Table 05-7). -/
def hygSrc (pa q : Nat) : Nat :=
  if pa < 294912 then cellSrc (pa / 512) (9 + q) else 278 + 4 * (pa - 294912) + q

/-- Input points of a cell, or the station point itself. -/
def hygGroup (pa : Nat) : List Nat := if pa < 294912 then (List.range 61).map (cellPa (pa / 512)) else [pa]

/-- F_CURD_STALE and F_CURD_FROZEN follow the flags of the points they stand for; a rise names the point that made it, the lowest of
several (R142). -/
def hygLive (s : State) (pa : Nat) : State :=
  let st := (hygGroup pa).find? fun p => (getPt s p).stale
  let fr := (hygGroup pa).find? fun p => (getPt s p).frozen
  setC (setC s (hygSrc pa 0) st.isSome (BitVec.ofNat 32 (st.getD pa))) (hygSrc pa 1) fr.isSome (BitVec.ofNat 32 (fr.getD pa))

/-- An infinity of binary32: whether it is negative. -/
def inf32 (w : Nat) : Option Bool := if w % 2 ^ 31 = 0x7F800000 then some (bitAt w 31) else none

/-- The calibrated value of a raw code (R128, R131): none where the record's offset is no number, for which the rule states no
result; an infinite one saturates. For uncalibrated points whose base is not 0 the factory source is the model's (DESIGN CHOICE, log entry 100). -/
def calibrate (s : State) (pa : Nat) (r : Half) : Option Int :=
  let d := getDesc s (descIdx pa)
  if d.base = 0 then some r.toNat
  else
    let b := baseOf s d.base
    let xf : Option Int :=
      if pa < 294912 then
        let f := ((getLink s (pa / 512)).fact).getD []
        let i := pa % 512
        match dec32 (fieldAt f (8 * i) 4), dec32 (fieldAt f (8 * i + 4) 4) with
        | some g, some o => some (factoryStage (h2i r) g o b)
        | some _, none => (inf32 (fieldAt f (8 * i + 4) 4)).map fun neg => if neg then -32768 else 32767
        | none, _ => none
      else
        let g := div64 (div64 (dyOfInt d.fs) (dyOfInt 1000)) (dyOfInt 32768)
        some (factoryStage (h2i r) g ⟨0, 0⟩ b)
    let (ug, uo) := userCal s pa
    xf.map fun x => sat16 (asr (x * h2i ug) 14 + h2i uo)

/-- Bits set in a history word. -/
def popcount8 (h : BitVec 8) : Nat := ((List.range 8).filter fun i => h.getLsbD i).length

/-- The frozen check on the raw code (R128). -/
def frozenCheck (d : Desc) (r : Half) (p : Point) : Point :=
  if d.noise ≥ 1 ∧ d.frzN ≠ 0 then
    let n := if d.frzN = 1 then 2 else d.frzN
    let chg := r != p.lastRaw
    let hist := (p.hist <<< 1) ||| BitVec.ofNat 8 (b2n chg)
    let same := if chg then 0 else min (p.same + 1) 1023
    { p with
      hist := hist
      same := same
      frozen := if n ≤ same then true else if p.frozen ∧ 2 ≤ popcount8 hist then false else p.frozen
      lastRaw := r }
  else { p with lastRaw := r }

/-- F_CURD_RATE after 8 clamped samples in a row (R142); the run then starts again (DESIGN CHOICE, log entry 101). -/
def rateRunCheck (s : State) (pa : Nat) : State :=
  if 8 ≤ (getPt s pa).rateRun then
    raiseE (modPt s pa fun p => { p with rateRun := 0 }) (hygSrc pa 3) (BitVec.ofNat 32 pa)
  else s

/-- The range and rate steps and the store of R128, for calibrated value x. -/
def storeStep (d : Desc) (k : Nat) (x : Int) (p : Point) : Point :=
  if x < codeV d d.min ∨ codeV d d.max < x then { p with range := true }
  else
    let lim : Int := d.rateMax * (k - p.accK : Nat)
    let v := codeV d p.val
    let y := if d.rateMax ≠ 0 ∧ p.accepted then clampI (v - lim) (v + lim) x else x
    let cl := decide (y ≠ x)
    { p with
      range := false
      rateLim := if d.rateMax ≠ 0 ∧ p.accepted then cl else p.rateLim
      rateRun := if cl then p.rateRun + 1 else 0
      val := BitVec.ofInt 16 y
      age := 0
      stale := false
      held := false
      lastK := BitVec.ofNat 16 k
      accepted := true
      accK := k
      fresh := true }

/-- One sample of an input point through the hygiene chain (R128). Answers the calibrated value for the limit comparators. -/
def sample (s : State) (pa : Nat) (r : Half) : State × Int :=
  let d := getDesc s (descIdx pa)
  let (x, s0) : Int × State := match calibrate s pa r with
    | some x => (x, s)
    | none => let (v, t) := draw s; (h2i (BitVec.ofNat 16 v), t)
  let s1 := modPt s0 pa fun p => storeStep d s.frame.k x (frozenCheck d r p)
  let rejected := decide (x < codeV d d.min) || decide (codeV d d.max < x)
  let s2 := if rejected then raiseE s1 (hygSrc pa 2) (BitVec.ofNat 32 pa) else rateRunCheck s1 pa
  (s2, x)

/-- A marker code (R129): value kept, held set, age 0 (so stale is clear, Table 05-5), last_k of this frame. -/
def markerSample (s : State) (pa : Nat) : State :=
  modPt s pa fun p => { p with held := true, age := 0, stale := false, lastK := BitVec.ofNat 16 s.frame.k, fresh := true }

/-- R128, R129: at a snapshot age advances where no sample came, and stale is evaluated. -/
def ageStep (d : Desc) (p : Point) : Point :=
  let age := if p.fresh then p.age else satInc 255 p.age
  { p with
    age := age
    held := p.held || !p.fresh
    stale := decide (d.staleTo ≠ 0) && decide (d.staleTo ≤ age)
    fresh := false }

/-- Input points that the snapshot looks at: those of every cell in the map, the station inputs, and those of cells that have left the
map; a point that has never been written stands at age 255 and has no age to advance. -/
def inputPas (s : State) : List Nat :=
  ((allCells s).flatMap fun c => (List.range 61).map (cellPa c)) ++ (List.range 49).map stPa ++
    ((s.curd.points.map (·.1)).filter fun pa => isInput pa && ptAbsent s pa)

/-- Ages and stale flags of every input point at a snapshot, and the sources that follow them. F_CURD_STALE and F_CURD_FROZEN are judged
for the cells in the map; those of another cell stay down, although its points read stale (DESIGN CHOICE, log entry 146). -/
def snapshotHygiene (s : State) : State :=
  let s1 := (inputPas s).foldl (fun t pa => modPt t pa (ageStep (getDesc t (descIdx pa)))) s
  let s2 := (allCells s1).foldl (fun t c => hygLive t (cellPa c 0)) s1
  (List.range 49).foldl (fun t j => hygLive t (stPa j)) s2

/-! ### Limit comparators (R297, R298) -/

/-- Detail of a limit source: value and point index. -/
def limDetail (i : Nat) (x : Int) : Word := BitVec.ofNat 32 (ux 16 x + 2 ^ 16 * i)

/-- The comparators of a cell over the calibrated samples of one uplink: (point index, value); fields without a sample are not
listed. -/
def cellLimits (s : State) (c : Nat) (xs : List (Nat × Int)) : State :=
  let v := fun i => (xs.find? fun p => p.1 = i).map (·.2)
  let lim := fun f => sx 16 (fld0 s f)
  let role := (getCtl s c).role
  let s1 := match v 0 with
    | some x => setC s (cellSrc c 27) (decide (lim .rindCellLim0_ov < x)) (limDetail 0 x)
    | none => s
  let s2 := match v 0 with
    | some x => setC s1 (cellSrc c 28)
        (decide (lim .rindCellLim0_uv ≠ 0) && decide (x < lim .rindCellLim0_uv) &&
          (role == .inserted || role == .spare)) (limDetail 0 x)
    | none => s1
  let cur := xs.filter fun p => 3 ≤ p.1 ∧ p.1 ≤ 5
  let oc := lim .rindCellLim1_oc
  let s3 := if cur.isEmpty then s2
    else match cur.find? fun p => decide (oc ≠ 32767) && decide (oc < absI p.2) with
      | some (i, x) => setC s2 (cellSrc c 29) true (limDetail i x)
      | none => setC s2 (cellSrc c 29) false 0
  match v 6 with
  | some x => setC s3 (cellSrc c 30) (decide (lim .rindCellLim1_ot < x)) (limDetail 6 x)
  | none => s3

/-- The comparators of sigma-delta input i. -/
def sdLimits (s : State) (i : Nat) (x0 : Int) : State :=
  let x := sx 16 (ux 16 x0)
  let d := limDetail i x
  let g := fun f => sx 16 (fld s f i)
  let s1 := setC s (506 + 4 * i) (decide (g .rindSdLim1_hi1 < x)) d
  let s2 := setC s1 (507 + 4 * i) (decide (x < g .rindSdLim1_lo1)) d
  let s3 := setC s2 (508 + 4 * i) (decide (g .rindSdLim2_hi2 < x)) d
  setC s3 (509 + 4 * i) (decide (x < g .rindSdLim2_lo2)) d

end Sys2Proof.Machine
end

