-- ==== Sys2Proof/Machine/AffCoef.lean ====
section
/-!
DEFINITION. The ageing coefficients of a cell (R257): bytes 164 to 423 of its factory record.
-/
namespace Sys2Proof.Machine

def getPlan (s : State) (c : Nat) : Plan := tget Plan.zero s.aff.plans c
def modPlan (s : State) (c : Nat) (f : Plan → Plan) : State :=
  { s with aff := { s.aff with plans := tmod Plan.zero s.aff.plans c f } }

/-- Word at an offset of the coefficient block. -/
def coefAt (l : List Byte) (o : Nat) : Word := BitVec.ofNat 32 (fieldAt l (164 + o) 4)

/-- A write to an Affinage point: status 0, but stale for a cell that is paused or without coefficients (R257, R267). -/
def affPut (s : State) (c i : Nat) (v : Int) : State :=
  let p := getPlan s c
  modPt s (cellPa c i) fun _ =>
    { Point.zero with val := toHalf v, lastK := BitVec.ofNat 16 s.frame.k, stale := p.paused || !p.valid }

/-- PT_AFF_STS (Table 10-2). -/
def affStsPoint (s : State) (c : Nat) : State :=
  let p := getPlan s c
  affPut s c 288 ((b2n p.valid + 2 * b2n p.paused + 4 * b2n p.unreach + 8 * b2n p.capLim : Nat) : Int)

/-- A positive finite value. -/
def f32Positive (w : Word) : Bool := match f32Of w with | .fin x => decide (0 < x.m) | _ => false

/-- A finite value. -/
def f32Finite (w : Word) : Bool := match f32Of w with | .fin _ => true | _ => false

/-- The block passes R257: its CRC, and every value but td1, word 16 of a bridge's 20, positive and finite. -/
def coefBlockOk (l : List Byte) : Bool :=
  decide (424 ≤ l.length) && (crc32 ((l.drop 164).take 256)).toNat == fieldAt l 420 4 &&
  (List.range 64).all fun i =>
    (decide (i < 60) && i % 20 == 16) || f32Positive (coefAt l (4 * i))

/-- Points 64–75 and 192–319 of a cell carry stale while it is paused or without coefficients (R257, R267). -/
def affStale (s : State) (c : Nat) : State :=
  let p := getPlan s c
  let v := p.paused || !p.valid
  ((List.range 12).map (64 + ·) ++ (List.range 128).map (192 + ·)).foldl (fun t i => modPt t (cellPa c i) fun x => { x with stale := v }) s

/-- The neutral values of R271: every plan quantity of a cell, its targets, and the quantities in force. -/
def neutralCell (s : State) (c : Nat) : State :=
  modCtl (modPlan s c fun x => { Plan.zero with missing := x.missing, paused := x.paused }) c fun x =>
    { x with weight := 0x7FFF, ilim := 0x7FFF, fo := 0, trims := List.replicate 12 0, pref := false }

/-- A cell's factory record is known: its coefficient block is taken or raises F_AFF_FCAL; bit 0 of PT_AFF_STS says which. The plan
quantities of a cell whose block fails are neutral (R257). -/
def takeCoef (s : State) (c : Nat) (l : List Byte) : State :=
  let ok := coefBlockOk l
  let s0 := if ok then s else neutralCell s c
  let s1 := affStsPoint (affStale (modPlan s0 c fun x => { x with valid := ok }) c) c
  setC s1 (cellSrc c 19) (!ok) (BitVec.ofNat 32 c)

end Sys2Proof.Machine
end

