-- ==== Sys2Proof/Machine/Complete.lean ====
section
/-!
DEFINITION. Ending commands (chapter 13): completions and replies on the three transports (R319, R324, R330, R331), scope locks
(R333 to R336), commands at a wait point (R321), and `settle`, which ends every row.
-/
namespace Sys2Proof.Machine

/-! ### Status codes (Table 13-4) -/

def stOk : Nat := 0x0000
def stLockBroken : Nat := 0x0001
def stBadHeader : Nat := 0x8001
def stBadOpcode : Nat := 0x8002
def stBadLength : Nat := 0x8003
def stBadScope : Nat := 0x8004
def stBadParam : Nat := 0x8005
def stRange : Nat := 0x8006
def stReadOnly : Nat := 0x8007
def stBusy : Nat := 0x8008
def stConvState : Nat := 0x8009
def stStillActive : Nat := 0x800A
def stLockout : Nat := 0x800B
def stLocked : Nat := 0x800C
def stLockOrder : Nat := 0x800D
def stLockHeld : Nat := 0x800E
def stLockExpired : Nat := 0x800F
def stNotOwner : Nat := 0x8010
def stRefused : Nat := 0x8011
def stNodeError : Nat := 0x8012
def stNodeTimeout : Nat := 0x8013
def stNoPermit : Nat := 0x8014
def stFaultStanding : Nat := 0x8015
def stFlash : Nat := 0x8016
def stDma : Nat := 0x8017
def stReplySpace : Nat := 0x8018
def stAborted : Nat := 0x8019

/-! ### Completions -/

/-- Largest reply a UDP datagram takes (Table 13-9). -/
def udpLimit (s : State) : Nat := if flag s .cmdUdpCfg_jumbo 0 then 8944 else 1456

/-- Reply space of a command (R319, R330). -/
def replySpace (s : State) (p : Packet) : Nat :=
  if p.transport = 1 then min (4 * p.replyMax.toNat) (udpLimit s) else 4 * p.replyMax.toNat

/-- Completion bytes (Table 13-3). -/
def completionB (p : Packet) (phase : Bool) (status sqHead result kexec : Nat) : List Byte :=
  leB 2 p.tag.toNat ++ leB 1 p.queue.toNat ++ leB 1 (b2n phase) ++ leB 2 status ++ leB 2 sqHead ++ leB 4 result ++
  leB 4 kexec

/-- Entries per ring of queue q. -/
def queueSize (s : State) (q : Nat) : Nat := max 2 (fld s .cmdQCfg_size q)

/-! ### Locks -/

/-- The first scope contains the second or equals it. -/
def contains (a b : LockKey) : Bool :=
  match a.depth with
  | 0 => true
  | 1 => (b.depth == 1 && b.num == a.num) || (b.depth == 2 && b.num / 4 == a.num) || (b.depth == 3 && b.num / 192 == a.num)
  | 2 => (b.depth == 2 && b.num == a.num) || (b.depth == 3 && b.num / 48 == a.num)
  | _ => b.depth == 3 && b.num == a.num

/-- Two scopes overlap (R333). -/
def overlap (a b : LockKey) : Bool := contains a b || contains b a

/-- The station scope. -/
def stationKey : LockKey := ⟨0, 0⟩

/-- Keys compare by depth, then number. -/
def keyLt (a b : LockKey) : Bool := decide (a.depth < b.depth) || (a.depth == b.depth && decide (a.num < b.num))

/-- A lock of another queue that overlaps a scope. -/
def otherLock (s : State) (q : Nat) (k : LockKey) : Option Lock := s.cmd.locks.find? fun l => l.queue ≠ q && overlap l.key k

/-- Scope of a register (R431). -/
def regKey (r : RegName) (i : Nat) : LockKey :=
  match r with
  | .harpProfMv | .harpProfDab | .pressCprof0 | .pressCprof1 | .pressCprof2 | .pressCprof3 | .pressCprof4 | .pressCprof5 =>
    ⟨2, i / 8⟩
  | .harpDtCfg => ⟨2, i / 3⟩
  | .laneCfg | .laneSts | .laneEq | .laneEyeCtl | .laneCntHdr | .laneCntStuff | .laneCntFill | .laneCntAbort | .laneCntLol
  | .laneCntSat => if i < 24 then ⟨2, i / 2⟩ else stationKey
  | .wlBrCfg | .wlBrSts | .wlCntUpbad | .wlCntMiss | .wlCntBulkto | .wlCntResplit | .wlCntSat | .chedBrCfg | .chedBrSts =>
    ⟨2, i⟩
  | _ => stationKey

/-- A scope word of R317 as a key: none where the code is no scope or its fields are out of range (Table 00-2). Cells are named by
branch and position in the chain. -/
def scopeKey (w : Nat) : Option LockKey :=
  let p := bitsAt w 0 2; let br := bitsAt w 2 2; let c := bitsAt w 4 6; let sel := bitsAt w 12 4
  if bitsAt w 10 2 ≠ 0 then none
  else if sel = 15 then
    if br ≠ 0 ∨ c ≠ 0 then none else if p = 3 then some ⟨0, 0⟩ else some ⟨1, p⟩
  else if p = 3 then none
  else if sel = 14 then (if c ≠ 0 then none else some ⟨2, 4 * p + br⟩)
  else if 47 < c then none
  else if sel = 13 ∨ sel ≤ 11 then some ⟨3, (4 * p + br) * 48 + c⟩
  else none

/-- Scope of a loop instance: its committed scope field (R431). -/
def instKey (s : State) (n : Nat) : LockKey := (scopeKey (tget LoopDesc.zero s.press.loops n).scope.toNat).getD stationKey

/-- Field f of a loop descriptor. -/
def loopField (d : LoopDesc) (f : Nat) : Nat :=
  [d.kind, d.level, d.scope.toNat, d.order, d.nu, d.in0, d.in1, d.in2, d.in3, d.out, d.loPt, d.hiPt, d.loC.toNat, d.hiC.toNat, d.obs,
   b2n d.grid, b2n d.critical, d.group, d.modeMask.toNat, d.slew, d.hold, d.tHand].getD f 0

/-- A loop descriptor with field f set. -/
def setLoopField (d : LoopDesc) (f v : Nat) : LoopDesc :=
  match f with
  | 0 => { d with kind := v }
  | 1 => { d with level := v }
  | 2 => { d with scope := BitVec.ofNat 16 v }
  | 3 => { d with order := v }
  | 4 => { d with nu := v }
  | 5 => { d with in0 := v }
  | 6 => { d with in1 := v }
  | 7 => { d with in2 := v }
  | 8 => { d with in3 := v }
  | 9 => { d with out := v }
  | 10 => { d with loPt := v }
  | 11 => { d with hiPt := v }
  | 12 => { d with loC := BitVec.ofNat 16 v }
  | 13 => { d with hiC := BitVec.ofNat 16 v }
  | 14 => { d with obs := v }
  | 15 => { d with grid := v != 0 }
  | 16 => { d with critical := v != 0 }
  | 17 => { d with group := v }
  | 18 => { d with modeMask := BitVec.ofNat 32 v }
  | 19 => { d with slew := v }
  | 20 => { d with hold := v }
  | _ => { d with tHand := v }

/-- Words of the inactive bank that queue q wrote within a scope return to those of the active one (R336). -/
def restoreCoefs (s : State) (q : Nat) (k : LockKey) : State :=
  let mine := (s.press.coefOwner.filter fun (a, o) => bitAt o q && contains k (instKey s (a / 128))).map (·.1)
  mine.foldl (fun t a =>
    let act := tget 0 (if t.press.activeB then t.press.bankB else t.press.bankA) a
    let p := t.press
    { t with press := { p with
        bankA := if p.activeB then tset 0 p.bankA a act else p.bankA
        bankB := if p.activeB then p.bankB else tset 0 p.bankB a act
        coefOwner := tset 0 p.coefOwner a 0 } }) s

/-- A register's shadow without what queue q wrote; none where nothing is pending then. -/
def restoreReg (s : State) (q : Nat) (k : LockKey) (e : Nat × Shadow) : Option (Nat × Shadow) :=
  match regAt e.1 with
  | some (r, i) =>
    if contains k (regKey r i) then
      let v := blend (tget 0 e.2.own q) (rword s r i) e.2.val.toNat
      if v = rword s r i then none else some (e.1, ⟨BitVec.ofNat 32 v, tset 0 e.2.own q 0⟩)
    else some e
  | none => some e

/-- A pending loop descriptor without the fields queue q wrote; none where nothing is pending then. -/
def restoreLoop (s : State) (q : Nat) (k : LockKey) (e : Nat × LoopDesc × Tbl Nat) : Option (Nat × LoopDesc × Tbl Nat) :=
  if contains k (instKey s e.1) then
    let now := tget LoopDesc.zero s.press.loops e.1
    let m := tget 0 e.2.2 q
    let d := (below 22 (bitAt m)).foldl (fun d f => setLoopField d f (loopField now f)) e.2.1
    if d = now then none else some (e.1, d, tset 0 e.2.2 q 0)
  else some e

/-- Returns the fields that queue q wrote within a scope to the values in force (R336): registers, loop descriptors, coefficients. -/
def restoreShadows (s : State) (q : Nat) (k : LockKey) : State :=
  restoreCoefs { s with
    regs := { s.regs with shadow := s.regs.shadow.filterMap (restoreReg s q k) }
    press := { s.press with loopShadow := s.press.loopShadow.filterMap (restoreLoop s q k) } } q k

/-- A scope as the two bytes of Table 13-2. -/
def keyScope (k : LockKey) : Nat :=
  match k.depth with
  | 0 => 0xF003
  | 1 => 0xF000 + k.num
  | 2 => 0xE000 + k.num / 4 + 4 * (k.num % 4)
  | _ => 0xD000 + k.num / 192 + 4 * (k.num / 48 % 4) + 16 * (k.num % 48)

/-- Breaks one lock (R336): `cause` 0 expired, 1 queue reset, 2 queue error. -/
def breakLock (s : State) (l : Lock) (cause : Nat) : State :=
  let s1 := { s with cmd := { s.cmd with
    locks := s.cmd.locks.filter (· ≠ l)
    broken := s.cmd.broken ++ [l.key]
    sts := s.cmd.sts ||| 4 } }
  let s2 := restoreShadows s1 l.queue l.key
  let s3 := modQ s2 l.queue fun x => { x with expired := x.expired ++ [l.key] }
  let s4 := postEvent s3 0x5001 (leB 2 (keyScope l.key) ++ leB 1 l.queue ++ leB 1 cause)
  if cause = 0 then raiseE s4 (865 + l.queue) (BitVec.ofNat 32 l.queue) else raiseE s4 905 (BitVec.ofNat 32 l.queue)

/-- Breaks every lock of a queue. -/
def breakLocks (s : State) (q cause : Nat) : State :=
  (s.cmd.locks.filter (·.queue = q)).foldl (fun t l => breakLock t l cause) s

/-- Returns every shadow queue q wrote to the value in force. -/
def discardQueue (s : State) (q : Nat) : State := restoreShadows s q stationKey

/-- Queue q enters ERROR with a code (Table 13-6): its locks break, F_CMD_QERR[q] rises. -/
def qError (s : State) (q code : Nat) : State :=
  if (getQ s q).mode = .active then
    let s1 := modQ s q fun x => { x with mode := .error, err := code }
    let s2 := raiseE { s1 with cmd := { s1.cmd with sts := s1.cmd.sts ||| 2 } } (833 + q) (BitVec.ofNat 32 q)
    breakLocks s2 q 2
  else s

/-- Writes a completion and its reply on the packet's transport. A queue that is being reset writes none; a write
that the host does not take puts the queue in ERROR (Table 13-6). -/
def deliver (s : State) (p : Packet) (status result kexec : Nat) (reply : List Byte) : State :=
  let q := p.queue.toNat
  let x := getQ s q
  if x.mode = .resetting then modQ s q fun x => { x with mode := .disabled }
  else if p.transport = 0 then
    if x.mode = .disabled then s
    else if 2 ^ 64 ≤ p.reply then qError s q 3
    else
      let s1 := if reply.isEmpty then s else send s (.dma p.reply reply)
      let a := rword s .cmdCqBaseLo q + 2 ^ 32 * rword s .cmdCqBaseHi q + 16 * x.cqTail
      let s2 := send s1 (.dma a (completionB p x.phase status x.sqHead result kexec))
      let nxt := (x.cqTail + 1) % queueSize s q
      modQ s2 q fun x => { x with cqTail := nxt, phase := if nxt = 0 then !x.phase else x.phase }
  else if p.transport = 1 then
    let l := completionB p false status 0 result kexec ++ reply
    let s1 := modQ s q fun x => { x with replay := (x.replay ++ [Done.mk p.tag p.crc l]).drop (x.replay.length + 1 - 16) }
    send s1 (.udp (p.reply % 2) (p.reply / 2 ^ 49) (p.reply / 2 ^ 17 % 2 ^ 32) (p.reply / 2 % 65536) l)
  else modQ s q fun x => { x with spi := some (completionB p false status 0 result kexec ++ reply) }

/-- Ends a command: a reply that does not fit fails with ST_REPLY_SPACE (R319, R330). -/
def finishAt (s : State) (p : Packet) (status result : Nat) (reply : List Byte) (kexec : Nat) : State :=
  if replySpace s p < reply.length then
    deliver s p stReplySpace (if p.transport = 1 then udpLimit s else 0) (s.frame.k % 2 ^ 32) []
  else deliver s p status result (kexec % 2 ^ 32) reply

/-- Ends a command in the present frame. -/
def finish (s : State) (p : Packet) (status result : Nat) (reply : List Byte) : State :=
  finishAt s p status result reply s.frame.k

/-- Ends a command that returns data: result is the number of reply bytes (R319). -/
def finishData (s : State) (p : Packet) (reply : List Byte) : State := finish s p stOk reply.length reply

/-- Ends a command with a status alone. -/
def finishSt (s : State) (p : Packet) (status : Nat) : State := finish s p status 0 []

/-- 64 locks are held, or 16 by queue q (R333). -/
def locksFull (s : State) (q : Nat) : Bool := decide (64 ≤ s.cmd.locks.length) || decide (16 ≤ (s.cmd.locks.filter (·.queue = q)).length)

/-- Grants a lock (R334, R336): ST_LOCK_BROKEN once where an earlier overlapping lock broke. -/
def grantLock (s : State) (p : Packet) (key : LockKey) (hold : Nat) : State :=
  let was := s.cmd.broken.any (overlap key)
  let s1 := { s with cmd := { s.cmd with
    locks := s.cmd.locks ++ [⟨p.queue.toNat, key, hold, nowQ s⟩]
    broken := s.cmd.broken.filter fun k => !overlap key k } }
  finish s1 p (if was then stLockBroken else stOk) hold []

/-! ### Commands at a wait point -/

/-- The requester of the Vat that carries the replies and the indirect parameters of queue q (R353, Table 14-6). -/
def hostDma (q : Nat) : Nat := 7 + q % 4

/-- Puts a command at a wait point. Nothing waits on a queue being reset: the wait point ends it (Table 13-6). -/
def waitFor (s : State) (op : Half) (p : Packet) (w : Wait) : State :=
  if (getQ s p.queue.toNat).mode = .resetting then modQ s p.queue.toNat fun x => { x with mode := .disabled }
  else { s with cmd := { s.cmd with waits := s.cmd.waits ++ [⟨p.queue.toNat, op, p, w⟩] } }

/-- Ends a command whose reply comes from the Cave: on PCIe it waits while the host DMA of its queue starves (R353, R361). -/
def finishCave (s : State) (op : Half) (p : Packet) (res : Nat) (l : List Byte) : State :=
  if p.transport = 0 ∧ l.length ≤ replySpace s p ∧ vatStarving s (hostDma p.queue.toNat) then waitFor s op p (.dma res l)
  else finish s p stOk res l

/-- Takes a waiting command off the list. -/
def unwait (s : State) (w : Waiting) : State := { s with cmd := { s.cmd with waits := s.cmd.waits.filter (· ≠ w) } }

/-- Queue q has a command in execution. -/
def executing (s : State) (q : Nat) : Bool := s.cmd.waits.any (·.queue = q)

/-- A waiting command whose condition has come about ends (R321); commands that wait for a node answer or the flash end with the row
that brings it. -/
def pollOne (s : State) (w : Waiting) : State :=
  let t := unwait s w
  match w.wait with
  | .disc b =>
    match (getBr s b).disc with
    | .done => finish t w.packet stOk 5 []
    | .failed => finish t w.packet stOk 6 []
    | _ => s
  | .restore c =>
    if (getCtl s c).role = .idle then finish t w.packet stOk 0 []
    else if (getCtl s c).restBy.isNone then finishSt t w.packet stNodeTimeout
    else s
  | .calibrate =>
    if s.twin.calLeft.isSome then s
    else if s.twin.calValid then finish t w.packet stOk 0 []
    else finishSt t w.packet stConvState
  | .copy => if s.press.copyBusy then s else finish t w.packet stOk 0 []
  | .epoch => if s.aff.busy || s.aff.deferred then s else finish t w.packet stOk s.aff.seq []
  | .boundary k => if k ≤ s.frame.k then finish t w.packet stOk 0 [] else s
  | .dma res l => if vatStarving s (hostDma w.queue) then s else finish t w.packet stOk res l
  | .lock key hold =>
    if (otherLock s w.queue key).isSome then s
    else if locksFull s w.queue then finishSt t w.packet stBusy
    else grantLock t w.packet key hold
  | _ => s

/-- Waiting commands by falling queue number: the highest queue is granted first (R334). -/
def pollWaits (s : State) : State :=
  ((List.range 32).reverse).foldl (fun t q =>
    match t.cmd.waits.find? (·.queue = q) with
    | some w => pollOne t w
    | none => t) s

/-! ### Packets that no opcode row takes -/

/-- First opcode and count of each run of Tables 13-12 to 13-23. -/
def opcodeRuns : List (Nat × Nat) :=
  [(0x0101, 8), (0x0201, 8), (0x0301, 3), (0x0310, 8), (0x0401, 5), (0x0410, 4), (0x0501, 8), (0x0601, 4), (0x0701, 7),
   (0x0801, 8), (0x0901, 5), (0x0A01, 4), (0x0B01, 4), (0x0B10, 2), (0x0B20, 3), (0x0C01, 4)]

/-- The opcode is known (R318 check 2). -/
def knownOp (op : Nat) : Bool := opcodeRuns.any fun (a, n) => decide (a ≤ op) && decide (op < a + n)

/-- Header bytes 0 to 11 of a packet (Table 13-1). -/
def headerB (op : Half) (p : Packet) : List Byte :=
  leB 2 op.toNat ++ [p.flags, p.queue] ++ leB 2 p.tag.toNat ++ leB 2 p.length.toNat ++ leB 2 p.scope.toNat ++ leB 2 p.replyMax.toNat

/-- R318 check 1: the header's form, its CRC, and the binding of its queue. -/
def headerOk (s : State) (op : Half) (p : Packet) : Bool :=
  let crc := bitAt p.flags.toNat 0
  let ind := bitAt p.flags.toNat 1
  decide (p.flags.toNat < 4) && decide (p.queue.toNat < 32) && p.length.toNat == 4 * p.params.length &&
  (!ind || p.transport == 0) && (crc || p.transport == 0) &&
  (if crc then crc32 (headerB op p ++ p.params.flatMap fun w => leB 4 w.toNat) == p.crc else p.crc == 0) &&
  fld s .cmdQCfg_transport p.queue.toNat == p.transport.val

/-- The command processor serves queues: after ready, or from the boot ROM (R415, R416). -/
def served (s : State) : Bool := s.boot.ready || s.boot.recovery

/-- The completion ring of queue q has an entry free for one more command, beyond those of its commands that have not ended (R326). -/
def cqRoom (s : State) (q : Nat) : Bool :=
  let x := getQ s q
  let n := queueSize s q
  decide ((x.cqTail + n - fld s .cmdCqHead_head q) % n + x.ready.length + b2n (executing s q) + 1 < n)

/-- Queue q has a ready command, none in execution, and is ACTIVE. -/
def queueReady (s : State) (q : Nat) : Bool :=
  (getQ s q).mode == .active && !(getQ s q).ready.isEmpty && !executing s q

/-- The next command is taken from the highest-numbered ready queue (R321). -/
def nextQueue (s : State) : Option Nat := ((List.range 32).reverse).find? (queueReady s)

/-- Ready packets whose opcode is unknown end with their status when their turn comes (R318 checks 1 and 2). -/
def rejectUnknown : Nat → State → State
  | 0, s => s
  | n + 1, s =>
    match nextQueue s with
    | none => s
    | some q =>
      match (getQ s q).ready with
      | (op, p) :: rest =>
        if knownOp op.toNat || !served s then s
        else rejectUnknown n (finishSt (modQ s q fun x => { x with ready := rest }) p (if headerOk s op p then stBadOpcode else stBadHeader))
      | [] => s

/-- The end of every row: deferred sources, waiting commands, pins, interrupt outputs. -/
def settle (s : State) : State := signalAll (updPins (takeTodo 64 (rejectUnknown 64 (pollWaits (takeTodo 64 (endRises s))))))

/-- A command's next state. -/
def done (s : State) : Host.Outcome State Fault Refusal := .next (settle s)

/-- The core clock runs: not in CURE or a Cellar shutdown, no reset held, the supply up (R311, R391, R408). -/
def clocked (s : State) : Bool :=
  s.power.mode != .cure && s.cellar.mode != .shutdown && !s.boot.rstLow && !s.boot.porstLow && s.boot.aonUp

/-- A command of the core domain: it has its effect while the core clock runs, and none otherwise. A BAR0 access is one; R398 keeps the
host from making one in CURE, where the model gives it no effect (log entry 13). -/
def onCore (s : State) (f : State → State) : Host.Outcome State Fault Refusal := if clocked s then done (f s) else .next s

end Sys2Proof.Machine
end

