-- ==== Sys2Proof/Machine/Wire.lean ====
section
/-!
DEFINITION. The two ends of a lane: the receiver (lock, descrambling, elastic buffer, parts; R63 to R73) and the transmitter (slab
precedence, R72, R74, R75).
-/
namespace Sys2Proof.Machine

def modRx (s : State) (n : Nat) (f : LaneRx → LaneRx) : State := modLane s n fun x => { x with rx := f x.rx }
def modLt (s : State) (n : Nat) (f : LaneTx → LaneTx) : State := modLane s n fun x => { x with tx := f x.tx }

/-! ### Equaliser (R76, R77) -/

/-- The equaliser is held (R77). -/
def eqIsHeld (s : State) (n : Nat) : Bool := flag s .laneCfg_eq_freeze n || (getLane s n).eqHeld

/-- Place, width and range of a coefficient in LANE_EQ (Tables 03-5, 03-13): the CTLE, then h1 to h5. -/
def eqPlace (c : Nat) : Nat × Nat := [(0, 5), (5, 7), (12, 5), (17, 5), (22, 5), (27, 5)].getD c (0, 5)
def eqRange (c : Nat) : Int × Int := if c = 0 then (0, 31) else if c = 1 then (-64, 63) else (-16, 15)

/-- The code of a coefficient. -/
def eqCode (w c : Nat) : Int :=
  let (lo, n) := eqPlace c
  if c = 0 then bitsAt w lo n else sx n (bitsAt w lo n)

/-- One LMS step: one code up or down, within the coefficient's range (R76). -/
def eqStep (w : Nat) (e : EqStep) : Nat :=
  let (lo, n) := eqPlace e.coef
  let (a, b) := eqRange e.coef
  putBits w lo n (ux n (clampI a b (eqCode w e.coef + if e.up then 1 else -1)))

/-- A coefficient stands at a limit of its range. -/
def eqEdge (w c : Nat) : Bool := eqCode w c == (eqRange c).1 || eqCode w c == (eqRange c).2

/-- The coefficients that stand at a limit. -/
def eqMask (w : Nat) : BitVec 6 := BitVec.ofNat 6 ((below 6 (eqEdge w)).map (2 ^ ·)).sum

/-- One step of the equaliser of lane n, and what it means for the coefficients that have stood at a limit throughout (R76, R77). -/
def eqTake (n : Nat) (s : State) (e : EqStep) : State :=
  let w := eqStep (rword s .laneEq n) e
  modRx (putWord s .laneEq n w) n fun r => { r with eqEdges := r.eqEdges &&& eqMask w }

/-- The steps of a list, unless the equaliser is held (R77). -/
def eqRun (s : State) (n : Nat) (l : List EqStep) : State := if eqIsHeld s n then s else l.foldl (eqTake n) s

/-! ### Losing a lane -/

/-- The message part in progress ends as aborted (R63, R73, R87). -/
def abortPart (s : State) (n : Nat) : State :=
  if (getLane s n).rx.part.isNone then s
  else
    let s1 := modRx s n fun r => { r with part := none }
    raiseE (countSat s1 .laneCntAbort .laneCntSat n 3 1) (214 + n) (BitVec.ofNat 32 n)

/-- A lane goes DOWN; from UP or DEGRADED that is counted, and F_LANE_DEGR ends with DEGRADED (Tables 03-8, 03-9, 03-16). -/
def laneOff (s : State) (n : Nat) : State :=
  let was := (getLane s n).mode
  let s1 := modLane (abortPart s n) n fun x => { x with
    mode := .down
    lock := false
    eqHeld := true
    trained := false
    retry := false
    keepAlive := false
    rx := { x.rx with part := none, link := none, bulk := [] } }
  let s2 := if was = .degraded then setC s1 (130 + n) false 0 else s1
  if was = .up ∨ was = .degraded then countSat s2 .laneCntLol .laneCntSat n 4 1 else s2

/-- A lane is lost: from UP or DEGRADED with F_LANE_LOL (Tables 03-8, 03-9). -/
def laneDown (s : State) (n : Nat) : State :=
  let was := (getLane s n).mode
  let s1 := laneOff s n
  if was = .up ∨ was = .degraded then setC s1 (74 + n) true (BitVec.ofNat 32 n) else s1

/-- Lock or signal is lost: with an EIDLE before it no fault, without one a lane loss (R67, R86). -/
def lockLost (s : State) (n : Nat) : State :=
  let x := getLane s n
  let s1 := modRx (abortPart s n) n fun r => { r with good := 0, heads := [] }
  if !x.eidleSeen ∧ (x.mode = .up ∨ x.mode = .degraded) then laneDown s1 n
  else modLane s1 n fun x => { x with lock := false, eqHeld := true }

/-- F_LANE_DEGR ends as a lane leaves DEGRADED (Table 03-9). -/
def laneTurn (s : State) (n : Nat) : State := if (getLane s n).mode = .degraded then setC s (130 + n) false 0 else s

/-- A lane enters electrical idle (Table 03-8): the equaliser is held. -/
def toIdle (s : State) (n : Nat) : State :=
  modLane (laneTurn (abortPart s n) n) n fun x => { x with mode := .eidle, eqHeld := true, lock := false, keepAlive := false, sinceKeep := 0 }

/-- A valid EIDLE is heard: the equaliser is held, and a lane that carries traffic enters electrical idle without a fault (R81, R86). -/
def heardIdle (s : State) (n : Nat) : State :=
  let m := (getLane s n).mode
  modLane (if m = .up ∨ m = .degraded then toIdle s n else abortPart s n) n fun x => { x with
    eqHeld := true, eidleSeen := true, sig := false, sinceKeep := 0 }

/-! ### Receiver -/

/-- Size and resting fill of the elastic buffer (R71), in slabs or blocks. -/
def bufSize (b64 : Bool) : Nat := if b64 then 12 else 8
def bufRest (b64 : Bool) : Nat := if b64 then 6 else 4

/-- Valid headers that give lock, and invalid ones of 64 that lose it: R67, and Clause 49 for 64b/66b. -/
def lockNeed (b64 : Bool) : Nat := if b64 then 64 else 16
def lossLimit (b64 : Bool) : Nat := if b64 then 16 else 8

/-- Lock is gained (R67): the equaliser adapts again, the buffer rests, and in Whey coding the next slab is discarded (R65). -/
def lockGained (s : State) (n : Nat) : State :=
  let b64 := laneCoding s n
  modLane s n fun x => { x with
    lock := true
    sig := true
    eqHeld := x.mode == .eidle
    rx := { x.rx with
      good := 0
      heads := []
      discard := !b64
      part := none
      link := none
      bulk := []
      fill := bufRest b64
      recentre := false
      await := true
      eqFree := x.rx.eqFree || x.mode != .eidle } }

/-- An invalid slab or header is counted (R63). -/
def countHdr (s : State) (n : Nat) : State :=
  modRx (countSat s .laneCntHdr .laneCntSat n 0 1) n fun r => { r with errs := r.errs + 1 }

/-- A header in lock and out of it: any 64 consecutive ones count in Whey coding (R67), windows of 64 in 64b/66b, as in Clause 49 (R69). -/
def rxHead (s : State) (n : Nat) (ok : Bool) : State :=
  let x := getLane s n
  let b64 := laneCoding s n
  if x.lock then
    let h := if b64 ∧ 64 ≤ x.rx.heads.length then [ok] else (ok :: x.rx.heads).take 64
    let s1 := modRx s n fun r => { r with heads := h }
    let s2 := if ok then s1 else countHdr s1 n
    if lossLimit b64 ≤ (h.filter fun v => !v).length then lockLost s2 n else s2
  else
    let g := if ok then x.rx.good + 1 else 0
    if lockNeed b64 ≤ g then lockGained s n else modRx s n fun r => { r with good := g }

/-- Overflow or underflow of the elastic buffer (R73). -/
def bufferFault (s : State) (n : Nat) : State :=
  raiseE (abortPart (modRx s n fun r => { r with recentre := true, await := r.await || r.part.isSome }) n) (158 + n) (BitVec.ofNat 32 n)

/-- The buffer follows the clocks' drift; it stops at its ends. -/
def driftRx (s : State) (n : Nat) (d : Int) : State :=
  let size : Int := bufSize (laneCoding s n)
  let f : Int := (getLane s n).rx.fill + d
  let s1 := modRx s n fun r => { r with fill := (clampI 0 size f).toNat }
  if f < 0 ∨ size < f then bufferFault s1 n else s1

/-- An idle slab between parts: the buffer is re-centred after a fault, else moves one slab towards its rest, which is counted (R71). -/
def gapRx (s : State) (n : Nat) : State :=
  let r := (getLane s n).rx
  let rest := bufRest (laneCoding s n)
  if r.recentre then modRx s n fun r => { r with fill := rest, recentre := false }
  else if r.fill = rest then s
  else
    countSat (modRx s n fun r => { r with fill := if rest < r.fill then r.fill - 1 else r.fill + 1 }) .laneCntFill .laneCntSat n 2 1

/-- Data blocks count towards message parts from a control block on, until a part is aborted inside (R70). -/
def setAwait (s : State) (n : Nat) (v : Bool) : State := modRx s n fun r => { r with await := v }

/-- The content of a slab or block in lock: what it does to the part in progress, and the message it completes, a part under `last`.
`want` gives the number of data blocks of a 64b/66b part from its bytes so far (R70). The Ethernet lanes carry no parts. -/
def rxContent (want : List Byte → Nat) (s0 : State) (n : Nat) (c : RxSlab) : State × List (SlabType × List Byte) :=
  let s := match c with | .slab _ _ | .ctl => setAwait s0 n false | _ => s0
  let r := (getLane s n).rx
  match c with
  | .bad _ => (setAwait (abortPart s n) n true, [])
  | .ctl => (abortPart s n, [])
  | .data b =>
    if r.await ∨ n = 24 ∨ n = 25 then (s, [])
    else
    let p := (r.part.getD []) ++ b
    if want p ≤ p.length / 8 then (modRx s n fun r => { r with part := none }, [(.last, p)])
    else (modRx s n fun r => { r with part := some p }, [])
  | .slab .first b => (modRx (abortPart s n) n fun r => { r with part := some b }, [])
  | .slab .mid b => (modRx s n fun r => { r with part := r.part.map (· ++ b) }, [])
  | .slab .last b =>
    match r.part with
    | some p => (modRx s n fun r => { r with part := none }, [(.last, p ++ b)])
    | none => (s, [])
  | .slab .link b =>
    let t := abortPart s n
    if !laneCoding s n then (t, [(.link, b.take 12)])
    else
      match r.link with
      | some a => (modRx t n fun r => { r with link := none }, [(.link, a ++ b)])
      | none => (modRx t n fun r => { r with link := some b }, [])
  | .slab .bulk b =>
    let t := abortPart s n
    let f := (if bitAt (byteAt b 0) 7 then [] else r.bulk) ++ (b.drop 1).take (byteAt b 0 % 16)
    if 8 ≤ f.length ∧ bulkFrameLen f ≤ f.length then (modRx t n fun r => { r with bulk := [] }, [(.bulk, f)])
    else (modRx t n fun r => { r with bulk := f }, [])
  | .slab .idle _ | .slab .filler _ => (gapRx (abortPart s n) n, [])
  | .slab .eidle b => (heardIdle s n, [(.eidle, b)])
  | .slab t b => (abortPart s n, [(t, b)])

/-- A LINK in 64b/66b is two consecutive blocks (R102). -/
def keepsLink : RxSlab → Bool
  | .slab .link _ => true
  | _ => false

/-- One slab or block arrives at lane n. A slab whose stuffing is wrong is counted as an invalid one (R66); in 64b/66b only sync headers
count (Table 03-16). -/
def rxSlab (want : List Byte → Nat) (n : Nat) (a : State × List (SlabType × List Byte)) (w : Slab) :
    State × List (SlabType × List Byte) :=
  let (s, ms) := a
  let x := getLane s n
  let (c, stuffs, h) := wireRead (laneCoding s n) x.rx.hist (if flag s .laneCfg_rx_invert n then w.map (!·) else w)
  let s1 := rxHead (modRx s n fun r => { r with hist := h, link := if keepsLink c then r.link else none }) n
    (match c with | .bad ok => ok | _ => true)
  if !x.lock || !(getLane s1 n).lock then (s1, ms)
  else if x.rx.discard then (modRx s1 n fun r => { r with discard := false }, ms)
  else
    let s2 := countSat s1 .laneCntStuff .laneCntSat n 1 stuffs
    let (s3, l) := rxContent want (if c = .bad true ∧ !laneCoding s2 n then countHdr s2 n else s2) n c
    (s3, ms ++ l)

/-- A run of slabs arrives at lane n: the equaliser's steps, and the messages it completes. -/
def receive (s : State) (n : Nat) (want : List Byte → Nat) (r : SlabRun) : State × List (SlabType × List Byte) :=
  if lanePresent s n then r.slabs.foldl (rxSlab want n) (driftRx (eqRun s n r.steps) n r.drift, []) else (s, [])

/-- A run arrives at lane n, and f takes each message of type t in it. -/
def onRun (s : State) (n : Nat) (want : List Byte → Nat) (r : SlabRun) (t : SlabType) (f : State → List Byte → State) : State :=
  let (u, ms) := receive s n want r
  (ms.filter fun m => m.1 == t).foldl (fun v m => f v m.2) u

/-- A MARK or PARK as it stands in its slab or block (R101). -/
def shortOf (b64 : Bool) (l : List Byte) : List Byte := l.take (if b64 then 6 else 8)

/-! ### Transmitter -/

/-- Messages that wait for lane n, the oldest first. -/
def queued (s : State) (n : Nat) : List (SlabType × List Byte) :=
  s.tx.filterMap fun
    | .lane m t l => if m = n then some (t, l) else none
    | _ => none

/-- What a lane in this state sends: everything once it is UP; in an attempt the burst, PARK and LINK; in idle the EIDLE slabs. -/
def maySend (m : LaneMode) (t : SlabType) : Bool :=
  match m with
  | .up | .degraded => true
  | .training => t == .train || t == .park || t == .link || t == .eidle
  | .eidle => t == .eidle
  | .down => false

/-- A slab that the far elastic buffer can use, or that stands between parts as one (R72). -/
def isGap (b64 : Bool) (t : SlabType) : Bool := if b64 then !isPart t else t == .idle || t == .filler || t == .link

/-- The message of this queue that starts at the next boundary, by the order of R74: a burst alone, PARK at once (R75), and while nothing
is in progress a due MARK, a part, a LINK at most once in 100 slab times (R68), bulk, EIDLE. One that would make more than 1,023 slab times
without a gap waits (R72); a PARK never waits, so that its three slabs may pass that limit (DESIGN CHOICE, log entry 142). -/
def nextMessage (x : LaneTx) (b64 : Bool) (q : List (SlabType × List Byte)) : Option (SlabType × List Byte) :=
  let first := fun (t : SlabType) => q.find? fun m => m.1 == t
  let fits := fun (m : SlabType × List Byte) => isGap b64 m.1 || decide (x.gap + (slabsOf b64 m.1 m.2).length ≤ 1023)
  match x.cur with
  | (.train, _) :: _ | (.park, _) :: _ => none
  | cur =>
    match first .train, first .park with
    | some m, _ => some m
    | none, some m => some m
    | none, none =>
      if !cur.isEmpty then none
      else
        let bulkFree := fun (m : SlabType × List Byte) => x.bulk.isEmpty && fits m
        [(first .mark).filter fits, (first .first).filter fits, (first .link).filter fun _ => decide (99 ≤ x.sinceLink),
          (first .bulk).filter bulkFree, (first .eidle).filter bulkFree].findSome? id

/-- A MARK that has waited carries that in its corr (R107). -/
def markLate (b64 : Bool) (wait : Nat) (l : List Byte) : List Byte :=
  if wait = 0 then l
  else markB b64 (l.take 2 ++ leB 4 (ux 32 (sx 32 (fieldAt l 2 4) + (wait * slabUnits b64 / 100 : Nat))))

/-- One slab leaves lane n. -/
def emit (s : State) (n : Nat) (c : SlabType × List Byte) : State :=
  let b64 := laneCoding s n
  let inv := flag s .laneCfg_tx_invert n
  modLt s n fun x =>
    let (w, h) := wireBits b64 x.hist c.1 c.2
    { x with
      hist := h
      wire := x.wire ++ [if inv then w.map (!·) else w]
      gap := if isGap b64 c.1 then 0 else x.gap + 1
      sinceLink := if c.1 = .link then 0 else min 100 (x.sinceLink + 1) }

/-- A message starts on lane n: its first slab leaves, and it is no longer queued. A part in progress under a PARK is aborted (R75). -/
def startMessage (s : State) (n : Nat) (m : SlabType × List Byte) : State :=
  let b64 := laneCoding s n
  let s1 := { s with tx := s.tx.erase (.lane n m.1 m.2) }
  let l := if m.1 = .mark then markLate b64 (getLane s n).tx.wait m.2 else m.2
  match slabsOf b64 m.1 l with
  | [] => s1
  | c :: rest => emit (modLt s1 n fun x => if m.1 = .bulk then { x with bulk := rest } else { x with cur := rest }) n c

/-- The next slab of what is in progress on lane n, else IDLE. -/
def goOn (s : State) (n : Nat) : State :=
  let x := (getLane s n).tx
  match x.cur, x.bulk with
  | c :: rest, _ => emit (modLt s n fun x => { x with cur := rest }) n c
  | [], c :: rest => if x.gap < 1023 then emit (modLt s n fun x => { x with bulk := rest }) n c else emit s n (.idle, [])
  | [], [] => emit s n (.idle, [])

/-- One slab time of lane n (R74). A lane that is DOWN, or in electrical idle with its EIDLE slabs sent, sends nothing. -/
def slabTime (s : State) (n : Nat) : State :=
  let x := getLane s n
  let q := (queued s n).filter fun m => maySend x.mode m.1
  if !lanePresent s n ∨ x.mode = .down ∨ (x.mode = .eidle ∧ q.isEmpty ∧ x.tx.cur.isEmpty) then s
  else
    let s1 := match nextMessage x.tx (laneCoding s n) q with
      | some m => startMessage s n m
      | none => goOn s n
    modLt s1 n fun y => { y with wait := if (queued s1 n).any fun m => m.1 == .mark then y.wait + 1 else 0 }

/-- Lanes that send slabs: the chain lanes and the peer lanes (R59). -/
def slabLanes : List Nat := List.range 24 ++ [26, 27]

/-- What has left and what has not is forgotten at a frame boundary: everything requested in a frame leaves within it. -/
def clearTx (s : State) : State :=
  slabLanes.foldl (fun t n => modLt t n fun x => { x with wire := [], wait := 0 }) { s with tx := [] }

end Sys2Proof.Machine
end

