-- ==== Sys2Proof/Machine/Lanes.lean ====
section
/-!
DEFINITION. The serial lanes (chapter 03): training, lock, electrical idle, health windows, eye maps, and the lane registers.
-/
namespace Sys2Proof.Machine

/-! ### Shared operations -/

/-- A lane is on the path of a cell: the lane that serves it, and for a relayed cell the peer lanes. -/
def onPath (s : State) (n c : Nat) : Bool :=
  if n < 24 then servingLane s c == n else (n == 26 || n == 27) && relayedCell s c

/-- The branches whose cells may have the lane on their path. -/
def pathBrs (s : State) (n : Nat) : List Nat :=
  if n < 24 then [n / 2] else if n = 26 ∨ n = 27 then (presentBrs s).filter fun b => (getBr s b).relay else []

/-- The path filter of the cells with the lane on their path restarts at their first exchange after a retrain (R108); until then the lists
carry the path in use. -/
def restartPaths (s : State) (n : Nat) : State :=
  ((pathBrs s n).flatMap fun b => (mapCells s b).filter (onPath s n)).foldl (fun t c => modLink t c fun x =>
    { x with dHist := [], pathFirst := match x.pathSent with | some p => some p | none => x.pathFirst }) s

/-- A lane comes UP: its lock-loss condition ends, a pending PARK is done (Table 03-8, R85); the retrained lane of a
standby ends the far-end calibration (R228). -/
def laneUp (s : State) (n : Nat) : State :=
  let s0 := if standby s ∧ n < 24 then { s with twin := { s.twin with calValid := false } } else s
  setC (modLane (restartPaths s0 n) n fun x => { x with
    mode := .up
    trained := false
    fails := 0
    parkPend := none
    eidleSeen := false
    keepAlive := false
    goodWins := 0 }) (74 + n) false 0

/-- A failed attempt or keep-alive: repeated at the next boundary, the third in a row raises F_LANE_TRAIN and leaves the lane DOWN
(R83). -/
def attemptFailed (s : State) (n : Nat) : State :=
  if (getLane s n).fails + 1 < 3 then modLane s n fun x => { x with fails := x.fails + 1, retry := true }
  else raiseE (modLane s n fun x => { x with mode := .down, fails := 0, retry := false, keepAlive := false }) (102 + n)
    (BitVec.ofNat 32 n)

/-- Directed electrical idle of a chain or peer lane (R81): two EIDLE slabs, then squelch; no fault. An attempt that is under way ends in
electrical idle, as a keep-alive does (R393). -/
def laneIdle (s : State) (n : Nat) : State :=
  let m := (getLane s n).mode
  if m = .up ∨ m = .degraded then send (toIdle s n) (.lane n .eidle [])
  else if m = .training then modLane s n fun x => { x with keepAlive := true }
  else s

/-- An attempt begins; a message part in progress ends as aborted (R87). -/
def beginAttempt (s : State) (n : Nat) (keep : Bool) : State := startAttempt (abortPart s n) n keep

/-- In power state IDLE chain and peer lanes return to electrical idle after an attempt (R84, R393). -/
def idleLane (s : State) (n : Nat) : Bool := s.power.mode == .idle && n != 24 && n != 25

/-- A DOWN lane with enable = 1 may start a new attempt; in IDLE it returns to electrical idle after it, as after a keep-alive. -/
def mayTry (s : State) (n : Nat) : Bool := (getLane s n).mode == .down && flag s .laneCfg_enable n && lanePresent s n && s.boot.ready

/-- The keep-alive of a lane falls due at the next boundary (R84). -/
def keepDue (s : State) (n : Nat) : Bool :=
  let p := fld s .laneCfg_keepalive n
  s.power.mode == .idle && (getLane s n).mode == .eidle && n != 24 && n != 25 && p != 0 && decide (p ≤ (getLane s n).sinceKeep + 1)

/-- 64 frames have passed at the next boundary since the last attempt (R83). -/
def retryDue (s : State) (n : Nat) : Bool := mayTry s n && decide (63 ≤ (getLane s n).sinceTry)

/-- Grid points that a scan has passed: row and column of the next one are its quotient and remainder by 128 (R78). One point takes
2^dwell unit intervals of 80 ps in Whey coding, of 16/165 ns in 64b/66b. -/
def scanPoint (e : EyeScan) : Nat :=
  min 8192 (if e.coding then e.elapsed * 165 / (64 * 2 ^ e.dwell) else e.elapsed * 25 / (8 * 2 ^ e.dwell))

/-- One frame of a scan: it goes on while the lane carries traffic, in its first frame from its start on, and pauses, at its point, while it
does not; a point at which electrical idle pauses it is counted (R78, Table 03-6). -/
def scanFrame (s : State) (n : Nat) : State :=
  let on := let m := (getLane s n).mode; m == .up || m == .degraded
  modLane s n fun x => { x with scan := x.scan.map fun e =>
    if on then { e with elapsed := e.elapsed + min (nowQ s - e.start) s.frame.ticks, pausing := false }
    else if e.pausing ∨ (getLane s n).mode ≠ .eidle then e else { e with paused := e.paused + 1, pausing := true } }

/-- What lanes do at a frame boundary (Table 03-8): a passed check brings the lane UP, a failed attempt is repeated, the first boundary
after reset and every 64th after an attempt start one, and so does a keep-alive that is due. `go`: lanes train. -/
def laneBoundary (go : Bool) (s : State) (n : Nat) : State :=
  let s := scanFrame s n
  let x := getLane s n
  if x.mode = .training ∧ x.trained then laneUp (modLane s n fun y => { y with sinceTry := min 64 (y.sinceTry + 1) }) n
  else if x.mode = .training ∧ x.retry then beginAttempt s n x.keepAlive
  else if go ∧ mayTry s n ∧ (x.firstTry ∨ x.retry ∨ retryDue s n) then beginAttempt s n (idleLane s n)
  else if keepDue s n ∨ (x.mode = .eidle ∧ x.retry) then beginAttempt s n true
  else modLane s n fun y => { y with
    sinceTry := min 64 (y.sinceTry + 1)
    sinceKeep := if y.mode = .eidle then y.sinceKeep + 1 else y.sinceKeep }

/-- The coding of a pair changes at the boundary its ANNOUNCE named, and an enabled lane retrains, which is its attempt of that boundary
(R61, R460). At any other boundary the lane does what it does under Table 03-8. -/
def codingBoundary (go : Bool) (s : State) (n : Nat) : State :=
  match (getLane s n).codingAt with
  | (k, v) :: rest =>
    if s.frame.k < k then laneBoundary go s n
    else
      let s1 := modLane (laneTurn (abortPart (scanFrame s n) n) n) n fun x => { x with coding := v, codingAt := rest }
      if flag s .laneCfg_enable n then beginAttempt s1 n (idleLane s n) else s1
  | [] => laneBoundary go s n

/-- Health thresholds as applied (Table 03-14). -/
def degrHdr (s : State) : Nat := max 1 (fld0 s .laneHlthCfg_degr_hdr)
def failHdr (s : State) : Nat := max (degrHdr s + 1) (fld0 s .laneHlthCfg_fail_hdr)

/-- The latest eye map meets both minima; without a map nothing is below them. -/
def eyeGood (s : State) (n : Nat) : Bool :=
  match (getLane s n).eye with
  | some (h, w) => decide (fld0 s .laneHlthCfg_eye_h_min ≤ h) && decide (fld0 s .laneHlthCfg_eye_w_min ≤ w)
  | none => true

/-- A lane becomes DEGRADED. -/
def degrade (s : State) (n : Nat) : State :=
  setC (modLane s n fun x => { x with mode := .degraded, goodWins := 0 }) (130 + n) true (BitVec.ofNat 32 n)

/-- The end of a health window for the equaliser: the steps that are left, the coefficients that have stood at a limit throughout, and a new
window (R76, R77). -/
def eqWindow (s : State) (n : Nat) (steps : List EqStep) : State :=
  let t := if (getLane s n).rx.eqFree || !eqIsHeld s n then steps.foldl (eqTake n) s else s
  setC (modRx t n fun r => { r with errs := 0, eqEdges := eqMask (rword t .laneEq n), eqFree := !eqIsHeld t n }) (186 + n)
    ((getLane t n).rx.eqEdges != 0) (BitVec.ofNat 32 n)

/-- A scan starts at row 0, column 0 at the instant t, with the lane's values of that moment (R78, Table 03-6). -/
def startScanAt (t : Nat) (s : State) (n : Nat) : State :=
  let d := fld s .laneEyeCtl_dwell_exp n
  modLane s n fun x => { x with
    scan := some ⟨t, BitVec.ofNat 32 (rword s .laneEq n), if d < 16 ∨ 30 < d then 20 else d, laneCoding s n, 0, 0, false⟩ }

/-- The host starts a scan, at an instant within the present frame. -/
def startScan (s : State) (n : Nat) : State :=
  if !lanePresent s n then s else let (t, s1) := instant s; startScanAt t s1 n

/-- Completed maps go to the Cave as the eye-scan dump is granted: at once, unless that requester starves (R79, R361). -/
def dumpEyes (s : State) : State :=
  if vatStarving s 3 then s
  else
    let t := s.cave.eyeDump.foldl (fun t (n, _) => slotFresh t (eyeAt n) 16448) s
    { t with cave := { t.cave with
      eyes := s.cave.eyeDump.foldl (fun t (n, m) => tput t n m) s.cave.eyes
      eyeDump := [] } }

/-- The longest run of zero counts around a pair of starting places: places below `i` and from `j` up. -/
def runAround (z : Nat → Bool) (i j n : Nat) : Nat :=
  let down := ((List.range (i + 1)).reverse.takeWhile z).length
  let up := (((List.range n).drop j).takeWhile z).length
  down + up

/-- Eye height and width of a map (R80). -/
def eyeOf (counts : List Half) : Nat × Nat :=
  let z := fun r c => counts.getD (128 * r + c) 0 == 0
  let h := if z 31 64 && z 32 64 then runAround (fun r => z r 64) 31 32 64 else 0
  let both := fun c => z 31 c && z 32 c
  let w := if both 64 then runAround both 63 64 128 else 0
  (h, w)

/-- The 16,448 bytes of a map (R79, Table 03-6). -/
def eyeB (n : Nat) (t0 t1 : Nat) (eq : Word) (dwell paused : Nat) (coding : Bool) (hw : Nat × Nat) (counts : List Half) :
    List Byte :=
  let stamp := fun t => leB 6 (secsOf t) ++ leB 2 (nsWord t % 2 ^ 30) ++ leB 4 (nsWord t % 2 ^ 30 / 2 ^ 16)
  leB 2 n ++ leB 1 (b2n coding) ++ leB 1 dwell ++ leB 4 eq.toNat ++ stamp t0 ++ stamp t1 ++ leB 1 hw.1 ++ leB 1 hw.2 ++
  leB 2 paused ++ zeroB 28 ++ counts.flatMap fun c => leB 2 c.toNat

/-- A write to a WO field: ignored while any queue holds a lock (R337). -/
def barWo (s : State) (f : State → State) : State :=
  if s.cmd.locks.isEmpty then f s else { s with cmd := { s.cmd with sts := s.cmd.sts ||| 1 } }

/-- Zeroes the counters and saturation bits of lane n (R88). -/
def clearLaneCounts (s : State) (n : Nat) : State :=
  [RegName.laneCntHdr, .laneCntStuff, .laneCntFill, .laneCntAbort, .laneCntLol, .laneCntSat].foldl
    (fun t r => putWord t r n 0) s

/-- CNT_CLEAR kind 0 and LANE_CNT_CLR. -/
def laneCntClr (s : State) (mask : Nat) : State :=
  (below 28 (bitAt mask)).foldl clearLaneCounts s

/-- Boundary k_eff of a change sent to a branch within the present frame: the first that it reaches on every node at the hop bound;
since the command's instant within its frame is not fixed, one of the boundaries that may be the first. -/
def reachBoundary (s : State) (hops : Nat) : Nat × State :=
  let m := hops * hopBound s * 4 / tF s + 1
  let (v, s1) := drawBelow s 2
  (s.frame.k + m + v, s1)

/-- The pairs of lanes that share a coding: the 12 branches, then the peer lanes. -/
def codingPairs : List (Nat × Nat) := (List.range 12).map (fun b => (2 * b, 2 * b + 1)) ++ [(26, 27)]

/-- The coding that a lane has once its accepted changes have taken effect. -/
def codingGoal (s : State) (n : Nat) : Bool := match (getLane s n).codingAt.getLast? with | some (_, v) => v | none => (getLane s n).coding

/-- The coding of lane n in frame k, of those whose changes are accepted (R460). -/
def codingIn (s : State) (n k : Nat) : Bool :=
  match ((getLane s n).codingAt.takeWhile fun x => decide (x.1 ≤ k)).getLast? with | some (_, v) => v | none => laneCoding s n

/-- R61 refuses the pending coding of a pair. -/
def codingRefused (s : State) (p : Nat × Nat) : Bool :=
  let a := sfld s .laneCfg_coding p.1
  let b := sfld s .laneCfg_coding p.2
  let cells := if p.1 < 24 then mapCells s (p.1 / 2) else []
  decide (1 < a) || decide (1 < b) || a != b || ((a == 1) != codingGoal s p.1 && !cellsParked s cells)

/-- ANNOUNCE kind 1 on both ends of a branch (R102). -/
def announceCoding (s : State) (b k : Nat) (v : Bool) : State :=
  sendBoth s b .link (linkB 6 0x80 (leB 1 1 ++ leB 1 (b2n v) ++ leB 2 k))

/-- Each accepted change of a branch is announced in every frame up to W(k_eff − 1) (R102). -/
def codingAnnounce (s : State) (b : Nat) : State :=
  (getLane s (2 * b)).codingAt.foldl (fun t (k, v) => if s.frame.k < k then announceCoding t b k v else t) s

/-- An accepted coding change of a pair: announced to its chain, in force at k_eff; the peer pair at the next boundary. A change that
meets another still on its way takes effect after it (DESIGN CHOICE, log entry 103). -/
def changeCoding (s : State) (p : Nat × Nat) (v : Bool) : State :=
  let b := p.1 / 2
  let (k0, s1) := if p.1 < 24 then reachBoundary s (getBr s b).nb else (s.frame.k + 1, s)
  let k := match (getLane s p.1).codingAt.getLast? with | some (k1, _) => max k0 (k1 + 1) | none => k0
  let s2 := if p.1 < 24 then announceCoding s1 b k v else s1
  [p.1, p.2].foldl (fun t n => modLane t n fun x => { x with codingAt := x.codingAt ++ [(k, v)] }) s2

/-- The lanes commit (R61, R90, R433): pairs whose coding is refused keep it, set cfg_refused and keep their shadow; everything else
applies at the write. A lane that enable = 0 takes out of UP or DEGRADED is a lane loss (Tables 03-8, 03-9). -/
def commitLanes (s : State) : State :=
  let bad := codingPairs.filter (codingRefused s)
  let isBad := fun n => bad.any fun p => p.1 == n || p.2 == n
  let change := (codingPairs.filter fun p => !codingRefused s p).filter fun p =>
    (sfld s .laneCfg_coding p.1 == 1) != codingGoal s p.1
  let want := change.map fun p => (p, sfld s .laneCfg_coding p.1 == 1)
  let s1 := (List.range 28).foldl (fun t n =>
    if !lanePresent t n then t
    else if isBad n then
      let w := shadowWord t .laneCfg n
      let keep := putBits w 0 2 (fld t .laneCfg_coding n)
      setFld (putShadow (putWord t .laneCfg n keep) .laneCfg n w none) .laneSts_cfg_refused n 1
    else
      let w := shadowWord t .laneCfg n
      putShadow (putWord t .laneCfg n w) .laneCfg n w none) s
  let s2 := want.foldl (fun t (p, v) => changeCoding t p v) s1
  (List.range 28).foldl (fun t n =>
    if !flag t .laneCfg_enable n then laneDown t n
    else modRx t n fun r => { r with eqFree := r.eqFree || !eqIsHeld t n }) s2

/-! ### Meanings -/

/-- A port of a node comes UP; a node in INIT enters UNADDR (Table 04-12). -/
def nodePortUp (x : Node) (portB : Bool) : Node :=
  let bit : BitVec 2 := if portB then 2 else 1
  { x with
    portUp := x.portUp ||| bit
    portSig := x.portSig ||| bit
    mode := if x.mode = .init then .unaddr else x.mode }

/-- R82: a receiver of the TB576 detects a TRAIN burst; a cell node answers with its own burst, its receiver locks, and the port is UP
(Table 04-12). -/
def execTrain (rx : Rx) (s : State) : Host.Outcome State Fault Refusal :=
    match rx with
    | .lane n => onCore s fun s => if lanePresent s n then modLane s n fun x => { x with sig := true } else s
    | .node c p => .next <| send (modNode s c fun x => nodePortUp x p) (.nodeTrain c p)

/-- A valid LSTAT: CRC, opcode and one-hop form (R102). -/
def lstatValid (l : List Byte) : Bool :=
  byteAt l 0 == 7 && fieldAt l 10 2 == (crc16 (l.take 10)).toNat && l.length == 12

/-- R102: LSTAT completes the training check of a lane; a cell node answers with its own (R84). -/
def execLstat (rx : Rx) (content : Content) (s : State) : Host.Outcome State Fault Refusal :=
    match rx, content with
    | .lane n, .slabs r => onCore s fun s => onRun s n (fun _ => 10) r .link fun t l =>
      if lstatValid l then modLane t n fun x => { x with linkSeen := true } else t
    | .lane _, .bytes _ => onCore s fun s => s
    | .node _ _, .slabs _ => .next s
    | .node c p, .bytes l =>
      let x := getNode s c
      .next <| if lstatValid l then send s (.node c p (lstatB (x.portUp.getLsbD (b2n p)) (x.portUp.getLsbD (1 - b2n p)))) else s

/-- R67: the headers of a run give slab lock. -/
def execSlabLockGained (heard : LaneRun) (s : State) : Host.Outcome State Fault Refusal :=
  onCore s fun s => (receive s heard.lane (fun _ => 10) heard.run).1

/-- R67, R86: the headers of a run lose slab lock, or the signal is lost. -/
def execSlabLockLost (loss : LockLoss) (s : State) : Host.Outcome State Fault Refusal :=
  onCore s fun s =>
    let n := loss.lane
    let t := (receive s n (fun _ => 10) loss.run).1
    if loss.signal ∧ lanePresent s n then lockLost (modLane t n fun x => { x with sig := false }) n else t

/-- R81: a valid EIDLE holds the equaliser and takes the lane to EIDLE without a fault (`heardIdle`, in the receiver). -/
def execEidle (rx : Arrival) (s : State) : Host.Outcome State Fault Refusal :=
    match rx with
    | .lane n r => onCore s fun s => (receive s n (fun _ => 10) r).1
    | .node c p _ =>
      let bit : BitVec 2 := if p then 2 else 1
      .next <| modNode s c fun x => { x with portSig := x.portSig &&& ~~~bit, portUp := x.portUp &&& ~~~bit }

/-- R73: overflow or underflow of the elastic buffer. -/
def execElasticBufferFault (lane : LaneNo) (s : State) : Host.Outcome State Fault Refusal :=
  onCore s fun s => if lanePresent s lane then bufferFault s lane else s

/-- R82 to R84: the check point of an attempt: the receiver is locked and, but for the Ethernet lanes, a valid LINK has come. A
keep-alive that passes returns to electrical idle. -/
def execTrainingCheckPoint (lane : LaneNo) (s : State) : Host.Outcome State Fault Refusal :=
  onCore s fun s =>
    let x := getLane s lane
    if x.mode ≠ .training ∨ x.trained ∨ x.retry then s
    else if x.lock ∧ (x.linkSeen ∨ lane.val = 24 ∨ lane.val = 25) then
      let s1 := modLane s lane fun x => { x with fails := 0 }
      if x.keepAlive then send (toIdle s1 lane) (.lane lane .eidle []) else modLane s1 lane fun x => { x with trained := true }
    else attemptFailed s lane

/-- R83: a DOWN lane with enable = 1 makes a new attempt every 64 frames, at the boundary; not in the recovery set (R416). -/
def execLaneRetry (lane : LaneNo) (s : State) : Host.Outcome State Fault Refusal :=
  onCore s fun s => if retryDue s lane then modLane s lane fun x => { x with retry := true } else s

/-- R84: a keep-alive in IDLE falls due, after the slabs that the lane has heard; it starts under R82 at the boundary. -/
def execKeepAlive (lane : LaneNo) (run : SlabRun) (s : State) : Host.Outcome State Fault Refusal :=
  onCore s fun s =>
    let t := (receive s lane (fun _ => 10) run).1
    if keepDue t lane then modLane t lane fun x => { x with retry := true } else t

/-- R85: a PARK requested on a lane in electrical idle is repeated every 256 slab times until the lane is UP. -/
def execParkIdleRepeat (lane : LaneNo) (s : State) : Host.Outcome State Fault Refusal :=
  onCore s fun s =>
    match (getLane s lane).parkPend with
    | some l => send s (.lane lane .park l)
    | none => s

/-- R86: the end of a health window judges the lane by the invalid headers of its runs and of the slabs between them, fail_hdr too (DESIGN
CHOICE, log entry 143); the counts of those slabs are added, and the equaliser takes the steps that fell between the runs, unless it was
held throughout the window (R76, R77). -/
def execLaneHealthWindow (lane : LaneNo) (hdrErrs : Nat) (stuffs : Nat) (fills : Nat) (steps : List EqStep) (s : State) :
    Host.Outcome State Fault Refusal :=
  onCore s fun s =>
    if !lanePresent s lane then s
    else
      let errs := hdrErrs + (getLane s lane).rx.errs
      let s1 := countSat (countSat (countSat s .laneCntHdr .laneCntSat lane 0 hdrErrs) .laneCntStuff .laneCntSat lane 1 stuffs)
        .laneCntFill .laneCntSat lane 2 fills
      let s2 := eqWindow s1 lane steps
      match (getLane s lane).mode with
      | .up =>
        if failHdr s ≤ errs then laneDown s2 lane
        else if degrHdr s ≤ errs ∨ !eyeGood s lane then degrade s2 lane
        else s2
      | .degraded =>
        if failHdr s ≤ errs then laneDown s2 lane
        else if degrHdr s ≤ errs then modLane s2 lane fun x => { x with goodWins := 0 }
        else if 1 ≤ (getLane s lane).goodWins ∧ eyeGood s lane then
          setC (modLane s2 lane fun x => { x with mode := .up, goodWins := 0 }) (130 + lane) false 0
        else modLane s2 lane fun x => { x with goodWins := x.goodWins + 1 }
      | _ => s2

/-- R79, R80: an eye map completes once its scan has passed every point, at the tick of the frame in which that falls, while the lane
carries traffic; it goes to the eye-scan dump; height and width are taken over and judged. -/
def execEyeMapComplete (lane : LaneNo) (tick : Nat) (counts : List Half) (s : State) : Host.Outcome State Fault Refusal :=
  onCore s fun s =>
    let m := (getLane s lane).mode
    let d := min tick s.frame.ticks
    match (getLane s lane).scan with
    | none => s
    | some e =>
      if !(m == .up || m == .degraded) ∨ scanPoint { e with elapsed := e.elapsed + d } < 8192 then s
      else
        let hw := eyeOf counts
        let b := eyeB lane e.start (nowQ s + d) e.eq e.dwell (min 0xFFFF e.paused) e.coding hw counts
        let s2 := dumpEyes { s with cave := { s.cave with eyeDump := s.cave.eyeDump ++ [(lane.val, b)] } }
        let s3 := countFld (modLane s2 lane fun x => { x with eye := some hw, scan := none }) .laneEyeCtl_map_count lane
        let s4 := if flag s .laneEyeCtl_continuous lane then startScanAt (nowQ s + d) s3 lane else s3
        if (getLane s4 lane).mode = .up ∧ !eyeGood s4 lane then degrade s4 lane else s4

/-- R61, R433: commit write of block 2. -/
def execLaneCommit (s : State) : Host.Outcome State Fault Refusal := onCore s fun s => barWo s commitLanes

/-- R78: a write of LANE_EYE_CTL with start = 1 takes continuous and dwell_exp and starts a scan unless one runs. -/
def execLaneEyeCtlStart (lane : LaneNo) (value : Word) (s : State) : Host.Outcome State Fault Refusal :=
  onCore s fun s =>
    if !lanePresent s lane then s
    else
      let s1 := setFld (setFld s .laneEyeCtl_continuous lane (bitsAt value.toNat 3 1)) .laneEyeCtl_dwell_exp lane
        (bitsAt value.toNat 4 5)
      barWo s1 fun t => if (getLane t lane).scan.isSome then t else startScan t lane

/-- R78: stop abandons the scan in progress; no map is written. -/
def execLaneEyeCtlStop (lane : LaneNo) (s : State) : Host.Outcome State Fault Refusal :=
  onCore s fun s => barWo s fun t => modLane t lane fun x => { x with scan := none }

/-- R88: LANE_CNT_CLR. -/
def execLaneCntClr (mask : Word) (s : State) : Host.Outcome State Fault Refusal :=
  onCore s fun s => barWo s fun t => laneCntClr t mask.toNat

end Sys2Proof.Machine
end

