-- ==== Sys2Proof/Machine/Curd.lean ====
section
/-!
DEFINITION. Curd table events (chapter 05): decimator outputs, stuck inputs, pin filters, point checks, and the Curd commit.
-/
namespace Sys2Proof.Machine

/-- Modulator clock of input i. -/
def sdClk (s : State) (i : Nat) : Nat := fld s .curdSdCfg_clk_sel i

/-- Raw code of a sinc3 sum (R135). -/
def sdRaw (osr32 : Bool) (sum : Nat) : Half :=
  let m := if osr32 then 5 else 4
  toHalf (sat16 (((sum : Int) - 2 ^ (3 * m - 1)) * 2 ^ (16 - 3 * m)))

/-- The filtered pin levels at F(k) are written as fresh samples (R139, R445): GPIO 0 to 15, then ARM_N. -/
def pinSamples (s : State) : State :=
  (List.range 17).foldl (fun t i =>
    let (u, _) := sample t (stPa (32 + i)) (BitVec.ofNat 16 (b2n (t.curd.pins.getLsbD i)))
    hygLive u (stPa (32 + i))) s

/-- An external fault input (R299): its live is the filtered level compared with pol. -/
def extInput (s : State) (i : Nat) : State :=
  setC s (3 + i) (bitAt (fld0 s .rindExtCfg_en) i && (s.curd.pins.getLsbD i == bitAt (fld0 s .rindExtCfg_pol) i))
    (BitVec.ofNat 32 i)

/-- Descriptor changes take effect at the boundary (R127); a changed rate_max starts without the clamp (R128). -/
def applyDescs (s : State) : State :=
  let s1 := s.curd.descNext.foldl (fun t (di, d) =>
    let old := getDesc t di
    let t1 := { t with curd := { t.curd with descs := tset (descInit di) t.curd.descs di d } }
    if old.rateMax = d.rateMax then t1
    else
      let pas := if di < 512 then (allCells t1).map (fun c => cellPa c di) else [descPa di]
      pas.foldl (fun u pa => modPt u pa fun p => { p with accepted := false }) t1) s
  { s1 with curd := { s1.curd with descNext := [] } }

/-- Curd check of R136: first case, by clock. -/
def sdClockBad (s : State) (m : Nat) : Bool :=
  sfld s .curdSdClk_rate m == 1 && (List.range 32).any fun i =>
    sfld s .curdSdCfg_enable i == 1 && sfld s .curdSdCfg_osr i == 1 && sfld s .curdSdCfg_clk_sel i == m

/-- Commit of block 4 (R136, R143): none, or the refusal; where both cases hold, each marks its clocks. A commit that changes nothing is
accepted, and like any other takes the place of one that has not yet applied (R434). -/
def commitCurd (s : State) : State × Option Nat :=
  let bad := below 4 (sdClockBad s)
  let active := !allParked s
  if (blockShadows s 4).isEmpty || (bad.isEmpty && !active) then (stageBlock s 4 fun _ _ => true, none)
  else ((if active then List.range 4 else bad).foldl (fun t m => setFld t .curdSdClk_refused m 1) s,
    some (if bad.isEmpty then 2 else 1))

/-- Input i converts: it is enabled, and so is its clock. -/
def sdOn (s : State) (i : Nat) : Bool := flag s .curdSdCfg_enable i && flag s .curdSdClk_enable (sdClk s i)

/-- An input that does not convert is not stuck (R137). -/
def unstick (s : State) (i : Nat) : State :=
  if s.curd.stuck.getLsbD i && !sdOn s i then
    setC { s with curd := { s.curd with stuck := s.curd.stuck &&& ~~~(BitVec.ofNat 32 (2 ^ i)) } } (474 + i) false 0
  else s

/-- An accepted Curd commit takes effect at the boundary: inputs whose clock or decimator settings change lose the samples of this
frame and the next (R143, R129). -/
def applyCurd (s : State) : State :=
  if !applyingBlock s 4 then s
  else
    let cfg := fun t i => (rword t .curdSdCfg i, rword t .curdSdClk (sdClk t i) % 4)
    let t := applyBlock s 4
    (List.range 32).foldl (fun u0 i =>
      let u := unstick u0 i
      if cfg s i = cfg t i then u else { u with curd := { u.curd with sdSkip := tset 0 u.curd.sdSkip i 2 } }) t

/-- R135, R137: the decimator output that belongs to F(k). `moved`: the input had a transition in its last 64 modulator clocks, which
ends a stuck condition. -/
def execSdDecimatorOutput (input : Fin 32) (sum : Nat) (moved : Bool) (s : State) : Host.Outcome State Fault Refusal :=
  onCore s fun s =>
    let i := input.val
    if !sdOn s i then s
    else
      let b : BitVec 32 := BitVec.ofNat 32 (2 ^ i)
      let s1 := if moved then
          setC { s with curd := { s.curd with stuck := s.curd.stuck &&& ~~~b } } (474 + i) false 0
        else s
      if s1.curd.stuck.getLsbD i ∨ tget 0 s1.curd.sdSkip i ≠ 0 ∨ s1.frame.realign ∨ s1.frame.realignPrev then s1
      else
        let (s2, x) := sample s1 (stPa i) (sdRaw (flag s .curdSdCfg_osr i) sum)
        hygLive (sdLimits s2 i x) (stPa i)

/-- R137: 64 modulator clocks without a transition. -/
def execSdStuck (input : Fin 32) (s : State) : Host.Outcome State Fault Refusal :=
  onCore s fun s =>
    if sdOn s input then
      setC { s with curd := { s.curd with stuck := s.curd.stuck ||| BitVec.ofNat 32 (2 ^ input.val) } } (474 + input) true
        (BitVec.ofNat 32 (stPa input))
    else s

/-- The level at a filter's pad: a GPIO that the device drives follows its own output (R445). -/
def padLevel (s : State) (i : Nat) (level : Bool) : Bool :=
  if i < 16 ∧ s.boot.gpioDrive.getLsbD i then s.boot.gpioOut.getLsbD i else level

/-- R139: the filter of GPIO 0 to 15 or of ARM_N (pin 16, whose point is 1 while the pin is low) takes a new level. -/
def execPinFilterLevel (pin : Fin 17) (level : Bool) (s : State) : Host.Outcome State Fault Refusal :=
  onCore s fun s =>
    let v := if pin.val = 16 then !level else padLevel s pin level
    let b : BitVec 17 := BitVec.ofNat 17 (2 ^ pin.val)
    let s1 := { s with curd := { s.curd with pins := if v then s.curd.pins ||| b else s.curd.pins &&& ~~~b } }
    if pin.val < 16 then extInput s1 pin else s1

/-- R128: an input point whose age has reached stale_to becomes stale. -/
def execPointStale (pa : Pa) (s : State) : Host.Outcome State Fault Refusal :=
  onCore s fun s =>
    if !isInput pa ∨ ptAbsent s pa then s
    else
      let d := getDesc s (descIdx pa)
      hygLive (modPt s pa fun p => { p with
        stale := p.stale || (decide (d.staleTo ≠ 0) && decide (d.staleTo ≤ p.age)) }) pa

/-- R128: an input point with frz_n unchanged raw codes becomes frozen. -/
def execPointFrozen (pa : Pa) (s : State) : Host.Outcome State Fault Refusal :=
  onCore s fun s =>
    if !isInput pa ∨ ptAbsent s pa then s
    else
      let d := getDesc s (descIdx pa)
      let n := if d.frzN = 1 then 2 else d.frzN
      hygLive (modPt s pa fun p => { p with
        frozen := p.frozen || (decide (1 ≤ d.noise) && decide (d.frzN ≠ 0) && decide (n ≤ p.same)) }) pa

/-- R142: F_CURD_RATE of a point clamped in 8 accepted samples in a row. -/
def execPointRateRun (pa : Pa) (s : State) : Host.Outcome State Fault Refusal :=
  onCore s fun s => if !isInput pa ∨ ptAbsent s pa then s else rateRunCheck s pa

end Sys2Proof.Machine
end

