-- ==== Sys2Proof/Machine/Forward.lean ====
section
/-!
DEFINITION. Forwarding by a cell node (Table 04-1, R95): what goes on out of which port, and the ports' transmitters with their
forwarding FIFOs.
-/
namespace Sys2Proof.Machine

/-- A change at a cell node. -/
def onNode (s : State) (f : State → State) : Host.Outcome State Fault Refusal := .next (f s)

/-- The node's port is UP. -/
def portIsUp (x : Node) (portB : Bool) : Bool := x.portUp.getLsbD (b2n portB)

/-- The node has no position yet and forwards transparently (R94). -/
def transparent (x : Node) : Bool := x.mode == .init || x.mode == .unaddr

/-! ### The transmitter of a port (R72, R74, R95) -/

def getPort (x : Node) (portB : Bool) : NodeTx := if portB then x.txB else x.txA
def modPort (x : Node) (portB : Bool) (f : NodeTx → NodeTx) : Node :=
  if portB then { x with txB := f x.txB } else { x with txA := f x.txA }

/-- Slabs or blocks that the forwarding FIFO holds (Table 04-13). -/
def fifoSize (x : Node) (c : Nat) : Nat := (if x.coding then 24 else 16) + Config.nodeFifo c

/-- Slabs or blocks of messages that leave one after another. -/
def slabCount (b64 : Bool) (ls : List (SlabType × List Byte)) : Nat := (ls.map fun m => (slabsOf b64 m.1 m.2).length).sum

/-- Slabs that wait. -/
def slabSum (b64 : Bool) (l : List (List (SlabType × List Byte))) : Nat := (l.map (slabCount b64)).sum

/-- R74's order of own content. -/
def ownRank (ls : List (SlabType × List Byte)) : Nat :=
  match ls.head? with
  | some (.mark, _) => 3
  | some (.first, _) | some (.mid, _) | some (.last, _) => 4
  | some (.link, _) => 5
  | _ => 6

/-- Own content that waits, in R74's order and in the order asked for within a rank. -/
def waitIn (l : List (List (SlabType × List Byte))) (m : List (SlabType × List Byte)) : List (List (SlabType × List Byte)) :=
  l.filter (fun a => decide (ownRank a ≤ ownRank m)) ++ m :: l.filter fun a => !decide (ownRank a ≤ ownRank m)

/-- Content keeps a gap in any 1,024 slab times (R72), behind what is in progress; a LINK is a gap itself. -/
def portFits (b64 : Bool) (t : NodeTx) (ls : List (SlabType × List Byte)) : Bool :=
  ownRank ls == 5 || decide (t.run + t.own + t.fwd + slabCount b64 ls ≤ 1023)

/-- Content starts on a port. -/
def portStart (s : State) (c : Nat) (portB own : Bool) (ls : List (SlabType × List Byte)) : State :=
  let n := slabCount (getNode s c).coding ls
  let parts := (ls.filter fun m => m.1 == .first).map (·.2)
  ls.foldl (fun t m => send t (.node c portB m.2)) (modNode s c fun x => modPort x portB fun t => { t with
    own := if own then t.own + n else t.own
    fwd := if own then t.fwd else t.fwd + n
    run := if ownRank ls = 5 then 0 else t.run
    parts := (if t.own + t.fwd = 0 then [] else t.parts) ++ parts })

/-- Forwarded content: at once while no own content is in progress and none waits in the FIFO, else into the FIFO; on overflow it is dropped
and counted (R95, head byte 78). -/
def forward (s : State) (c : Nat) (portB : Bool) (typ : SlabType) (l : List Byte) : State :=
  let x := getNode s c
  let t := getPort x portB
  let m := [(typ, l)]
  if t.own = 0 ∧ t.fifo.isEmpty ∧ portFits x.coding t m then portStart s c portB false m
  else if slabSum x.coding t.fifo + slabCount x.coding m ≤ fifoSize x c then
    modNode s c fun x => modPort x portB fun t => { t with fifo := t.fifo ++ [m] }
  else modNode s c fun x => { x with fwdDrop := satInc 0xFFFF x.fwdDrop }

/-- The node's own content: at once while the port is free, else it waits in R74's order (R95). -/
def sendOwn (s : State) (c : Nat) (portB : Bool) (ls : List (SlabType × List Byte)) : State :=
  let x := getNode s c
  let t := getPort x portB
  if t.own = 0 ∧ t.fwd = 0 ∧ t.wait.isEmpty ∧ t.fifo.isEmpty ∧ portFits x.coding t ls then portStart s c portB true ls
  else modNode s c fun x => modPort x portB fun t => { t with wait := waitIn t.wait ls }

/-- What leaves next on a free port: behind an own part the FIFO follows without a gap, behind a forwarded part the node's own content
(R95). -/
def portPick (t : NodeTx) (afterOwn : Bool) : Option (Bool × List (SlabType × List Byte)) :=
  match t.fifo, t.wait with
  | m :: _, [] => some (false, m)
  | [], m :: _ => some (true, m)
  | m :: _, w :: _ => if afterOwn then some (false, m) else some (true, w)
  | [], [] => none

/-- The port is free. -/
def portNext (s : State) (c : Nat) (portB afterOwn : Bool) : State :=
  let x := getNode s c
  match portPick (getPort x portB) afterOwn with
  | none => s
  | some (own, m) =>
    if portFits x.coding (getPort x portB) m then
      portStart (modNode s c fun x => modPort x portB fun t =>
        if own then { t with wait := t.wait.drop 1 } else { t with fifo := t.fifo.drop 1 }) c portB own m
    else s

/-- One slab time of a port: what is in progress goes on, and a port with nothing in progress sends an IDLE. -/
def portTime (s : State) (c : Nat) (portB : Bool) : State :=
  let t := getPort (getNode s c) portB
  let s1 := modNode s c fun x => modPort x portB fun t => { t with
    own := t.own - 1
    fwd := t.fwd - 1
    run := if t.own + t.fwd = 0 then 0 else t.run + 1 }
  if t.own ≤ 1 ∧ t.fwd ≤ 1 then portNext s1 c portB (t.own == 1) else s1

/-- One slab time of a node. A node's elastic buffers do not drift in the model, so its gaps need no insertion or deletion (R71; log
entry 144). -/
def nodeSlabTime (s : State) (c : Nat) : State := portTime (portTime s c false) c true

/-- The ports of a node whose frame ends have sent everything that waited in them. -/
def portFlush (s : State) (c : Nat) : State :=
  [false, true].foldl (fun s p =>
    let t := getPort (getNode s c) p
    ((t.fifo ++ t.wait).flatten.map (·.2)).foldl (fun u l => send u (.node c p l))
      (modNode s c fun x => modPort x p fun _ => NodeTx.zero)) s

/-- A PARK out of a port: at the next boundary, ahead of everything; the parts in progress are aborted (R75). The one message stands for
its three slabs, as on a lane of the TB576. -/
def parkOut (s : State) (c : Nat) (portB : Bool) (l : List Byte) : State :=
  let t := getPort (getNode s c) portB
  let s1 := { s with tx := t.parts.foldl (fun q p => q.erase (.node c portB p)) s.tx }
  send (modNode s1 c fun x => modPort x portB fun t => { t with
    own := 0
    fwd := slabCount x.coding [(.park, l)]
    parts := [] }) (.node c portB l)

/-! ### What goes on (Table 04-1) -/

/-- LINK out of the port opposite the arrival port, across segment ends, while that port is UP. -/
def fwdAcross (s : State) (c : Nat) (portB : Bool) (l : List Byte) : State :=
  if portIsUp (getNode s c) (!portB) then forward s c (!portB) .link l else s

/-- PARK, likewise. -/
def fwdPark (s : State) (c : Nat) (portB : Bool) (l : List Byte) : State :=
  if portIsUp (getNode s c) (!portB) then parkOut s c (!portB) l else s

/-- Downstream content (edge lists, D-MARK, bulk requests). -/
def fwdDown (s : State) (c : Nat) (portB : Bool) (typ : SlabType) (l : List Byte) : State :=
  let x := getNode s c
  if transparent x then forward s c (!portB) typ l
  else match x.serve with
    | some (p, segEnd) => if p == portB && !segEnd then forward s c (!portB) typ l else s
    | none => s

/-- Upstream content (uplink heads and tails, U-MARK, bulk responses, ENUM end replies), out of the serving port. -/
def fwdUp (s : State) (c : Nat) (portB : Bool) (typ : SlabType) (l : List Byte) : State :=
  let x := getNode s c
  if transparent x then forward s c (!portB) typ l
  else match x.serve with
    | some (p, _) => if p == portB then s else forward s c p typ l
    | none => s

/-- One slab time of the block, which is what a step does while no command waits (DESIGN CHOICE, log entry 1): every transmitting lane
sends its next slab or block while the core clock runs, and every cell node its own. -/
def slabTimes (s : State) : State :=
  (s.nodes.map (·.1)).foldl nodeSlabTime (if clocked s then slabLanes.foldl slabTime s else s)

/-! ### LINK messages -/

/-- A LINK message with this opcode and a valid CRC (R102). -/
def linkOk (l : List Byte) (op : Nat) : Bool :=
  l.length == 12 && byteAt l 0 == op && fieldAt l 10 2 == (crc16 (l.take 10)).toNat

end Sys2Proof.Machine
end

