-- ==== Sys2Proof/Machine/Whey.lean ====
section
/-!
DEFINITION. The Whey link as the TB576 keeps it (chapter 04): uplink heads, tails and U-MARKs (R40, R100, R108), time error and loss of
lock (R110), breaks and re-splitting (R111, R112).
-/
namespace Sys2Proof.Machine

/-! ### Paths and latencies, in 1/64 ns (R108) -/

/-- p × H + relay, used for a path or an L(p) that has not been measured (R108, R112). -/
def boundOf (s : State) (c : Nat) : Int := 64 * (hopsOf s c * hopBound s + relayOf s c : Nat)

/-- L(p) of the cell (R42). -/
def lupOf (s : State) (c : Nat) : Int := ((getLink s c).lup).getD (boundOf s c)

/-- The path in use for the cell. -/
def dOf (s : State) (c : Nat) : Int := ((getLink s c).pathSent).getD (boundOf s c)

/-- Path of the next list: the mean of the exchanges since the filter restarted, reached in steps of at most 16 units; the first
measured value exactly; before it the value kept for that, or the bound. -/
def nextPath (s : State) (c : Nat) : Int :=
  let x := getLink s c
  match x.dHist with
  | [] => x.pathFirst.getD (boundOf s c)
  | [d] => d
  | l =>
    let m := l.sum / (l.length : Int)
    match x.pathSent with
    | some p => clampI (p - 16) (p + 16) m
    | none => m

/-- A MARK or PARK content as received: 6 bytes, in Whey coding with the CRC-16 of R101 behind them. -/
def shortOk (coding64 : Bool) (l : List Byte) : Bool :=
  if coding64 then l.length == 6 else l.length == 8 && fieldAt l 6 2 == (crc16 (l.take 6)).toNat

/-! ### Uplink messages -/

/-- R40, R100: the check of a whole uplink message for frame k. -/
def uplinkOk (s : State) (c : Nat) (head tail : List Byte) : Bool :=
  let k := s.frame.k % 65536
  head.length == 80 && tail.length == 48 && (crc32 (head ++ tail.take 44)).toNat == fieldAt tail 44 4 &&
  byteAt head 0 % 64 == c % 48 && fieldAt head 2 2 == k && fieldAt tail 0 2 == k

/-- The fields of an accepted message with their points (Table 05-2): point index, raw code, whether it is a sample, whether it is a
marker code (R129). -/
def uplinkFields (calOk : Bool) (head tail : List Byte) : List (Nat × Nat × Bool × Bool) :=
  let tsts := fieldAt tail 42 2
  ((List.range 8).map fun i => (i, fieldAt tail (2 + 2 * i) 2, calOk && bitAt tsts i, false)) ++
  ((List.range 12).map fun j =>
    let r := fieldAt tail (18 + 2 * j) 2
    (8 + j, r, calOk && bitAt tsts 8, r == 0x8000)) ++
  ((List.range 24).map fun j =>
    let r := fieldAt head (16 + 2 * j) 2
    (20 + j, r, true, r == 0xFFFF)) ++
  ((List.range 12).map fun j => (44 + j, byteAt head (64 + j), true, false)) ++
  [(56, byteAt head 1, true, false), (57, byteAt head 76, true, false), (58, byteAt head 77, true, false),
   (59, tsts, true, false), (60, fieldAt head 78 2, true, false)]

/-- The cell has a valid factory record (R132). -/
def factOk (s : State) (c : Nat) : Bool := (getLink s c).fact.isSome && !(getLink s c).factBad

/-- Every field through the hygiene chain; answers the calibrated samples for the limit comparators. -/
def intake (s : State) (c : Nat) (head tail : List Byte) : State × List (Nat × Int) :=
  (uplinkFields (factOk s c) head tail).foldl (fun (t, xs) (i, r, smp, mark) =>
    if !smp then (t, xs)
    else if mark then (markerSample t (cellPa c i), xs)
    else
      let (u, x) := sample t (cellPa c i) (BitVec.ofNat 16 r)
      (u, xs ++ [(i, x)])) (s, [])

/-- A point value in units of 0.25 ns, truncated and stopping at 0xFFFF (Table 05-1). -/
def quarterNs (v : Int) : Int := clampI 0 0xFFFF (v / 16)

/-- Link health points of one cell (R121): PT_PATH, PT_LUP, PT_TERR, PT_HOP. -/
def linkHealth (s : State) (c : Nat) (d lup e : Int) : State :=
  let p := c % 48
  let nearer : Option Nat := if servedA s c then (if p = 0 then none else some (c - 1))
    else if p + 1 < (getBr s (c / 48)).nb then some (c + 1) else none
  let hop := match nearer with | some q => lup - lupOf s q | none => lup
  let s1 := putPtI (putPtI s (cellPa c 320) (quarterNs d)) (cellPa c 321) (quarterNs lup)
  putPtI (putPtI s1 (cellPa c 322) (sat16 e)) (cellPa c 323) (clampI 0 0xFFFF hop)

/-- F_WL_TIME after 8 frames with |e| above 1 ns (R110). -/
def timeErrorCheck (s : State) (c : Nat) : State :=
  let n := (getLink s c).terrRun
  setC s (cellSrc c 3) (decide (8 ≤ n)) (BitVec.ofNat 32 (ux 32 (getLink s c).terr))

/-- The exchange that a head reports (R108): d into the path filter, L(p), the reported time error, F_FRM_HOP (R42). -/
def exchange (s : State) (c : Nat) (head : List Byte) : State :=
  match (getLink s c).umark with
  | none => modLink s c fun x => { x with terr := 0, terrRun := 0 }
  | some (arr, corrUp) =>
    let corrDn := sx 32 (fieldAt head 8 4)
    let d := asr (arr - corrDn - (fieldAt head 12 4 : Nat) - corrUp) 1
    let lup := d + corrUp
    let e := sx 32 (fieldAt head 4 4) - corrDn - d
    let s1 := modLink s c fun x => { x with
      dHist := (d :: x.dHist).take 8
      lup := some lup
      terr := e
      terrRun := if 64 < absI e then min (x.terrRun + 1) 8 else 0 }
    let s2 := timeErrorCheck (linkHealth s1 c d lup e) c
    if boundOf s2 c < lup then
      setC s2 (37 + c / 48) true (BitVec.ofNat 32 c)
    else s2

/-- Some served cell of branch b measures more than its hop bound. -/
def hopExceeded (s : State) (b : Nat) : Bool := (mapCells s b).any fun c => decide (boundOf s c < lupOf s c)

/-- R217, R218: what the reported bypass state means for the cell's role. -/
def bypassReport (s : State) (c : Nat) (closed : Bool) : State :=
  let x := getCtl s c
  if x.role = .isolating ∧ closed then modCtl s c fun x => { x with role := .bypassed, bypBy := none }
  else if x.role = .bypassed ∧ x.restBy.isSome ∧ !closed then
    modCtl s c fun x => { x with role := .idle, restBy := none, bypOpen := false }
  else s

/-- A channel of a cell latches (R166). -/
def ctripLatch (s : State) (c r : Nat) : State :=
  setC { s with harp := { s.harp with ctripLatched := tset false s.harp.ctripLatched (3 * c + r) true } } (cellSrc c 15) true
    (BitVec.ofNat 32 r)

/-- Head byte 77: executed cell-side trips are raised and counted, reported or counted-out channels latch (R166). -/
def headTrips (s : State) (c trips : Nat) : State :=
  (List.range 3).foldl (fun t r =>
    let t1 := if bitAt trips r then
        raiseE { t with harp := { t.harp with ctripCount := tmod 0 t.harp.ctripCount (3 * c + r) (satInc 255) } }
          (cellSrc c 14) (BitVec.ofNat 32 r)
      else t
    let n := max 1 (fld t1 .harpCtripCfg_n_trip r)
    if bitAt trips (3 + r) || (bitAt trips r && decide (n ≤ tget 0 t1.harp.ctripCount (3 * c + r))) then ctripLatch t1 c r
    else t1) s

/-- The TB576 holds the cell in RUN. -/
def heldInRun (s : State) (c : Nat) : Bool :=
  let r := (getCtl s c).role
  (getBc s (c / 48)).armed && (r == .inserted || r == .spare)

/-- F_WL_NODE_SAFE (R118): SAFE while held in RUN, or any state but RUN in the first head after the F(k_eff) of an ARM. -/
def nodeStateCheck (s : State) (c st : Nat) : State :=
  match (getLink s c).armed with
  | some ke =>
    if s.frame.k ≤ ke then s
    else setC (modLink s c fun x => { x with armed := none }) (cellSrc c 5) (st ≠ 3) (BitVec.ofNat 32 st)
  | none => setC s (cellSrc c 5) (st == 4 && heldInRun s c) (BitVec.ofNat 32 st)

/-- What head byte 1 and the other status bytes of an accepted message report. -/
def headStatus (s : State) (c : Nat) (head tail : List Byte) : State :=
  let x := getLink s c
  let b1 := byteAt head 1
  let miss := bitsAt b1 5 2
  let old := bitsAt x.nstate 5 2
  let missed := if old < miss then miss - old else if miss < old then miss else 0
  let locked := bitAt b1 3
  let p76 := byteAt head 76
  let tsts := fieldAt tail 42 2
  let gds := (head.drop 64).take 12
  let s1 := modLink s c fun x => { x with
    nstate := b1
    timeLocked := locked
    wasLocked := locked
    byClosed := bitAt b1 7
    ports := b2n (bitAt p76 0 && bitAt tsts 10) + 2 * b2n (bitAt p76 1 && bitAt tsts 11) }
  let s2 := if x.wasLocked && !locked then raiseE s1 (cellSrc c 4) (BitVec.ofNat 32 b1) else s1
  let s3 := nodeStateCheck s2 c (b1 % 8)
  let s4 := if gds.any fun g => g.getLsbD 2 then raiseE s3 (cellSrc c 6) (BitVec.ofNat 32 c) else s3
  let hit := below 12 fun j => byteAt gds j % 4 ≠ 0
  let gd := match hit with | j :: _ => byteAt gds j + 2 ^ 16 * (44 + j) | [] => 0
  let s5 := setC s4 (cellSrc c 31) (!hit.isEmpty) (BitVec.ofNat 32 gd)
  let s6 := if missed = 0 then s5 else countSat s5 .wlCntMiss .wlCntSat (c / 48) 1 missed
  bypassReport (headTrips s6 c (byteAt head 77)) c (bitAt b1 7)

/-- A rejected message: F_WL_UP_BAD, counted (R100). -/
def uplinkReject (s : State) (c : Nat) : State :=
  raiseE (countSat s .wlCntUpbad .wlCntSat (c / 48) 0 1) (cellSrc c 0) (BitVec.ofNat 32 c)

/-- The hold of R395 on a cell's sources ends with its first accepted uplink after IDLE or CURE. -/
def unsuppress (s : State) (c : Nat) : State :=
  if s.power.mode = .run ∧ !s.power.entering then { s with power := { s.power with suppressed := s.power.suppressed.filter (· ≠ c) } } else s

/-- An accepted message (R100). -/
def uplinkAccept (s : State) (c : Nat) (head tail : List Byte) : State :=
  let s1 := setC (modLink (unsuppress s c) c fun x => { x with gotUp := true, missUp := 0 }) (cellSrc c 1) false 0
  let (s2, xs) := intake s1 c head tail
  let s3 := headStatus (cellLimits (hygLive s2 (cellPa c 0)) c xs) c head tail
  modLink (exchange s3 c head) c fun x => { x with head := none, umark := none }

/-- A head arrives and is held for its tail (R40, R41). -/
def uplinkHead (s : State) (c : Nat) (bytes : List Byte) : State :=
  if (getLink s c).inMap then modLink s c fun x => { x with head := some bytes } else s

/-- A tail arrives: late after T_snap (R43), else the whole message is checked. -/
def uplinkTail (s : State) (c : Nat) (bytes : List Byte) : State :=
  if !(getLink s c).inMap then s
  else if s.frame.snapped then
    raiseE { s with frame := { s.frame with lateNow := min (s.frame.lateNow + 1) 1023 } } (cellSrc c 7) (BitVec.ofNat 32 c)
  else
    match (getLink s c).head with
    | some h =>
      if uplinkOk s c h bytes then uplinkAccept s c h bytes
      else uplinkReject (modLink s c fun x => { x with head := none, umark := none }) c
    | none => uplinkReject s c

/-- A U-MARK arrives (R108), with its arrival in 1/64 ns from F(k). -/
def uplinkMark (s : State) (c : Nat) (arrival corr : Int) : State :=
  if (getLink s c).inMap ∧ !s.clk.onSafe then modLink s c fun x => { x with umark := some (arrival, corr) } else s

/-- F_WL_UP_LOSS after 3 snapshots without an accepted uplink (R118). -/
def uplinkLossCheck (s : State) (c : Nat) : State :=
  setC s (cellSrc c 1) ((getLink s c).inMap && decide (3 ≤ (getLink s c).missUp)) (BitVec.ofNat 32 c)

/-- What the Whey link does for a cell at T_snap: the miss count, and heads whose tail did not come fail with it (R26, R40). -/
def uplinkSnapshot (s : State) (c : Nat) : State :=
  let s1 := modLink s c fun x =>
    let y := { x with head := none, umark := none, gotUp := false, missUp := if x.gotUp then 0 else min (x.missUp + 1) 3 }
    if x.gotUp then y else { y with terr := 0, terrRun := 0 }
  uplinkLossCheck s1 c

/-! ### Breaks and splits (R111, R112) -/

/-- a_last + 1 of R93 for branch b: the whole chain from a twin device's own end (R222), a forced split, or the default. -/
def targetSplit (s : State) (b : Nat) : Nat :=
  let n := (getBr s b).nb
  match ownEnd s with
  | some e => if e then 0 else n
  | none => let f := fld s .wlBrCfg_split_force b; if f ≤ n ∧ f ≤ 48 then f else (n + 1) / 2

/-- The serving end of cell c can reach it (R43). A cell beyond a break is served again once the break is no longer evident (DESIGN
CHOICE, log entry 92). -/
def reached (s : State) (c : Nat) : Bool :=
  let b := getBr s (c / 48)
  !b.broken || (if servedA s c then decide (c % 48 < b.breakLo) else decide (b.breakHi ≤ c % 48))

/-- Cells in the cell map that the split in force reaches, by rising number. -/
def servedCells (s : State) : List Nat := (allCells s).filter (reached s)

/-- The places of the evident breaks: x stands for a break between positions x − 1 and x. -/
def breakPlaces (s : State) (b : Nat) : List Nat :=
  let n := (getBr s b).nb
  let laneOut := fun (endB : Bool) =>
    (match ownEnd s with | some e => e == endB | none => true) && (getLane s (2 * b + b2n endB)).mode == .down
  let at_ := fun x =>
    (decide (0 < x) && (getLink s (48 * b + x - 1)).inMap && !bitAt (getLink s (48 * b + x - 1)).ports 1) ||
    (decide (x < n) && (getLink s (48 * b + x)).inMap && !bitAt (getLink s (48 * b + x)).ports 0) ||
    (x == 0 && laneOut false) || (x == n && laneOut true)
  below (n + 1) at_

/-- Hops within which some end reaches every node that a SPLIT can reach. -/
def splitHops (n lo hi : Nat) (brk : Bool) : Nat :=
  maxOf ((List.range n).map fun p =>
    if !brk then min (p + 1) (n - p)
    else if p < lo then (if hi ≤ p then min (p + 1) (n - p) else p + 1)
    else if hi ≤ p then n - p else 0)

/-- Sends SPLIT from both ends with the k_eff of R111; in twin the far end is reached through the standby before a segment is relayed. -/
def sendSplit (s : State) (b v : Nat) : State :=
  let x := getBr s b
  let m := splitHops x.nb x.breakLo x.breakHi x.broken
  let ke := s.frame.k + 1 + 4 * (s.frame.tsnap + m * hopBound s) / tF s
  let l := linkB 3 0x80 (leB 1 v ++ leB 2 ke)
  sendVia (sendVia (modBr s b fun y => { y with splitNext := some (v, ke) }) b false true .link l) b true true .link l

/-- A split change under R111, counted. -/
def resplitTo (s : State) (b v : Nat) : State :=
  countSat (sendSplit s b v) .wlCntResplit .wlCntSat b 3 1

/-- The split that stands or is on its way. -/
def splitGoal (s : State) (b : Nat) : Nat :=
  match (getBr s b).splitNext with | some (v, _) => v | none => (getBr s b).split

/-- The return to the default or forced split once no break was evident at 64 consecutive T_snap (R111). -/
def healCheck (s : State) (b : Nat) : State :=
  let x := getBr s b
  if flag s .wlBrCfg_auto_resplit b ∧ x.resplit ∧ !x.broken ∧ 64 ≤ x.healed then
    let s1 := modBr s b fun y => { y with resplit := false }
    if targetSplit s b = splitGoal s b then s1 else resplitTo s1 b (targetSplit s b)
  else s

/-- R111 at a T_snap, for a branch whose chain is known. The far port of the end cell without lock shows a primary that a lane of its
standby has lost the chain and will retrain, which ends the far-end calibration (R228; DEDUCED, log entry 104). -/
def breakCheck (s : State) (b : Nat) : State :=
  if ((getBr s b).disc ≠ .acquiring ∧ (getBr s b).disc ≠ .done) ∨ s.power.mode ≠ .run then s
  else
    let places := breakPlaces s b
    let brk := !places.isEmpty
    let lo := if brk then places.foldl min 63 else 63
    let hi := if brk then maxOf places else 63
    let s1 := modBr s b fun y => { y with
      broken := brk
      breakLo := lo
      breakHi := hi
      healed := if brk then 0 else min (y.healed + 1) 64 }
    let s2 := setC s1 (242 + b) brk (BitVec.ofNat 32 (if brk then lo else b))
    let s3 := (mapCells s2 b).foldl (fun t c =>
      setC t (cellSrc c 2) (brk && decide (lo ≤ c % 48) && decide (c % 48 < hi)) (BitVec.ofNat 32 c)) s2
    let far : Bool := match ownEnd s3 with
      | some e => places.contains (if e then 0 else (getBr s3 b).nb)
      | none => false
    let s4 := if far ∧ s3.twin.role = .primary then { s3 with twin := { s3.twin with calValid := false } } else s3
    if brk ∧ flag s4 .wlBrCfg_auto_resplit b then
      let g := splitGoal s4 b
      let v := max lo (min g hi)
      if v = g then s4 else resplitTo (modBr s4 b fun y => { y with resplit := true }) b v
    else healCheck s4 b

/-- First path of a cell that moves to the other end (R112): the propagation measured from the old end, reversed, onto the known path
of the new segment; `u` stands for the hop, or the far end's first hops, that neither end has measured. -/
def firstPath (s : State) (c old : Nat) (u : Int) : Int :=
  let b := c / 48; let p := c % 48
  let at_ := fun q => dOf s (48 * b + q)
  if p < old then
    (if old < (getBr s b).nb then at_ old else 0) + u + (at_ (old - 1) - at_ p)
  else (if 0 < old then at_ (old - 1) else 0) + u + (at_ old - at_ p)

/-- The hop between the old segments: known from the far-end calibration of R228 where a twin device has it, else a free value no
larger than the hop bound. -/
def unmeasuredHop (s : State) (b : Nat) : Int × State :=
  if s.twin.role ≠ .off ∧ s.twin.calValid then (tget 0 s.twin.eFar b + s.twin.pPeer, s)
  else let (v, t) := drawBelow s (64 * hopBound s + 1); (v, t)

/-- A split takes effect: cells that change their serving end get their first path, and their filter and L(p) start anew. One that no
exchange has measured yet, in a discovery, goes on with the bound of R108. -/
def applySplit (s : State) (b v : Nat) : State :=
  let old := (getBr s b).split
  let moved := (mapCells s b).filter fun c => decide (c % 48 < old) != decide (c % 48 < v)
  let known := moved.filter fun c => (getLink s c).lup.isSome
  let (u, s1) := if known.isEmpty then (0, s) else unmeasuredHop s b
  let firsts := moved.map fun c => (c, if known.contains c then some (firstPath s1 c old u) else none)
  let s2 := firsts.foldl (fun t (c, f) => modLink t c fun x => { x with
    dHist := []
    pathFirst := f
    lup := none
    head := none
    umark := none }) s1
  let far := match ownEnd s2 with
    | some e => (mapCells s2 b).any fun c => decide (c % 48 < v) == e
    | none => false
  let s3 := modBr s2 b fun y => { y with split := v, splitNext := none, relay := far }
  { s3 with frame := { s3.frame with checkDue := true } }

/-- A split whose k_eff is this boundary takes effect. -/
def splitBoundary (s : State) (b : Nat) : State :=
  match (getBr s b).splitNext with
  | some (v, ke) => if ke ≤ s.frame.k then applySplit s b v else s
  | none => s

/-- The Whey link commit (block 3): a changed forced split of a chain that stands is sent at once; it takes effect at its k_eff. -/
def commitWhey (s : State) : State × Option Nat := (stageBlock s 3 fun _ _ => true, none)

/-- A forced split that a commit changed: sent at once to a chain that stands, as far as a standing break lets it; what the break keeps
back follows once it has healed (R93, R111). -/
def forceSplit (s : State) (b : Nat) : State :=
  let x := getBr s b
  let goal := targetSplit s b
  let cut := x.broken && flag s .wlBrCfg_auto_resplit b
  let v := if cut then max x.breakLo (min goal x.breakHi) else goal
  let s1 := modBr s b fun y => { y with resplit := cut && v != goal }
  if v = splitGoal s b then s1 else sendSplit s1 b v

/-- The committed branch settings apply at the boundary (R119). -/
def applyWhey (s : State) : State :=
  if !applyingBlock s 3 then s
  else
    let t := applyBlock s 3
    (presentBrs t).foldl (fun u b =>
      if ((getBr u b).disc = .done ∨ (getBr u b).disc = .acquiring) ∧ !standby u ∧
          fld s .wlBrCfg_split_force b ≠ fld u .wlBrCfg_split_force b then forceSplit u b
      else u) t

/-- Zeroes the counters and saturation bits of branch b (R119). -/
def clearWlCounts (s : State) (b : Nat) : State :=
  [RegName.wlCntUpbad, .wlCntMiss, .wlCntBulkto, .wlCntResplit, .wlCntSat].foldl (fun t r => putWord t r b 0) s

/-! ### Meanings -/

/-- A message part from a cell that a standby hears on a relayed chain goes over the peer lanes (R227). -/
def relayPart (s : State) (c : Nat) (l : List Byte) : State :=
  if (getBr s (c / 48)).relay then peerOut s .first (leB 1 0x11 ++ leB 1 (c / 48) ++ l) else s

/-- Where a chain message of cell c arrives: at a lane of its branch f takes it, at a cell node it goes on upstream (R94). -/
def onChain (s : State) (c : Nat) (rx : Arrival) (want : Nat) (t : SlabType) (typ : SlabType) (f : State → List Byte → State) :
    Host.Outcome State Fault Refusal :=
  match rx with
  | .lane n r => onCore s fun s => onRun s n (fun _ => want) r t fun u l => if n.val / 2 = c / 48 then f u l else u
  | .node x p l => onNode s fun s => fwdUp s x p typ l

/-- R41: an uplink head. A standby forwards what it hears on a relayed chain to the primary (R227). -/
def execUplinkHead (cell : Cell) (rx : Arrival) (s : State) : Host.Outcome State Fault Refusal :=
  onChain s cell rx 10 .last .first fun s l =>
    if standby s then relayPart s cell (l.take 80) else uplinkHead s cell (l.take 80)

/-- R43, R100: an uplink tail. -/
def execUplinkTail (cell : Cell) (rx : Arrival) (s : State) : Host.Outcome State Fault Refusal :=
  onChain s cell rx 6 .last .first fun s l =>
    if standby s then relayPart s cell (l.take 48) else uplinkTail s cell (l.take 48)

/-- A MARK with more residence in its corr, and a new CRC-16 (R107, R101). -/
def markPlus (b64 : Bool) (l : List Byte) (r : Nat) : List Byte := markB b64 (l.take 2 ++ leB 4 (ux 32 (sx 32 (fieldAt l 2 4) + (r : Int))))

/-- A U-MARK as the TB576 takes it from a lane in this coding: from the chain, or relayed with its branch in byte 0 (Table 08-5). A
standby relays it with its own residence, at most 150 ns (R227). -/
def markHeard (s : State) (n c : Nat) (arrival : Int) (l : List Byte) : State :=
  let b := c / 48
  let form := if n < 24 then decide (n / 2 = b) && byteAt l 0 % 16 == 2 else relayedCell s c && byteAt l 0 == 3 + 16 * b
  if !shortOk (laneCoding s n) l ∨ !form ∨ byteAt l 1 ≠ c % 48 then s
  else if standby s then
    if (getBr s b).relay then
      let (r, t) := drawBelow s 9601
      let m := if (getLane t 26).mode = .down then 27 else 26
      peerOut t .mark (markPlus (laneCoding t m) (leB 1 (3 + 16 * b) ++ l.drop 1) r)
    else s
  else uplinkMark s c arrival (sx 32 (fieldAt l 2 4))

/-- R101, R108: a U-MARK with the position of its cell. A node that forwards it adds its residence, which is its own: a free value. -/
def execUMark (cell : Cell) (arrival : Int) (rx : Arrival) (s : State) : Host.Outcome State Fault Refusal :=
  match rx with
  | .lane n r => onCore s fun s => onRun s n (fun _ => 10) r .mark fun t l =>
    markHeard t n cell arrival (shortOf (laneCoding t n) l)
  | .node x p l => onNode s fun s =>
    let b64 := (getNode s x).coding
    if !shortOk b64 l then s
    else
      let (r, t) := draw s
      fwdUp t x p .mark (markPlus b64 l r)

/-- R118: three consecutive frames without a valid uplink. -/
def execUplinkLoss (cell : Cell) (s : State) : Host.Outcome State Fault Refusal :=
  onCore s fun s => uplinkLossCheck s cell

/-- R110: F_WL_TIME from the reported time error. -/
def execWlTimeError (cell : Cell) (s : State) : Host.Outcome State Fault Refusal :=
  onCore s fun s => timeErrorCheck s cell

/-- R111: the break of a re-split branch has healed. -/
def execResplitHeal (br : Br) (s : State) : Host.Outcome State Fault Refusal :=
  onCore s fun s => healCheck s br

/-- R119: the Whey link commit. -/
def execWheyLinkCommit (s : State) : Host.Outcome State Fault Refusal := onCore s fun s => barWo s fun s => (commitWhey s).1

/-- R119: WL_CNT_CLR. -/
def execWlCntClr (mask : Word) (s : State) : Host.Outcome State Fault Refusal :=
  onCore s fun s => barWo s fun s => (below 12 (bitAt mask.toNat)).foldl clearWlCounts s

end Sys2Proof.Machine
end

