-- ==== Sys2Proof/Machine/Discover.lean ====
section
/-!
DEFINITION. Bulk requests (R105, R106) and the discovery of the chains (R113, R417).
-/
namespace Sys2Proof.Machine

/-! ### Bulk frames -/

/-- A bulk frame of R105. -/
def bulkB (b0 op : Nat) (tag : Half) (addr len : Nat) (data : List Byte) : List Byte :=
  let l := leB 1 b0 ++ leB 1 op ++ leB 2 tag.toNat ++ leB 3 addr ++ leB 1 len ++ data
  l ++ leB 4 (crc32 l).toNat

/-- A received bulk frame with a valid CRC and `n` data bytes. -/
def bulkOk (l : List Byte) (op n : Nat) : Bool :=
  l.length == 12 + n && byteAt l 1 == op && fieldAt l (8 + n) 4 == (crc32 (l.take (8 + n))).toNat

/-- Sends the request a cell has outstanding. -/
def sendBulk (s : State) (c : Nat) (x : Bulk) : State :=
  let f := fun b0 => bulkB b0 (if x.write then 2 else 1) x.tag x.addr x.len x.data
  match x.hop with
  | some (endB, h) => sendEnd s (c / 48) endB .bulk (f (h % 64 + 64))
  | none => sendCell s c .bulk (f (c % 48))

/-- Starts a request at a node: its tag is the device's own choice, a free value. -/
def startBulk (s : State) (c : Nat) (write : Bool) (addr len : Nat) (data : List Byte) (hop : Option (Bool × Nat)) (owner : Nat) :
    State :=
  let (v, s1) := draw s
  let x : Bulk := ⟨write, addr, len, data, BitVec.ofNat 16 v, 0, hop, owner⟩
  sendBulk (modLink s1 c fun y => { y with bulk := some x }) c x

/-- The trip block of Table 06-6 from `HARP_CTRIP_CFG` (R166). -/
def tripBlock (s : State) : List Byte :=
  ((List.range 3).flatMap fun r =>
    leB 2 (fld s .harpCtripCfg_filt r) ++ leB 1 (fld s .harpCtripCfg_n_trip r) ++ leB 1 (fld s .harpCtripCfg_enable r) ++
    leB 2 (fld s .harpCtripCfg_win r) ++ zeroB 2) ++ zeroB 8

/-- The next request of a command that waits for a node: write, address, length, data. -/
def waitReq (s : State) (c : Nat) : Wait → Option (Bool × Nat × Nat × List Byte)
  | .bulk c' wr a n d => if c' = c then some (wr, a, n, d) else none
  | .eye c' a left _ => if c' = c then some (false, a, min 64 left, []) else none
  | .trip c' r => if c' = c then some (true, 0x103 + 8 * r, 1, leB 1 (fld s .harpCtripCfg_enable r + 2)) else none
  | _ => none

/-- Starts the next request that waits for a free node: commands first, then a due trip block. -/
def pumpBulk (s : State) (c : Nat) : State :=
  if (getLink s c).bulk.isSome then s
  else
    match s.cmd.waits.find? fun w => (waitReq s c w.wait).isSome with
    | some w =>
      match waitReq s c w.wait with
      | some (wr, a, n, d) => startBulk s c wr a n d none (2 + w.queue)
      | none => s
    | none =>
      if s.harp.ctripDue.contains c ∧ (getLink s c).inMap then
        startBulk { s with harp := { s.harp with ctripDue := s.harp.ctripDue.filter (· ≠ c) } } c true 0x100 32 (tripBlock s) none 1
      else s

/-- The trip blocks of these cells are to be written. -/
def tripBlocksDue (s : State) (cs : List Nat) : State :=
  let s1 := { s with harp := { s.harp with
    ctripDue := s.harp.ctripDue ++ cs.filter fun c => !s.harp.ctripDue.contains c } }
  cs.foldl pumpBulk s1

/-! ### Discovery -/

/-- ROLE content (R102, R222). -/
def roleB (s : State) : List Byte := linkB 4 0x80 (leB 1 (fld0 s .twinCfg_end) ++ leB 2 s.twin.epoch)

/-- Discovery of a branch ends: its state is reported (Table 13-8). -/
def discEnds (s : State) (b : Nat) (d : Disc) : State :=
  postEvent (modBr s b fun x => { x with disc := d }) 0x6001 (leB 1 b ++ leB 1 (if d = .done then 5 else 6))

/-- The cell map has changed: the budget of R53 is checked at the next boundary. -/
def mapChanged (s : State) : State := { s with frame := { s.frame with checkDue := true } }

/-- The input points of a cell that enters the cell map have accepted nothing yet (R128). -/
def freshPoints (s : State) (c : Nat) : State :=
  (List.range 61).foldl (fun t i => modPt t (cellPa c i) fun y => { y with accepted := false }) s

/-- Discovery fails; the branch stays out of the cell map (R417). -/
def discFail (s : State) (b : Nat) (chain : Bool) : State :=
  let s1 := mapChanged ((List.range 48).foldl (fun t p => modLink t (48 * b + p) fun _ => CellLink.zero) s)
  let s2 := if chain then setC s1 (266 + b) true (BitVec.ofNat 32 b) else s1
  discEnds s2 b .failed

/-- A discovery runs on branch b. -/
def discBusy (s : State) (b : Nat) : Bool :=
  match (getBr s b).disc with | .idle | .done | .failed => false | _ => true

/-- Sends ROLE, then ENUM with count 0, from both ends in one frame (R113 steps 1 and 2). -/
def sendEnum (s : State) (b : Nat) : State :=
  let s1 := sendBoth (sendBoth s b .link (roleB s)) b .link (linkB 1 0x80 [])
  modBr s1 b fun x => { x with discFrame := s.frame.k + 1 }

/-- A lane of the branch that this device drives is training. -/
def endsTraining (s : State) (b : Nat) : Bool := [2 * b, 2 * b + 1].any fun n => (getLane s n).mode == .training

/-- Starts discovery of a branch (R113): not while busy, nor while a cell is not PARKED, nor on a standby (R222). Lanes that are DOWN
train first. -/
def startDisc (s : State) (b : Nat) : State :=
  if !brPresent s b || discBusy s b || !brParked s b || standby s || s.boot.recovery then s
  else
    let s0 := { s with twin := { s.twin with epoch := max 1 s.twin.epoch } }
    let s1 := (List.range 48).foldl (fun t p =>
      let c := 48 * b + p
      [1, 2, 3, 5, 9, 10, 13].foldl (fun u i => setC u (cellSrc c i) false 0) (modLink t c fun _ => CellLink.zero)) s0
    let s2 := setC (setC s1 (266 + b) false 0) (242 + b) false 0
    let s3 := modBr s2 b fun x => { Branch.zero with disc := .enumerating, nb := x.nb }
    let s4 := [2 * b, 2 * b + 1].foldl (fun t n =>
      if (getLane t n).mode = .down ∧ flag t .laneCfg_enable n then startAttempt t n false else t) s3
    if endsTraining s4 b then mapChanged s4 else mapChanged (sendEnum s4 b)

/-- The end (end B) from which discovery first tries position p: end A where ENUM passed it. -/
def discFromB (s : State) (b p : Nat) : Bool :=
  let x := getBr s b
  match ownEnd s with
  | some e => e
  | none => x.enumA.isNone && x.enumB.isNone && decide (x.replyA.getD 0 ≤ p)

/-- End and hop count at which discovery reaches position p. -/
def discHop (s : State) (b p : Nat) : Bool × Nat :=
  if (getLink s (48 * b + p)).viaB then (true, (getBr s b).nb - p) else (false, p + 1)

/-- n_b is known: every node's identity is read (R113 step 4). -/
def discRead (s : State) (b n : Nat) : State :=
  let s0 := if (getBr s b).nb = n then s else { s with twin := { s.twin with calValid := false } }
  let s1 := modBr s0 b fun x => { x with nb := n, disc := .reading }
  (List.range n).foldl (fun t p =>
    let c := 48 * b + p
    let u := modLink t c fun x => { x with rd := 1, viaB := discFromB t b p }
    startBulk u c false 0 64 [] (some (discHop u b p)) 0) s1

/-- R113 step 3: n_b from the ENUM that arrived at the opposite end, else from the end replies. With neither, discovery fails without a
fault source (DESIGN CHOICE, log entry 99). -/
def discDecide (s : State) (b : Nat) : State :=
  let x := getBr s b
  let arrived := x.enumA.toList ++ x.enumB.toList
  let n := match arrived with | v :: _ => v | [] => x.replyA.getD 0 + x.replyB.getD 0
  let differ : Bool := match arrived with | [v, w] => v != w | _ => false
  if differ ∨ 48 < n then discFail s b true
  else if n = 0 then discFail s b false
  else discRead s b n

/-- The factory record as R132 checks it. -/
def factFails (l : List Byte) : Bool :=
  (crc32 (l.take 160)).toNat != fieldAt l 160 4 ||
  (List.range 20).any fun i => match dec32 (fieldAt l (8 * i) 4) with | some g => g.m == 0 | none => true

/-- Length of the factory record to read. -/
def factLen (ident : List Byte) : Nat := min 4096 (max 164 (fieldAt ident 22 2))

/-- Every position of the branch has reached stage r of discovery. -/
def allAt (s : State) (b r : Nat) : Bool := (List.range (getBr s b).nb).all fun p => (getLink s (48 * b + p)).rd == r

/-- R113 step 5: SETPOS to every node; from it the node is in the cell map. Step 6: the identity of each position is read again. -/
def discAddress (s : State) (b : Nat) : State :=
  let n := (getBr s b).nb
  let viaA := ((List.range n).filter fun p => !(discHop s b p).1).length
  let s1 := (List.range n).foldl (fun t p =>
    let (e, h) := discHop t b p
    let t1 := sendEnd t b e .link (linkB 2 (h % 64 + 64) (leB 1 p ++ leB 1 n))
    modLink (freshPoints t1 (48 * b + p)) (48 * b + p) fun y => { y with inMap := true, ports := 3, rd := 4 })
    (modBr s b fun y => { y with disc := .addressing, split := viaA })
  (List.range n).foldl (fun t p => startBulk t (48 * b + p) false 0 64 [] none 0)
    (mapChanged s1)

/-- R113 step 7: SPLIT with the default or forced split; the nodes acquire time. Their trip blocks are written (R166). -/
def discAcquire (s : State) (b : Nat) : State :=
  let s1 := sendSplit (modBr s b fun x => { x with disc := .acquiring }) b (targetSplit s b)
  tripBlocksDue s1 (mapCells s1 b)

/-- The factory record of a node has been read, or could not be (R132). -/
def discFact (s : State) (c : Nat) (l : Option (List Byte)) : State :=
  let b := c / 48
  let bad := match l with | some l => factFails l | none => true
  let s1 := setC (modLink s c fun x => { x with rd := 3, fact := l, factBad := bad, rdBuf := [] }) (cellSrc c 13) bad
    (BitVec.ofNat 32 c)
  let s2 := match l with | some l => takeCoef s1 c l | none => s1
  if allAt s2 b 3 then discAddress s2 b else s2

/-- How a bulk request ended. -/
inductive BulkRes where
  | data (l : List Byte)
  | ack
  | error (code : Nat)
  | timeout
deriving DecidableEq, Repr

/-- Discovery goes on at a node whose request ended. A node that does not answer from end A (a segment end of an earlier split keeps
requests from it, Table 04-1) is read from end B. A serial check that fails ends discovery without a fault source (DESIGN CHOICE, log
entry 99). -/
def discStep (s : State) (c : Nat) (r : BulkRes) : State :=
  let b := c / 48
  let x := getLink s c
  let hop := some (discHop s b (c % 48))
  let fromB := !x.viaB && (ownEnd s).isNone
  let other := modLink s c fun y => { y with viaB := true }
  let hopB := some (discHop other b (c % 48))
  if !discBusy s b then s
  else
    match x.rd, r with
    | 1, .data l =>
      if byteAt l 16 ≠ 1 then discFail s b true
      else startBulk (modLink s c fun y => { y with rd := 2, ident := l, rdBuf := [] }) c false 0x1000 64 [] hop 0
    | 2, .data l =>
      let got := x.rdBuf ++ l
      let n := factLen x.ident
      if n ≤ got.length then discFact s c (some (got.take n))
      else startBulk (modLink s c fun y => { y with rdBuf := got }) c false (0x1000 + got.length)
        (min 64 (n - got.length)) [] hop 0
    | 2, .error _ => discFact s c none
    | 1, .timeout => if fromB then startBulk other c false 0 64 [] hopB 0 else discFail s b false
    | 2, .timeout =>
      if fromB then
        startBulk other c false (0x1000 + x.rdBuf.length) (min 64 (factLen x.ident - x.rdBuf.length)) [] hopB 0
      else discFail s b false
    | 4, .data l =>
      if (l.drop 8).take 8 ≠ (x.ident.drop 8).take 8 then discFail s b false
      else
        let s1 := modLink s c fun y => { y with rd := 5 }
        if allAt s1 b 5 then discAcquire s1 b else s1
    | _, _ => discFail s b false

/-- The copy of a saved image with the later sequence number. -/
def newest (l : List (Option Image)) : Option Image :=
  l.foldl (fun a x =>
    match a, x with
    | some i, some j => if i.seq < j.seq then some j else some i
    | none, y => y
    | y, none => y) none

/-- Keys of a position in a saved cell map: the two words of its serial number. -/
def mapKey (c : Nat) : Nat := 2 * (64 * (c / 48) + c % 48)

/-- The persisted map and this discovery disagree on branch b (R113). -/
def discMismatch (s : State) (b : Nat) : Bool :=
  let e := fld s .wlBrCfg_exp_len b
  let lenBad := decide (0 < e) && decide (e ≤ 48) && e != (getBr s b).nb
  let held := fun (i : Image) c => (tget none (i.words.map fun (k, w) => (k, some w)) (mapKey c))
  let serialBad := match newest s.boot.flash.map with
    | none => false
    | some i => (List.range 48).any fun p =>
        let c := 48 * b + p
        match held i c with
        | none => false
        | some lo =>
          let x := getLink s c
          !x.inMap || fieldAt x.ident 8 4 != lo.toNat || fieldAt x.ident 12 4 != (tget 0 i.words (mapKey c + 1)).toNat
  lenBad || serialBad

/-- R113 step 8: every node has reported time lock. -/
def discCheck (s : State) (b : Nat) : State :=
  if (getBr s b).disc = .acquiring ∧ (mapCells s b).all (fun c => (getLink s c).timeLocked) then
    let bad := discMismatch s b
    let s1 := if bad then setFld s .wlBrSts_disc_mismatch b 1 else s
    let s2 := setC (modBr s1 b fun x => { x with mapDone := true }) (254 + b) bad (BitVec.ofNat 32 b)
    discEnds s2 b .done
  else s

/-- What discovery does at a frame boundary: ENUM leaves once the lanes no longer train, and n_b is decided two boundaries later. -/
def discBoundary (s : State) (b : Nat) : State :=
  let x := getBr s b
  if x.disc ≠ .enumerating then s
  else if x.discFrame = 0 then (if endsTraining s b then s else sendEnum s b)
  else if x.discFrame + 1 ≤ s.frame.k then discDecide s b
  else s

/-! ### The end of a request -/

/-- A cell channel's latch is cleared by its node (R166). -/
def ctripCleared (s : State) (c r : Nat) : State :=
  let s1 := { s with harp := { s.harp with ctripLatched := tdel s.harp.ctripLatched (3 * c + r) } }
  setC s1 (cellSrc c 15) ((List.range 3).any fun q => tget false s1.harp.ctripLatched (3 * c + q)) 0

/-- A command that waited for a node goes on or ends. -/
def waitEnds (s : State) (c : Nat) (w : Waiting) (r : BulkRes) : State :=
  let t := unwait s w
  match w.wait, r with
  | .eye _ a left got, .data d =>
    if left ≤ 64 then finishData t w.packet (got ++ d)
    else { t with cmd := { t.cmd with waits := t.cmd.waits ++ [{ w with wait := .eye c (a + 64) (left - 64) (got ++ d) }] } }
  | .trip _ _, .error 2 => finishSt t w.packet stStillActive
  | .trip _ q, .ack => finish (ctripCleared t c q) w.packet stOk 0 []
  | _, .data d => finishData t w.packet d
  | _, .ack => finish t w.packet stOk 0 []
  | _, .error e => finish t w.packet stNodeError e []
  | _, .timeout => finishSt t w.packet stNodeTimeout

/-- A request ended: its owner takes the result, and the next request starts. -/
def bulkEnd (s : State) (c : Nat) (r : BulkRes) : State :=
  match (getLink s c).bulk with
  | none => s
  | some x =>
    let s1 := modLink s c fun y => { y with bulk := none }
    let s2 :=
      if x.owner = 0 then discStep s1 c r
      else if x.owner = 1 then s1
      else match s1.cmd.waits.find? fun w => w.queue + 2 == x.owner && (waitReq s1 c w.wait).isSome with
        | some w => waitEnds s1 c w r
        | none => s1
    pumpBulk s2 c

/-- An answer taken from a cell: it must answer the outstanding request. -/
def bulkAnswer (s : State) (c : Nat) (bytes : List Byte) (op n : Nat) (write : Option Bool) (r : BulkRes) : State :=
  match (getLink s c).bulk with
  | none => s
  | some x =>
    let kindOk := match write with | some w => x.write == w | none => true
    if bulkOk bytes op n && fieldAt bytes 2 2 == x.tag.toNat && kindOk then
      bulkEnd s c r
    else s

/-! ### Meanings -/

/-- A bulk answer of cell c by its opcode (R105): READ_RSP with the length asked for, WRITE_ACK, or ERROR with its code. -/
def bulkTake (s : State) (c : Nat) (l : List Byte) : State :=
  let n := byteAt l 7
  match byteAt l 1, (getLink s c).bulk with
  | 0x81, some x => if x.len = n then bulkAnswer s c l 0x81 n (some false) (.data ((l.drop 8).take n)) else s
  | 0x82, _ => bulkAnswer s c l 0x82 0 (some true) .ack
  | 0xC0, _ => bulkAnswer s c l 0xC0 1 none (.error (byteAt l 8))
  | _, _ => s

/-- A bulk answer that a row of this opcode brings. A standby sends what it hears on a relayed chain over the peer lanes, slab by slab
(R227). -/
def bulkHeard (op : Nat) (c : Nat) (s : State) (l : List Byte) : State :=
  if byteAt l 1 ≠ op then s
  else if standby s then
    if (getBr s (c / 48)).relay then
      (bulkSlabs false l).foldl (fun t m => peerOut t .first (leB 1 0x12 ++ leB 1 (c / 48) ++ leB 1 5 ++ padB 14 m.2)) s
    else s
  else bulkTake s c l

/-- R105: READ_RSP. -/
def execBulkReadRsp (cell : Cell) (rx : Arrival) (s : State) : Host.Outcome State Fault Refusal :=
  onChain s cell rx 10 .bulk .bulk (bulkHeard 0x81 cell)

/-- R105: WRITE_ACK. -/
def execBulkWriteAck (cell : Cell) (rx : Arrival) (s : State) : Host.Outcome State Fault Refusal :=
  onChain s cell rx 10 .bulk .bulk (bulkHeard 0x82 cell)

/-- R105, R106: ERROR with its code. -/
def execBulkError (cell : Cell) (rx : Arrival) (s : State) : Host.Outcome State Fault Refusal :=
  onChain s cell rx 10 .bulk .bulk (bulkHeard 0xC0 cell)

/-- R106: 100 µs without an answer: the request is repeated up to 3 times, then a timeout counts. -/
def execBulkTimeout (cell : Cell) (s : State) : Host.Outcome State Fault Refusal :=
  onCore s fun s =>
    let c := cell.val
    match (getLink s c).bulk with
    | none => s
    | some x =>
      if x.tries < 3 then
        let y := { x with tries := x.tries + 1 }
        sendBulk (modLink s c fun z => { z with bulk := some y }) c y
      else bulkEnd (countSat s .wlCntBulkto .wlCntSat (c / 48) 2 1) c .timeout

/-- A standby that sees an ENUM at its lane returns it over the peer lanes (R222); the count tells it the chain. A changed n_b ends the
far-end calibration (R228). -/
def standbyEnum (s : State) (b count : Nat) : State :=
  let n := min 48 count
  let s0 := if (getBr s b).nb = n then s else { s with twin := { s.twin with calValid := false } }
  let s1 := modBr s0 b fun x => { x with nb := n, mapDone := true, disc := .done }
  let s2 := (List.range 48).foldl (fun t p =>
    let u := if p < n ∧ !(getLink t (48 * b + p)).inMap then freshPoints t (48 * b + p) else t
    modLink u (48 * b + p) fun x => { x with inMap := decide (p < n) }) s1
  peerOut (mapChanged s2) .first (leB 1 0x12 ++ leB 1 b ++ leB 1 0xA ++ padB 14 (linkB 1 0x80 (leB 1 count)))

/-- ENUM as it is heard on a chain lane (R103): its count where the end reply flag is as given. -/
def enumHeard (l : List Byte) (reply : Bool) : Option Nat :=
  if linkOk l 1 && bitAt (byteAt l 3) 0 == reply then some (byteAt l 2) else none

/-- R113: an ENUM arrives at an end from the other end; on a standby it is returned over the peer lanes (R222). -/
def execEnumAtOppositeEnd (br : Br) (atB : Bool) (run : SlabRun) (s : State) : Host.Outcome State Fault Refusal :=
  onCore s fun s => onRun s (2 * br + b2n atB) (fun _ => 10) run .link fun t l =>
    match enumHeard l false with
    | none => t
    | some n =>
      if standby t then standbyEnum t br n
      else if (getBr t br).disc ≠ .enumerating then t
      else modBr t br fun x => if atB then { x with enumB := some n } else { x with enumA := some n }

/-- R103, R113: an ENUM end reply. -/
def execEnumEndReply (br : Br) (atB : Bool) (run : SlabRun) (s : State) : Host.Outcome State Fault Refusal :=
  onCore s fun s => onRun s (2 * br + b2n atB) (fun _ => 10) run .link fun t l =>
    match enumHeard l true with
    | none => t
    | some n =>
      if (getBr t br).disc ≠ .enumerating then t
      else modBr t br fun x => if atB then { x with replyB := some n } else { x with replyA := some n }

/-- R417: discovery starts on every present branch that has not been discovered. -/
def execDiscoveryStart (s : State) : Host.Outcome State Fault Refusal :=
  onCore s fun s =>
    if s.boot.ready ∧ s.frame.running then
      (presentBrs s).foldl (fun t b => if (getBr t b).disc = .idle then startDisc t b else t) s
    else s

/-- R113: every node of the branch has reported time lock. -/
def execDiscoveryComplete (br : Br) (s : State) : Host.Outcome State Fault Refusal :=
  onCore s fun s => discCheck s br

/-- R119: WL_DISC_CTL.start. -/
def execWlDiscCtlStart (mask : BitVec 12) (s : State) : Host.Outcome State Fault Refusal :=
  onCore s fun s => barWo s fun s => (below 12 (bitAt mask.toNat)).foldl startDisc s

end Sys2Proof.Machine
end

