-- ==== Sys2Proof/Machine/Edges.lean ====
section
/-!
DEFINITION. The edge list as bytes (R97, R98) and the dither rule of an edge (R116).
-/
namespace Sys2Proof.Machine

/-- An edge word (Table 04-4). -/
def edgeB (e : Edge) : List Byte := leB 4 (e.offset % 2 ^ 17 + e.frac % 16 * 2 ^ 17 + e.sw % 16 * 2 ^ 21 + b2n e.on * 2 ^ 25)

/-- Header bytes 0–11 (Table 04-3). -/
def listHead (l : EdgeList) : List Byte :=
  leB 1 (l.dest % 64 + 64 * (l.byp % 4)) ++ leB 1 (l.edges.length % 32 + 32 * b2n l.stale + 64 * b2n l.holder) ++
  leB 2 l.kLo.toNat ++ leB 3 (l.path % 2 ^ 20) ++ leB 2 l.tailStart ++ leB 2 l.headStart ++ zeroB 1

/-- An edge list as sent (R97). -/
def listB (l : EdgeList) : List Byte :=
  let h := listHead l
  let e := l.edges.flatMap edgeB
  h ++ leB 4 (crc32 (h ++ e)).toNat ++ e

/-- Edge word w. -/
def edgeOf (w : Nat) : Edge := ⟨bitsAt w 0 17, bitsAt w 17 4, bitsAt w 21 4, bitAt w 25⟩

/-- Edge i of a received list, with its word. -/
def edgeWord (l : List Byte) (i : Nat) : Nat := fieldAt l (16 + 4 * i) 4

/-- A received list's fields. -/
def listOf (l : List Byte) : EdgeList :=
  let n := byteAt l 1 % 32
  { dest := byteAt l 0 % 64
    byp := byteAt l 0 / 64
    stale := bitAt (byteAt l 1) 5
    holder := bitAt (byteAt l 1) 6
    kLo := BitVec.ofNat 16 (fieldAt l 2 2)
    path := fieldAt l 4 3 % 2 ^ 20
    tailStart := fieldAt l 7 2
    headStart := fieldAt l 9 2
    edges := (List.range n).map fun i => edgeOf (edgeWord l i) }

/-- The form of a received list (R98): length, CRC, reserved bits, switch numbers, offsets within N ticks in order, no switch twice at
one offset. -/
def listFormOk (l : List Byte) (n : Nat) : Bool :=
  let m := byteAt l 1 % 32
  let es := (List.range m).map fun i => edgeOf (edgeWord l i)
  let pairs := es.zip (es.drop 1)
  decide (m ≤ 16) && l.length == 16 + 4 * m && byteAt l 0 / 64 != 3 && !bitAt (byteAt l 1) 7 &&
  fieldAt l 4 3 < 2 ^ 20 && byteAt l 11 == 0 && (crc32 (l.take 12 ++ l.drop 16)).toNat == fieldAt l 12 4 &&
  ((List.range m).all fun i => edgeWord l i < 2 ^ 26) && (es.all fun e => decide (e.sw ≤ 11) && decide (e.offset < n)) &&
  (pairs.all fun (a, b) => decide (a.offset ≤ b.offset)) &&
  (List.range m).all fun i => (List.range m).all fun j =>
    decide (j ≤ i) || (match es[i]?, es[j]? with
      | some a, some b => !(a.sw == b.sw && a.offset == b.offset)
      | _, _ => true)

/-- The low four bits reversed. -/
def bitrev4 (m : Nat) : Nat := b2n (bitAt m 3) + 2 * b2n (bitAt m 2) + 4 * b2n (bitAt m 1) + 8 * b2n (bitAt m 0)

/-- R116: an edge with fraction f and counter m fires a tick late; not the edge at offset N − 1. -/
def ditherLate (n offset frac m : Nat) : Bool := decide (offset + 1 ≠ n) && decide (bitrev4 m < frac)

end Sys2Proof.Machine
end

