-- ==== Sys2Proof/Machine/Node.lean ====
section
/-!
DEFINITION. The cell node under the contract of chapter 04 (R92 to R117) and its trip channels (R165). Node rows do not depend on the
TB576's clock.
-/
namespace Sys2Proof.Machine

/-! ### LINK messages -/

/-- A message's or frame's address byte names this node by hop count from the arrival port. -/
def hopForMe (x : Node) (portB : Bool) (a : Nat) : Bool :=
  bitAt a 6 && (if portB then x.hopsB else x.hopsA) == some (a % 64)

/-- The address byte is broadcast or this node's position. -/
def posForMe (x : Node) (a : Nat) : Bool := bitAt a 7 || (!bitAt a 6 && !transparent x && a % 64 == x.pos)

/-- A LINK message at a node: forwarded unless it is hop-addressed to this node, and taken where it is for it (R94). One whose CRC-16
fails is dropped (DESIGN CHOICE, log entry 98). -/
def onLink (s : State) (c : Nat) (portB : Bool) (l : List Byte) (op : Nat) (f : Node → Node) : State :=
  let x := getNode s c
  if !linkOk l op then s
  else
    let a := byteAt l 1
    let s1 := if hopForMe x portB a && !bitAt a 7 then s else fwdAcross s c portB l
    if hopForMe x portB a || posForMe x a then modNode s1 c f else s1

/-- A 16-bit frame number is newer than another. -/
def k16 (l : List Byte) (o : Nat) : Nat := fieldAt l o 2

/-! ### State changes -/

/-- All gates off. -/
def gatesOff (x : Node) : Node := { x with gates := 0, offTick := [] }

/-- Starts closing the bypass: every switch is gated off first (R116). -/
def startClose (x : Node) : Node := { gatesOff x with byClosing := !x.byClosed }

/-- To SAFE with gates off. -/
def toSafe (x : Node) : Node := { gatesOff x with mode := .safe, armAt := none }

/-- Third consecutive window without a valid list in RUN (Table 04-12). -/
def missCheck (x : Node) : Node := if x.mode = .run ∧ 3 ≤ x.miss then toSafe x else x

/-- R110: time lock gained after 16 good D-MARKs. -/
def lockCheck (x : Node) : Node := if !x.locked ∧ 16 ≤ x.good then { x with locked := true } else x

/-- R110: time lock lost; in RUN the node enters SAFE. -/
def unlockCheck (x : Node) : Node :=
  if x.locked ∧ (4 ≤ x.bad ∨ 1024 ≤ x.noMark) then
    let y := { x with locked := false, good := 0 }
    if x.mode = .run then toSafe y else y
  else x

/-- Serving port and segment end of position p under a split (R93). -/
def serveOf (p v : Nat) : Bool × Bool := (decide (v ≤ p), p + 1 == v || p == v)

/-- Length in ticks of window k of the node, with the changes announced for it (R460). -/
def windowTicks (x : Node) (k : Nat) : Nat :=
  match x.announce.find? fun (ke, kind, _, _) => ke == k % 65536 && kind == 2 with
  | some (_, _, _, n) => n
  | none =>
    match x.announce.find? fun (ke, kind, _, _) => ke == k % 65536 && kind == 0 with
    | some (_, _, code, _) => frameTicks code
    | none => frameTicks x.len.val

/-- Announced frame length and coding take effect at this boundary (R460); both ports train anew in a new coding. -/
def announceApply (x : Node) : Node :=
  let y := x.announce.foldl (fun y (ke, kind, code, _) =>
    if ke ≠ y.k % 65536 then y
    else if kind = 0 then { y with len := ⟨code % 4, Nat.mod_lt _ (by decide)⟩ }
    else if kind = 1 then { y with coding := code == 1, portUp := 0, portSig := 0 } else y) { x with ticks := windowTicks x x.k }
  { y with announce := y.announce.filter fun (ke, _, _, _) => ke ≠ y.k % 65536 }

/-- A split takes effect; the node whose serving port changes ignores D-MARKs until a list brings it a path (R109). -/
def splitApply (x : Node) : Node :=
  match x.splitNext with
  | some (v, ke) =>
    if ke = x.k % 65536 then
      let sv := serveOf x.pos v
      let changed := match x.serve with | some (p, _) => p != sv.1 | none => false
      { x with
        serve := some sv
        splitOn := true
        splitNext := none
        ignoreMarks := x.ignoreMarks || changed
        path := if changed then none else x.path }
    else x
  | none => x

/-- RUN starts at F(k_eff) (Table 04-12). -/
def armApply (x : Node) : Node :=
  if x.armAt = some (x.k % 65536) then
    if x.mode = .parked ∨ x.mode = .safe then { x with mode := .run, armAt := none, mOn := [], mOff := [], miss := 0 }
    else { x with armAt := none }
  else x

/-- The list of the window that ends governs the next one; without one the last valid list stays and the miss counts (R115).
The last window that head byte 1 bit 4 names is the window in which the head leaves, so `staleRun` is that of the list that governs it
(DESIGN CHOICE, log entry 145). -/
def listApply (x : Node) : Node :=
  match x.rxList with
  | some (l, t) => { x with
      prevList := match x.curList with | some (p, _) => some p | none => some l
      curList := some (l, t)
      rxList := none
      staleRun := l.stale
      miss := 0 }
  | none => { x with
      curList := x.curList.map fun (l, _) => (l, 80000)
      prevList := x.curList.map (·.1)
      staleRun := false
      miss := if x.mode = .run then min 3 (x.miss + 1) else x.miss }

/-- The bypass command of the list that now governs (R116). -/
def bypApply (x : Node) (byp : Nat) : Node :=
  if byp = 1 ∧ !x.byClosed then startClose x
  else if byp = 2 ∧ x.mode = .parked then { x with byClosed := false, byClosing := false }
  else x

/-- Trip channel r of the node: bytes of its trip block (Table 06-6). -/
def tripByte (x : Node) (r i : Nat) : Nat := (tget 0 x.mem (0x100 + 8 * r + i)).toNat
def tripWin (x : Node) (r : Nat) : Nat := max 1 (tripByte x r 4 + 256 * tripByte x r 5)
def getTrip (x : Node) (r : Nat) : NodeTrip := tget NodeTrip.zero x.trips r
def modTrip (x : Node) (r : Nat) (f : NodeTrip → NodeTrip) : Node := { x with trips := tmod NodeTrip.zero x.trips r f }

/-- Trip windows that start at this boundary (R163, R165). -/
def tripWindows (x : Node) : Node :=
  (List.range 3).foldl (fun y r => if y.k % tripWin y r = 0 then modTrip y r fun t => { t with count := 0 } else y) x

/-- The node's own frame boundary (R115, R116, R460): what its sensors and gate drivers show is sampled. -/
def nodeBoundary (x : Node) (found : NodeSample) (valid : Half) : Node :=
  let byp := match x.rxList with | some (l, _) => l.byp | none => 0
  let shift := x.offTick.map fun (i, t) => (i, t - (x.ticks : Int))
  let y := announceApply (listApply { x with k := (x.k + 1) % 2 ^ 48, fired := [], offTick := shift, noMark := x.noMark + 1 })
  let y1 := tripWindows (unlockCheck (missCheck (armApply (splitApply (bypApply y byp)))))
  let tsts := valid.toNat % 1024 + 1024 * b2n (portIsUp y1 false) + 2048 * b2n (portIsUp y1 true)
  { y1 with
    gdFault := found.fault
    gdUv := found.uv
    samples := (List.range 20).map fun i =>
      if 8 ≤ i ∧ !x.gates.getLsbD (i - 8) then 0x8000 else found.values.getD i 0
    tsts := BitVec.ofNat 16 tsts }

/-! ### Edges (R48, R115, R116) -/

/-- The edges of this window, in order: the previous list's up to 200 ns after the present list's arrival, the present list's after it. -/
def schedule (x : Node) : List Edge :=
  match x.curList with
  | none => []
  | some (l, left) =>
    let old := match x.prevList with | some p => p.edges | none => []
    (old.filter fun e => decide (left + e.offset ≤ 800)) ++ l.edges.filter fun e => decide (800 < left + e.offset)

/-- The bridge of a switch. -/
def bridgeOf (sw : Nat) : Nat := sw / 4

/-- A turn-on of a switch is held off by its bridge's trip channel. -/
def tripHolds (x : Node) (sw : Nat) : Bool := (getTrip x (bridgeOf sw)).active || (getTrip x (bridgeOf sw)).latched

/-- Switches of bridge r whose turn-on stands pending in dead time: both switches of the leg are off, and its partner turned off last. -/
def pendingOn (x : Node) (r : Nat) : List Nat :=
  let off := fun i => tget none (x.offTick.map fun (j, u) => (j, some u)) i
  [4 * r, 4 * r + 2].filterMap fun a =>
    if x.gates.getLsbD a || x.gates.getLsbD (a + 1) then none
    else match off a, off (a + 1) with
      | some u, some v => some (if u ≤ v then a else a + 1)
      | some _, none => some (a + 1)
      | none, some _ => some a
      | none, none => none

/-- Longest time from a turn-off to the pending turn-on of its partner, in ticks: the largest dead time of R156 with its guard tick and
dither. -/
def deadSpan : Int := 8191 + 2

/-- One edge fires at a tick of the window with the measured delay. -/
def fireEdge (x : Node) (e : Edge) (delay : Half) : Node :=
  let isOn := x.gates.getLsbD e.sw
  let bit : BitVec 12 := BitVec.ofNat 12 (2 ^ e.sw)
  if e.on == isOn || x.byClosing then x
  else
    let m := tget 0 (if e.on then x.mOn else x.mOff) e.sw
    let late := ditherLate x.ticks e.offset e.frac m
    let t : Int := e.offset + b2n late
    let m' := if e.offset + 1 = x.ticks then m else (m + 1) % 16
    let y := if e.on then { x with mOn := tset 0 x.mOn e.sw m' } else { x with mOff := tset 0 x.mOff e.sw m' }
    if e.on then
      let partner := if e.sw % 2 = 0 then e.sw + 1 else e.sw - 1
      let since := (tget none (y.offTick.map fun (i, u) => (i, some u)) partner).map fun u => t - u
      let offFor := match since with | some d => decide (80 ≤ d) | none => true
      let cancelled := (getTrip y (bridgeOf e.sw)).cancel.contains e.sw &&
        (match since with | some d => decide (d ≤ deadSpan) | none => false)
      let y := modTrip y (bridgeOf e.sw) fun r => { r with cancel := r.cancel.filter (· ≠ e.sw) }
      if cancelled || tripHolds y e.sw then y
      else if y.gates.getLsbD partner || !offFor then { y with ilock := y.ilock ||| bit }
      else modTrip { y with gates := y.gates ||| bit, tOn := tput y.tOn e.sw delay } (bridgeOf e.sw)
        fun r => { r with blocked := false }
    else { y with gates := y.gates &&& ~~~bit, offTick := tput y.offTick e.sw t, tOff := tput y.tOff e.sw delay }

/-- A trip gates the bridge of channel r off and holds it off; turn-ons pending in dead time are cancelled. A channel that is not enabled is
ignored (R165, R161). -/
def tripNode (x : Node) (r : Nat) : Node :=
  if !bitAt (tripByte x r 3) 0 then x
  else
    let keep : BitVec 12 := ~~~(BitVec.ofNat 12 (15 * 2 ^ (4 * r)))
    let n := max 1 (tripByte x r 2)
    let y := { x with gates := x.gates &&& keep, tripSince := x.tripSince ||| BitVec.ofNat 3 (2 ^ r) }
    modTrip y r fun t => { t with
      active := true
      blocked := true
      cancel := pendingOn x r
      count := min 255 (t.count + 1)
      latched := t.latched || decide (n ≤ t.count + 1) }

/-! ### Uplink slots -/

/-- State code of head byte 1. -/
def nodeCode (m : NodeMode) : Nat := match m with | .init => 0 | .unaddr => 1 | .parked => 2 | .run => 3 | .safe => 4

/-- The head of the node (Table 04-5), for message frame k + 1. -/
def nodeHead (x : Node) (portB : Bool) (resp : Nat) : List Byte :=
  let bit := fun (v : BitVec 12) i => b2n (v.getLsbD i)
  let latched := (List.range 3).foldl (fun n r => n + b2n (getTrip x r).latched * 2 ^ r) 0
  leB 1 (x.pos % 64 + 64 * b2n portB) ++
  leB 1 (nodeCode x.mode + 8 * b2n x.locked + 16 * b2n x.staleRun + 32 * (x.miss % 4) + 128 * b2n x.byClosed) ++
  leB 2 (x.k + 1) ++ leB 4 (ux 32 x.markRx) ++ leB 4 (ux 32 x.corrDn) ++ leB 4 resp ++
  ((List.range 12).flatMap fun i => leB 2 (tget (0xFFFF : Half) x.tOn i).toNat) ++
  ((List.range 12).flatMap fun i => leB 2 (tget (0xFFFF : Half) x.tOff i).toNat) ++
  ((List.range 12).flatMap fun i =>
    leB 1 (bit x.gdFault i + 2 * bit x.gdUv i + 4 * bit x.ilock i + 8 * bit x.gates i)) ++
  leB 1 (x.portUp.toNat + 4 * x.portSig.toNat) ++ leB 1 (x.tripSince.toNat + 8 * latched) ++ leB 2 x.fwdDrop

/-- The node may use its slots: it has a serving port and a path from a list received since that port was set (R112). -/
def slotPort (x : Node) : Option Bool :=
  match x.serve, x.curList with
  | some (p, _), some _ => if transparent x || x.ignoreMarks || x.path.isNone then none else some p
  | _, _ => none

/-! ### Node memory (Table 04-9) -/

/-- A byte of the identity block or factory record: bytes 24 to 63 and bits [7:4] of byte 17 of the identity are 0 (Table 04-10). -/
def makerByte (c a : Nat) : Byte :=
  if 24 ≤ a ∧ a < 64 then 0 else BitVec.ofNat 8 (if a = 17 then Config.nodeByte c a % 16 else Config.nodeByte c a)

/-- A byte of an eye map of a node that was measured as v: where the header is fixed it is so (Table 03-6): coding 0 or 1, nanoseconds in
30 bits, bytes 36 to 63 zero. -/
def eyeByte (a : Nat) (v : Byte) : Byte :=
  let o := (a - 0x20000) % 16448
  if o = 18 ∨ o = 19 ∨ o = 30 ∨ o = 31 ∨ (36 ≤ o ∧ o < 64) then 0
  else if o = 2 then v &&& 1
  else if o = 17 ∨ o = 29 then v &&& 0x3F
  else v

/-- The bytes a READ of a node returns; none where it answers ERROR. Eye maps are measured data, the trip block is held. -/
def nodeRead (s : State) (c a n : Nat) : Option (List Byte) × State :=
  let x := getNode s c
  let inside := fun lo hi => decide (lo ≤ a) && decide (a + n ≤ hi)
  if n = 0 ∨ 64 < n then (none, s)
  else if inside 0 0x40 || inside 0x1000 0x2000 then
    (some ((List.range n).map fun i => makerByte c (a + i)), s)
  else if inside 0x100 0x120 then (some ((List.range n).map fun i => tget 0 x.mem (a + i)), s)
  else if inside 0x20000 0x28080 then
    let (v, t) := draw s
    (some ((leB n v).mapIdx fun i b => eyeByte (a + i) b), t)
  else (none, s)

/-- A WRITE into the trip block; answers the error code, 0 for none. A clear request is refused while the input is active (R165); the input
of a channel that is not enabled is ignored (R161). -/
def nodeWrite (x : Node) (a : Nat) (data : List Byte) : Node × Nat :=
  if !(decide (0x100 ≤ a) && decide (a + data.length ≤ 0x120)) ∨ data.isEmpty then (x, 1)
  else
    let asks := (List.range 3).filter fun r =>
      decide (a ≤ 0x103 + 8 * r) && decide (0x103 + 8 * r < a + data.length) && bitAt (byteAt data (0x103 + 8 * r - a)) 1
    if asks.any fun r => (getTrip x r).active then (x, 2)
    else
      let keep := fun i (b : Byte) => if 0x118 ≤ a + i ∨ 6 ≤ (a + i) % 8 then 0 else if (a + i) % 8 = 3 then b &&& 1 else b
      let y := (List.range data.length).foldl (fun y i =>
        { y with mem := tset 0 y.mem (a + i) (keep i (data.getD i 0)) }) x
      let z := asks.foldl (fun y r => modTrip y r fun t => { t with latched := false }) y
      ((List.range 3).foldl (fun z r => if bitAt (tripByte z r 3) 0 then z else modTrip z r fun t => { t with active := false }) z, 0)

/-- A bulk request at a node: answered where it is addressed, forwarded otherwise (R94, R105, R106). -/
def onBulk (s : State) (c : Nat) (portB : Bool) (l : List Byte) (write : Bool) : State :=
  let x := getNode s c
  let a := byteAt l 0
  let n := byteAt l 7
  let mine := hopForMe x portB a || (!bitAt a 6 && !transparent x && a % 64 == x.pos)
  let ok := if write then bulkOk l 2 n else bulkOk l 1 0
  if !mine then fwdDown s c portB .bulk l
  else if !ok || x.mode == .init then s
  else
    let tag := BitVec.ofNat 16 (fieldAt l 2 2)
    let addr := fieldAt l 4 3
    let answer := fun (t : State) op m (d : List Byte) => sendOwn t c portB [(.bulk, bulkB (a % 128) op tag addr m d)]
    if write then
      let (y, e) := nodeWrite x addr ((l.drop 8).take n)
      if e = 0 then answer (modNode s c fun _ => y) 0x82 n [] else answer s 0xC0 1 (leB 1 e)
    else
      let (r, t) := nodeRead s c addr n
      match r with
      | some d => answer t 0x81 n d
      | none => answer t 0xC0 1 (leB 1 1)

/-! ### Meanings -/

/-- Table 04-12: power-up or reset into INIT; the bypass stays as it stands. The node's frame count is not fixed by the spec: a free
value. -/
def execNodePowerUp (cell : Cell) (s : State) : Host.Outcome State Fault Refusal :=
  onNode s fun s =>
    let (v, t) := drawBelow s (2 ^ 48)
    modNode t cell fun x => { Node.zero with present := true, byClosed := x.byClosed, k := v }

/-- Table 04-12: a port comes UP. -/
def execNodePortUp (cell : Cell) (portB : Bool) (s : State) : Host.Outcome State Fault Refusal :=
  onNode s fun s =>
    modNode s cell fun x => nodePortUp x portB

/-- R115, R460: the node's own F(k). What waited in its serving port has left (log entry 102). -/
def execNodeFrameBoundary (cell : Cell) (sample : NodeSample) (valid : Half) (s : State) : Host.Outcome State Fault Refusal :=
  onNode s fun s => modNode (portFlush s cell) cell fun x => nodeBoundary x sample valid

/-- Table 04-12: the third consecutive window without a valid list. -/
def execNodeListMiss (cell : Cell) (s : State) : Host.Outcome State Fault Refusal :=
  onNode s fun s => modNode s cell missCheck

/-- R98: an edge list arrives `tick` ticks after the node's F(k). A node that has had no frame count since power-up takes bits [15:0] of it
from the first list (DEDUCED, log entry 105). -/
def execEdgeList (cell : Cell) (portB : Bool) (tick : Nat) (bytes : List Byte) (s : State) : Host.Outcome State Fault Refusal :=
  onNode s fun s =>
    let c := cell.val
    let x := getNode s c
    if transparent x || byteAt bytes 0 % 64 != x.pos then fwdDown s c portB .first bytes
    else
      let l := listOf bytes
      let kOk := !x.counted || l.kLo.toNat == x.k % 65536
      let holderOk := match x.token with | some (h, _) => h == l.holder | none => false
      let portOk := match x.serve with | some (p, _) => p == portB | none => false
      if kOk && holderOk && portOk && decide (tick < x.ticks) && x.rxList.isNone &&
          listFormOk bytes (windowTicks x (x.k + 1)) then
        modNode s c fun y => { y with
          rxList := some (l, y.ticks - tick)
          path := some l.path
          ignoreMarks := false
          counted := true
          k := if y.counted then y.k else y.k - y.k % 65536 + l.kLo.toNat }
      else s

/-- R115, R116: edge `index` of the window fires; `delay` is its measured delay. -/
def execEdgeFire (cell : Cell) (index : Nat) (delay : Half) (s : State) : Host.Outcome State Fault Refusal :=
  onNode s fun s =>
    let x := getNode s cell
    match (schedule x)[index]? with
    | some e =>
      if x.mode = .run ∧ !x.fired.contains index then
        modNode s cell fun x => { fireEdge x e delay with fired := index :: x.fired }
      else s
    | none => s

/-- R75, R101, Table 04-12: PARK. -/
def execPark (cell : Cell) (portB : Bool) (bytes : List Byte) (s : State) : Host.Outcome State Fault Refusal :=
  onNode s fun s =>
    let c := cell.val
    let x := getNode s c
    let t := byteAt bytes 0 % 64
    let ok := shortOk x.coding bytes && (!x.coding || ((decide (t ≤ 47) || t == 0x3F) && fieldAt bytes 4 2 == 0))
    if !ok then s
    else
      let s1 := fwdPark s c portB bytes
      if transparent x || !(t == 0x3F || t == x.pos) then s1
      else modNode s1 c fun y =>
        let z := { gatesOff y with mode := .parked, armAt := none }
        if t = y.pos ∧ bitAt (byteAt bytes 0) 6 then startClose z else z

/-- R109, R110: a D-MARK, with its arrival in node time (1/64 ns from F(k)). A forwarding node adds its residence, which is its own: a
free value. A node that is not time-locked takes the frame length from the marks it tracks (DEDUCED, log entry 89). A mark of
another holder is forwarded and not followed (DESIGN CHOICE, log entry 97). -/
def execDMark (cell : Cell) (portB : Bool) (markRx : Int) (bytes : List Byte) (s : State) : Host.Outcome State Fault Refusal :=
  onNode s fun s =>
    let c := cell.val
    let x := getNode s c
    let corr := sx 32 (fieldAt bytes 2 4)
    let holderOk := match x.token with | some (h, _) => h == bitAt (byteAt bytes 0) 4 | none => true
    if !shortOk x.coding bytes ∨ byteAt bytes 0 % 16 ≠ 1 then s
    else
      let (r, s0) := draw s
      let s1 := fwdDown s0 c portB .mark (markPlus x.coding bytes r)
      let servesMe := match x.serve with | some (p, _) => p == portB | none => false
      if transparent x || !servesMe || !holderOk then s1
      else modNode s1 c fun y =>
        let z := { y with markRx := markRx, corrDn := corr, noMark := 0, len := if y.locked then y.len else s.frame.len }
        match y.path with
        | none => z
        | some p =>
          if y.ignoreMarks then z
          else
            let e := markRx - corr - p
            unlockCheck (lockCheck { z with
              err := if y.mode = .run then e - clampI (-8) 8 e else 0
              good := if absI e ≤ 64 then min 16 (z.good + 1) else 0
              bad := if 128 < absI e then min 4 (z.bad + 1) else 0 })

/-- R110: 16 consecutive D-MARKs within 1 ns. -/
def execNodeTimeLockAcquired (cell : Cell) (s : State) : Host.Outcome State Fault Refusal :=
  onNode s fun s => modNode s cell lockCheck

/-- R110: time lock is lost. -/
def execNodeTimeLockLost (cell : Cell) (s : State) : Host.Outcome State Fault Refusal :=
  onNode s fun s => modNode s cell unlockCheck

/-- Table 04-12: the node's own DC link stands above its hard limit (identity bytes 20–21). -/
def execNodeDcOverLimit (cell : Cell) (volts : Nat) (s : State) : Host.Outcome State Fault Refusal :=
  onNode s fun s => modNode s cell fun x =>
    let lim := Config.nodeByte cell 20 % 256 + 256 * (Config.nodeByte cell 21 % 256)
    if x.mode ≠ .init ∧ lim < volts then startClose (toSafe x) else x

/-- R107: at head_start the node sends its U-MARK and its head, 7 slabs or 11 blocks, behind a forwarded part in progress (R95). -/
def execNodeHeadSlot (cell : Cell) (respTime : Nat) (s : State) : Host.Outcome State Fault Refusal :=
  onNode s fun s =>
    let c := cell.val
    let x := getNode s c
    match slotPort x with
    | none => s
    | some p =>
      let h := match x.token with | some (b, _) => b2n b | none => 0
      let hd := nodeHead x p respTime
      let m := markB x.coding (leB 1 (2 + 16 * h) ++ leB 1 x.pos ++ leB 4 0)
      modNode (sendOwn s c p [(.mark, m), (.first, hd)]) c fun y => { y with
        headSent := some hd
        tOn := []
        tOff := []
        ilock := 0
        tripSince := 0 }

/-- R40, R42: at tail_start the node sends its tail, 4 slabs or 6 blocks, behind a forwarded part in progress (R95). -/
def execNodeTailSlot (cell : Cell) (s : State) : Host.Outcome State Fault Refusal :=
  onNode s fun s =>
    let c := cell.val
    let x := getNode s c
    match slotPort x, x.headSent with
    | some p, some hd =>
      let l := leB 2 x.k ++ ((List.range 20).flatMap fun i => leB 2 (x.samples.getD i 0).toNat) ++ leB 2 x.tsts.toNat
      sendOwn (modNode s c fun y => { y with headSent := none }) c p [(.first, l ++ leB 4 (crc32 (hd ++ l)).toNat)]
    | _, _ => s

/-- R116: gate-driver feedback confirms M0 to M3 off. -/
def execBypassCloseConfirm (cell : Cell) (s : State) : Host.Outcome State Fault Refusal :=
  onNode s fun s => modNode s cell fun x =>
    if x.byClosing ∧ x.gates.toNat % 16 = 0 then { x with byClosed := true, byClosing := false } else x

/-- R116: no confirmation within 10 µs: the close is refused. -/
def execBypassCloseTimeout (cell : Cell) (s : State) : Host.Outcome State Fault Refusal :=
  onNode s fun s => modNode s cell fun x => { x with byClosing := false }

/-- R165: a filtered assertion on a trip channel. -/
def execCellSideTrip (cell : Cell) (chan : Fin 3) (s : State) : Host.Outcome State Fault Refusal :=
  onNode s fun s => modNode s cell fun x => tripNode x chan

/-- R165: the trip input goes inactive. -/
def execCellSideTripRelease (cell : Cell) (chan : Fin 3) (s : State) : Host.Outcome State Fault Refusal :=
  onNode s fun s => modNode s cell fun x => modTrip x chan fun t => { t with active := false }

/-- R103: ENUM. -/
def execEnum (cell : Cell) (portB : Bool) (bytes : List Byte) (s : State) : Host.Outcome State Fault Refusal :=
  onNode s fun s =>
    let c := cell.val
    if !linkOk bytes 1 then s
    else if bitAt (byteAt bytes 3) 0 then fwdUp s c portB .link bytes
    else
      let h := byteAt bytes 2 + 1
      let s1 := modNode s c fun x => if portB then { x with hopsB := some h } else { x with hopsA := some h }
      if portIsUp (getNode s1 c) (!portB) then forward s1 c (!portB) .link (linkB 1 0x80 (leB 1 h))
      else sendOwn s1 c portB [(.link, linkB 1 0x80 (leB 1 h ++ leB 1 1))]

/-- R102, Table 04-12: SETPOS; refused in RUN. Until a SPLIT is in force the end that sent it serves the node (R113 step 5). -/
def execSetpos (cell : Cell) (portB : Bool) (bytes : List Byte) (s : State) : Host.Outcome State Fault Refusal :=
  onNode s fun s => onLink s cell portB bytes 2 fun x =>
    if !hopForMe x portB (byteAt bytes 1) ∨ x.mode = .run ∨ x.mode = .init then x
    else { gatesOff x with
      mode := .parked
      pos := byteAt bytes 2
      nb := byteAt bytes 3
      miss := 0
      armAt := none
      serve := some (portB, false)
      splitOn := false
      splitNext := none
      path := none }

/-- R102: SPLIT, in force from F(k_eff). -/
def execSplit (cell : Cell) (portB : Bool) (bytes : List Byte) (s : State) : Host.Outcome State Fault Refusal :=
  onNode s fun s => onLink s cell portB bytes 3 fun x =>
    if transparent x then x else { x with splitNext := some (byteAt bytes 2, k16 bytes 3) }

/-- R104: ROLE. -/
def execRole (cell : Cell) (portB : Bool) (bytes : List Byte) (s : State) : Host.Outcome State Fault Refusal :=
  onNode s fun s => onLink s cell portB bytes 4 fun x =>
    let e := k16 bytes 3
    let newer := match x.token with
      | some (_, old) => let d := (e + 65536 - old) % 65536; decide (1 ≤ d) && decide (d ≤ 32767)
      | none => true
    if newer then { x with token := some (bitAt (byteAt bytes 2) 0, e) } else x

/-- Table 04-12: ARM; without its conditions the node stays, which head byte 1 reports. -/
def execArm (cell : Cell) (portB : Bool) (bytes : List Byte) (s : State) : Host.Outcome State Fault Refusal :=
  onNode s fun s => onLink s cell portB bytes 5 fun x =>
    if (x.mode = .parked ∨ x.mode = .safe) ∧ x.locked ∧ x.token.isSome ∧ x.splitOn then
      { x with armAt := some (k16 bytes 2) }
    else x

/-- R102: ANNOUNCE, held until its boundary. -/
def execAnnounce (cell : Cell) (portB : Bool) (bytes : List Byte) (s : State) : Host.Outcome State Fault Refusal :=
  onNode s fun s => onLink s cell portB bytes 6 fun x =>
    let a := (k16 bytes 4, byteAt bytes 2, byteAt bytes 3, fieldAt bytes 6 4)
    if x.announce.contains a ∨ 2 < byteAt bytes 2 then x else { x with announce := x.announce ++ [a] }

/-- R102: SETTIME; refused in RUN. -/
def execSettime (cell : Cell) (portB : Bool) (bytes : List Byte) (s : State) : Host.Outcome State Fault Refusal :=
  onNode s fun s => onLink s cell portB bytes 8 fun x =>
    if x.mode = .run then x else { x with err := x.err + 64 * sx 32 (fieldAt bytes 2 4) }

/-- R105, R106: a bulk READ at a node. -/
def execBulkRead (cell : Cell) (portB : Bool) (bytes : List Byte) (s : State) : Host.Outcome State Fault Refusal :=
  onNode s fun s => onBulk s cell portB bytes false

/-- R105, R106: a bulk WRITE at a node. -/
def execBulkWrite (cell : Cell) (portB : Bool) (bytes : List Byte) (s : State) : Host.Outcome State Fault Refusal :=
  onNode s fun s => onBulk s cell portB bytes true

end Sys2Proof.Machine
end

