-- ==== Sys2Proof/Machine/Harp.lean ====
section
/-!
DEFINITION. The Harp's edge lists (chapter 06): carriers, MV legs, DAB periods, dead time, the edge budget (R144 to R157), the slots of
R41 and R42, list sends and stale resends (R44, R51, R52), and profile checks (R153).
-/
namespace Sys2Proof.Machine

/-! ### Profiles (R153) -/

/-- Profile register index of branch b's profile in force (R23, R144). -/
def profIdx (s : State) (b : Nat) : Nat := 8 * b + tget 0 s.harp.profile b

/-- Register index of the profile that branch b is to have at the next boundary: PT_BR_PROF_REQ as it stands, where Level 2 can select
it (R23, R153). A list governs the window that begins there. -/
def nextIdx (s : State) (b : Nat) : Nat :=
  let req := (seePt s (brPa b 128)).val.toNat
  if 7 < req ∨ s.harp.invalid.contains (8 * b + req) then profIdx s b else 8 * b + req

/-- Largest n whose frequency is not below 20 kHz (R149, R152). -/
def dabMax (s : State) : Nat := 400000 / tF s

/-- Profile i as a reader of fields gives it fails R153 at frame length `n` ticks. -/
def profFails (get : Fld → Nat → Nat) (n i : Nat) : Bool :=
  let tc := get .harpProfMv_tc i; let mv := get .harpProfMv_mv_mode i
  let dn := get .harpProfDab_dab_n i
  let words := (if mv = 0 then 4 else 0) + 8 * cdiv 4 (max 1 dn)
  decide (mv = 3) || decide (tc < 800000) || decide (8000000 < tc) || decide (dn < 2) || decide (10 < dn) ||
  get .harpProfDab_law i == 3 || decide (16 < words) || decide (dn * n < 80000) ||
  decide (400000 < (dn + get .harpProfDab_fo_max i) * n)

/-- The profiles of the present branches. -/
def profiles (s : State) : List Nat := (presentBrs s).flatMap fun b => (List.range 8).map (8 * b + ·)

/-- Commit of block 5 (R153): refused profiles keep their values and their shadow, the rest is accepted. -/
def commitHarp (s : State) : State × Option Nat :=
  let bad := (profiles s).filter (profFails (sfld s) (tF s))
  let s1 := bad.foldl (fun t i => setFld (setFld t .harpProfSts_refused 0 1) .harpProfSts_prof 0 i) s
  (stageBlock s1 5 fun r i => !((r == .harpProfMv || r == .harpProfDab) && bad.contains i), none)

/-- The accepted Harp settings take effect at the boundary; a marked profile that now fits is no longer invalid (R153); changed trip
blocks go to the nodes (R166). -/
def applyHarp (s : State) : State :=
  if !applyingBlock s 5 then s
  else
    let t0 := applyBlock s 5
    let t := { t0 with harp := { t0.harp with invalid := t0.harp.invalid.filter (profFails (fld t0) (tF t0)) } }
    let same := (List.range 3).all fun r => rword s .harpCtripCfg r == rword t .harpCtripCfg r
    if same then t else tripBlocksDue t (allCells t)

/-- After a change of frame length, profiles that no longer fit are marked (R153). -/
def harpLength (s : State) : State :=
  let bad := (profiles s).filter (profFails (fld s) (tF s))
  let s1 := { s with harp := { s.harp with invalid := bad } }
  match bad.getLast? with | some i => setFld s1 .harpProfSts_prof 0 i | none => s1

/-! ### Carriers (R145) -/

/-- tc of branch b's profile in force. -/
def profTc (s : State) (b : Nat) : Nat := fld s .harpProfMv_tc (profIdx s b)

/-- A carrier at the end of a frame of `ticks`: a valley that has passed begins a period of the tc in force. A valley that lies exactly at
the boundary waits for the changes of that boundary (`valleyAt`). -/
def carrierStep (tcNow ticks : Nat) (x : Carrier) : Carrier :=
  let v := x.valley - (ticks : Int)
  if x.running ∧ v + x.tc < 0 then { x with valley := v + x.tc, tcPrev := x.tc, tc := tcNow } else { x with valley := v }

/-- A valley exactly at this boundary begins a period of the tc that applies here. -/
def valleyAt (s : State) (b : Nat) : State :=
  let one := fun (x : Carrier) =>
    if x.running ∧ x.valley + x.tc = 0 then { x with valley := 0, tcPrev := x.tc, tc := profTc s b } else x
  if s.harp.halted then s
  else { s with harp := { s.harp with carriers := tmod Carrier.zero s.harp.carriers b one } }

/-- Periods of the cell carrier of slot s about the window W(k+1): valley and length in sixteenths from F(k+1). A valley from F(k+1) on
takes the tc that applies there. -/
def cellPeriods (s : State) (b slot nAct : Nat) : List (Int × Int) :=
  let x := tget Carrier.zero s.harp.carriers b
  let v0 : Int := x.valley - (s.frame.ticks : Int)
  let one := fun (v : Int) (tc : Nat) => (16 * v + (slot * 16 * tc / (2 * max 1 nAct) : Nat), (16 * tc : Int))
  [one (v0 - x.tcPrev) x.tcPrev, one v0 x.tc,
    one (v0 + x.tc) (if v0 + x.tc < 0 then profTc s b else nextFld s .harpProfMv_tc (nextIdx s b))]

/-- The reference r exceeds the carrier at time t (R146). -/
def above (ps : List (Int × Int)) (r t : Int) : Bool :=
  match (ps.filter fun (v, _) => decide (v ≤ t)).getLast?, ps with
  | some (v, tc), _ =>
    let x := t - v
    if 2 * x ≤ tc then decide (x * 131072 < (r + 32768) * tc)
    else decide ((32768 - r) * tc < (2 * x - tc) * 65536)
  | none, (v, tc) :: _ => decide ((t - v) * 131072 < (r + 32768) * tc)
  | none, [] => false

/-- Crossings of R146 in order: time and whether the top switch is then on. -/
def crossings (ps : List (Int × Int)) (r : Int) : List (Int × Bool) :=
  ps.flatMap fun (v, tc) =>
    [(v + asr ((r + 32768) * tc) 17, false), (v + tc / 2 + asr ((32768 - r) * tc) 17, true)]

/-! ### Edges of one window -/

/-- What the builder of a list works on: words (time in sixteenths, switch, on), commanded states, last turn-offs and last transitions. -/
structure Bld where
  words : List (Int × Nat × Bool)
  on : BitVec 12
  offAt : Tbl Int
  lastTr : Tbl Int
deriving DecidableEq, Repr

/-- Dead time of the leg partner after switch sw turns off, in ticks, in the window that the list governs (R156). -/
def deadTime (s : State) (c sw : Nat) : Nat :=
  let i := 3 * (c / 48) + sw / 4
  let lo := max 80 (nextFld s .harpDtCfg_dt_min i)
  min (lo + (getCtl s c).trims.getD sw 0) (max lo (nextFld s .harpDtCfg_dt_max i))

/-- One leg transition at time t to switch `dst` (R156): the partner turns off, the switch turns on after dead time. A turn-on of the
partner that is still to come, or falls in the same tick, is withdrawn. -/
def transit (s : State) (c : Nat) (x : Bld) (t : Int) (dst : Nat) : Bld :=
  let p := if dst % 2 = 0 then dst + 1 else dst - 1
  let bit := fun (i : Nat) => BitVec.ofNat 12 (2 ^ i)
  let g := fun (u : Int) => if u % 16 = 0 then (0 : Int) else 1
  let dt : Int := deadTime s c p
  let pending := x.words.any fun (u, w, o) => w == p && o && decide (t / 16 ≤ u / 16)
  let y : Bld := if pending then
      { x with words := x.words.filter fun (u, w, o) => !(w == p && o && decide (t / 16 ≤ u / 16)), on := x.on &&& ~~~(bit p) }
    else if x.on.getLsbD p then
      { x with
        words := x.words ++ [(t, p, false)]
        on := x.on &&& ~~~(bit p)
        offAt := tput x.offAt p t }
    else x
  let tOn := match tget none (y.offAt.map fun (i, u) => (i, some u)) p with
    | some u => max t (u + 16 * (dt + g u))
    | none => t
  { y with words := y.words ++ [(tOn, dst, true)], on := y.on ||| bit dst }

/-- Walks the events of an MV leg (R147): top switch `top`, comparison `cmp`, least spacing `tmin`, window `w`. Events up to `skip` have
been taken account of. -/
def legWalk (s : State) (c top : Nat) (cmp : Int → Bool) (tmin w skip : Int) : List (Int × Bool) → Bld → Bld
  | [], x => x
  | (t, want) :: rest, x =>
    let isAt := fun (v : Bool) => x.on.getLsbD (if v then top else top + 1)
    let go := fun (u : Int) (v : Bool) =>
      let y := transit s c x u (if v then top else top + 1)
      { y with lastTr := tput y.lastTr (top / 2) u }
    if t ≤ skip || isAt want then legWalk s c top cmp tmin w skip rest x
    else
      let first := match tget none (x.lastTr.map fun (i, u) => (i, some u)) (top / 2) with
        | some u => u + tmin
        | none => t
      if first ≤ t then legWalk s c top cmp tmin w skip rest (go t want)
      else if w ≤ first then x
      else
        let v := cmp first
        if isAt v then legWalk s c top cmp tmin w first rest x
        else legWalk s c top cmp tmin w first rest (go first v)

/-- An MV leg in PSC (R146). -/
def legPsc (s : State) (c top : Nat) (ps : List (Int × Int)) (r tmin w : Int) (x : Bld) : Bld :=
  let ev := (crossings ps r).filter fun (t, _) => decide (0 ≤ t) && decide (t < w)
  legWalk s c top (above ps r) tmin w (-1) ((0, above ps r 0) :: ev) x

/-- An MV leg in OFF (R148): whichever switch is on turns off, t_pmin after the leg's last transition. A turn-on carried into the window
comes before it, or is withdrawn where it would not. -/
def legOff (top : Nat) (tmin w : Int) (x : Bld) : Bld :=
  let t := match tget none (x.lastTr.map fun (i, u) => (i, some u)) (top / 2) with
    | some u => max 0 (u + tmin)
    | none => 0
  [top, top + 1].foldl (fun y sw =>
    if y.on.getLsbD sw ∧ t < w then
      { y with
        words :=
          if y.words.any fun (u, q, o) => q == sw && o && decide (t / 16 ≤ u / 16) then y.words.filter fun (_, q, o) => !(q == sw && o)
          else y.words ++ [(t, sw, false)]
        on := y.on &&& ~~~(BitVec.ofNat 12 (2 ^ sw))
        offAt := tput y.offAt sw t
        lastTr := tput y.lastTr (top / 2) t }
    else y) x

/-! ### DAB periods (R149 to R151) -/

/-- A DAB period: start, n, the dab_n it was taken from, sh, a1, a2. -/
structure DabP where
  ps : Int
  n : Nat
  nMin : Nat
  sh : Int
  a1 : Int
  a2 : Int
deriving DecidableEq, Repr

/-- P of a period in sixteenths. -/
def dabLen (nTicks : Nat) (x : DabP) : Int := 8 * (x.n * nTicks : Nat)

/-- A period with the values of a bridge command under the profile's law (R150). -/
def dabStart (law nTicks n nMin : Nat) (ps phi d : Int) : DabP :=
  let hp : Int := 4 * (n * nTicks : Nat)
  let d1 := if law = 2 then d else if law = 1 ∧ 0 ≤ phi then d else 0
  let d2 := if law = 2 then d else if law = 1 ∧ phi < 0 then d else 0
  ⟨ps, n, nMin, asr (phi * hp) 15, asr (d1 * hp) 15, asr (d2 * hp) 15⟩

/-- Events of Table 06-3: time, top switch of the leg, top on. -/
def dabEvents (nTicks : Nat) (x : DabP) : List (Int × Nat × Bool) :=
  let p := dabLen nTicks x
  let hp := p / 2
  let two := fun (sw : Nat) (a b : Int) =>
    let u := x.ps + a % p; let v := x.ps + b % p
    if u ≤ v then [(u, sw, true), (v, sw, false)] else [(v, sw, false), (u, sw, true)]
  two 4 0 hp ++ two 6 (hp + x.a1) x.a1 ++ two 8 x.sh (x.sh + hp) ++ two 10 (x.sh + hp + x.a2) (x.sh + x.a2)

/-- The periods that touch a window of length w, from the one in progress; `next` starts a period. -/
def dabPeriods (nTicks : Nat) (w : Int) (next : Int → DabP) : Nat → DabP → List DabP
  | 0, x => [x]
  | f + 1, x => if x.ps + dabLen nTicks x < w then x :: dabPeriods nTicks w next f (next (x.ps + dabLen nTicks x)) else [x]

/-- The frequency offset of a cell after an application h hours since its last change (Table 10-3). -/
def foMove (s : State) (c tgt h : Nat) : Nat :=
  let x := (getCtl s c).fo
  moveTo x tgt (if 100 ≤ h * (fld s .harpProfDab_dab_n (profIdx s (c / 48)) + x) then 1 else 0)

/-- The Affinage offset of a cell from the next boundary on, as it can be told in this frame: an application that falls due there moves it,
that of a whole hour or that of the end of a ride-through (R149, R271, R273). -/
def nextFo (s : State) (c : Nat) : Nat :=
  let a := s.aff
  let p := tget Plan.zero a.plans c
  let hr := hourNo (nowQ s + s.frame.ticks)
  let due := a.hourNow != 0 && decide (a.hourNow < hr) && a.hourAt != hr
  let leaves := s.mode.planDue && s.mode.rtExit
  let n := if !due then 0 else if a.hourAt = 0 then 1 else max 1 (hr - a.hourAt)
  let pol := if due then fld0 s .affCfg_policy else a.pol
  let tgt := if pol = 0 ∧ a.epochHour ≠ (if due then hr else a.hourAt) then p.pubFo else p.tgtFo
  if !p.valid ∨ 2 ≤ pol ∨ !(due && !s.mode.rt || leaves) then (getCtl s c).fo
  else foMove s c tgt (min 24 (p.hrs.getD 2 0 + n))

/-- n of a period that starts in the window the list governs: dab_n plus the Affinage offset, within fo_max and 20 kHz (R149, R152). -/
def dabWant (s : State) (c : Nat) : Nat :=
  let i := nextIdx s (c / 48)
  let dn := nextFld s .harpProfDab_dab_n i
  max dn (min (dn + min (nextFo s c) (nextFld s .harpProfDab_fo_max i)) (dabMax s))

/-- MV mode of the profile that applies in the window the list governs. -/
def profMode (s : State) (b : Nat) : Nat := nextFld s .harpProfMv_mv_mode (nextIdx s b)

/-- The MV bridges of branch b are forced to OFF: in an LV-side precharge, under CELL-TEST, and while a restarted branch precharges
(R239, R242, R251). -/
def mvOff (s : State) (b : Nat) : Bool :=
  fld0 s .modeReq_svc == 2 || (s.mode.conv == .precharge && fld0 s .modeReq_grid == 2) || (getBc s b).joining

/-- MV mode the cell is to have: HOLD without a slot (R148). -/
def mvWant (s : State) (c slot : Nat) : Nat :=
  if mvOff s (c / 48) then 2 else if slot = 63 then 1 else profMode s (c / 48)

/-! ### Building a list -/

/-- Moves times by one window, dropping what is too old to matter. -/
def shiftT (w : Int) (t : Tbl Int) : Tbl Int :=
  (t.map fun (i, u) => (i, u - w)).filter fun (_, u) => decide (-16000000 < u)

/-- The periods of the window that the next list governs, with n and values of the command in force. R154: where the profile moves dab_n
below 4 and the MV bridge out of PSC, the old n runs on until the first start at least one frame after that boundary. -/
def cellDab (s : State) (c : Nat) (w : Int) : List DabP :=
  let x := getCh s c
  let n0 := tF s
  let i := nextIdx s (c / 48)
  let law := nextFld s .harpProfDab_law i
  let (phi, d) := match x.cmd with | some (_, _, phi, d, _, _) => (phi, d) | none => (0, 0)
  let dn := nextFld s .harpProfDab_dab_n i
  let (n, nMin) := if dn < 4 ∧ x.started ∧ x.profMv = 0 ∧ 4 ≤ x.nMin then (x.n, x.nMin) else (dabWant s c, dn)
  let next := fun t => dabStart law n0 n nMin t phi d
  dabPeriods n0 w next 6 (if x.started then ⟨x.ps, x.n, x.nMin, x.sh, x.a1, x.a2⟩ else next 0)

/-- The Harp's state of a cell after a window whose periods were `l`. -/
def dabKeep (x : CellHarp) (w : Int) (l : List DabP) : CellHarp :=
  match l.getLast? with
  | some p => { x with ps := p.ps - w, n := p.n, nMin := p.nMin, sh := p.sh, a1 := p.a1, a2 := p.a2 }
  | none => x

/-- Edge words of the window for a cell in RUN, and the Harp's state after it (R144 to R157). PSC waits for a boundary at which a dab_n of
4 or more is in force (R154). -/
def buildEdges (s : State) (c : Nat) (m : Int) (slot : Nat) : Bld × List DabP × Nat :=
  let x := getCh s c
  let w : Int := 16 * (nextTicks s : Nat)
  let want := mvWant s c slot
  let mv := if want = 0 ∧ x.started ∧ x.nMin < 4 then x.mvMode else want
  let tmin : Int := 16 * (max (4000 * nextFld s .harpProfMv_pmin (nextIdx s (c / 48))) (tF s) : Nat)
  let per := cellPeriods s (c / 48) slot (getBc s (c / 48)).nAct
  let on0 := x.carried.foldl (fun (o : BitVec 12) (_, sw, _) => o ||| BitVec.ofNat 12 (2 ^ sw)) x.on
  let b0 : Bld := ⟨x.carried, on0, x.offAt, x.lastTr⟩
  let leg := fun (top : Nat) (r : Int) (b : Bld) =>
    if mv = 0 then legPsc s c top per r tmin w b
    else if mv = 1 then legWalk s c top (fun _ => false) tmin w (-1) [(0, false)] b
    else legOff top tmin w b
  let b1 := leg 2 (sat16 (-m)) (leg 0 m b0)
  let l := cellDab s c w
  let ev := (l.flatMap (dabEvents (tF s))).filter fun (t, _, _) => decide (0 ≤ t) && decide (t < w)
  let b2 := ev.foldl (fun b (t, sw, v) =>
    let dst := if v then sw else sw + 1
    if b.on.getLsbD dst then b else transit s c b t dst) b1
  (b2, l, mv)

/-- Words of a list in their order (R157): offset, turn-off before turn-on, switch. -/
def sortWords (l : List (Int × Nat × Bool)) : List (Int × Nat × Bool) :=
  let key := fun (x : Int × Nat × Bool) => (x.1 / 16) * 64 + (32 * b2n x.2.2 + x.2.1 : Nat)
  l.foldr (fun x acc => (acc.takeWhile fun y => decide (key y < key x)) ++ x :: (acc.dropWhile fun y => decide (key y < key x))) []

/-- A word of Table 04-4. -/
def wordEdge (x : Int × Nat × Bool) : Edge := ⟨(x.1 / 16).toNat, (x.1 % 16).toNat, x.2.1, x.2.2⟩

/-! ### Slots (R41, R42), in 1/1600 ns -/

/-- Hop counts, L(p) and coding of the lane that serves cell c: the cells it reaches. -/
def laneCells (s : State) (c : Nat) : List Nat :=
  (mapCells s (c / 48)).filter fun d => servedA s d == servedA s c && reached s d

/-- Tail and head slot of the window that the list governs, in its coding (R41, R42, R460). -/
def tailSlot (s : State) (c : Nat) : Nat := if codingIn s (servingLane s c) (s.frame.k + 1) then 61440 else 65536
def headSlot (s : State) (c : Nat) : Nat := if codingIn s (servingLane s c) (s.frame.k + 1) then 112640 else 114688

/-- Nanoseconds, rounded up, of a time in 1/1600 ns; not below 0. -/
def ceilNs (v : Int) : Nat := ((v + 1599) / 1600).toNat

/-- tail_start (R42), rounded up to a nanosecond (DEDUCED, log entry 90). -/
def tailStart (s : State) (c : Nat) : Nat :=
  let cs := laneCells s c
  let n := maxOf (cs.map (hopsOf s))
  let ts : Int := tailSlot s c
  let slots := fun d => ((n - hopsOf s d + 1 : Nat) : Int) * ts
  let bound : Int := 1600 * (n * hopBound s + relayOf s c : Nat) + ts
  let aEnd := 1600 * 200 + (cs.map fun d => 25 * lupOf s d + slots d).foldl max bound
  ceilNs (aEnd - slots c - 25 * lupOf s c)

/-- head_start (R41), against the end of the window the list governs. -/
def headStart (s : State) (c : Nat) : Nat :=
  ceilNs (400 * (nextTicks s : Int) - 1600 * 4500 + ((hopsOf s c - 1) * headSlot s c : Nat) - 25 * lupOf s c)

/-! ### Sending -/

/-- Header of a new list for cell c (Table 04-3). -/
def newList (s : State) (c byp : Nat) (edges : List Edge) : EdgeList :=
  { dest := c % 48
    byp := byp
    stale := false
    holder := fld0 s .twinCfg_end == 1
    kLo := BitVec.ofNat 16 s.frame.k
    path := ux 20 (nextPath s c)
    tailStart := tailStart s c % 65536
    headStart := headStart s c % 65536
    edges := edges }

/-- Sends a list and counts its words. -/
def emitList (s : State) (c : Nat) (l : EdgeList) : State :=
  let s1 := modCh (sendPart s c (listB l)) c fun x => { x with lastList := some l, sentNow := true }
  let s2 := modLink s1 c fun x => { x with pathSent := some (sx 32 l.path), pathFirst := if x.dHist.isEmpty then x.pathFirst else none }
  { s2 with harp := { s2.harp with wordsNow := max s2.harp.wordsNow l.edges.length } }

/-- What one edge of a resent list does to the commanded states, the last turn-offs and the MV legs' last transitions: a turn-on is a
transition of its own where its partner did not turn off within the list. -/
def resentEdge (x : CellHarp) (e : Edge) : CellHarp :=
  let t : Int := (16 * e.offset + e.frac : Nat)
  let bit : BitVec 12 := BitVec.ofNat 12 (2 ^ e.sw)
  let tr := if e.sw < 4 then tput x.lastTr (e.sw / 2) t else x.lastTr
  let paired := match tget none (x.offAt.map fun (i, u) => (i, some u)) (if e.sw % 2 = 0 then e.sw + 1 else e.sw - 1) with
    | some u => decide (0 ≤ u)
    | none => false
  if x.on.getLsbD e.sw = e.on then x
  else if e.on then { x with on := x.on ||| bit, lastTr := if paired then x.lastTr else tr }
  else { x with on := x.on &&& ~~~bit, offAt := tput x.offAt e.sw t, lastTr := tr }

/-- The windows the Harp's times refer to move on by one (no list, an empty one, or a stale one with the edges `es`): periods run, carried
edges are lost (R157). -/
def passWindow (s : State) (c : Nat) (es : List Edge) : State :=
  let w : Int := 16 * (nextTicks s : Nat)
  let l := cellDab s c w
  let pm := profMode s (c / 48)
  modCh s c fun x =>
    let z := es.foldl resentEdge x
    let y := { z with carried := [], offAt := shiftT w z.offAt, lastTr := shiftT w z.lastTr, profMv := pm }
    if x.started then dabKeep y w l else y

/-- States a resent list leaves the switches in (R157). -/
def afterEdges (on : BitVec 12) (es : List Edge) : BitVec 12 :=
  es.foldl (fun o e => let b := BitVec.ofNat 12 (2 ^ e.sw); if e.on then o ||| b else o &&& ~~~b) on

/-- PT_L1_STALE (Table 07-6). -/
def staleOut (s : State) (c : Nat) : State := putPtI s (cellPa c 135) (getCh s c).staleCount

/-- A cell's third consecutive stale frame: F_L1_STALE3, whose PARK replaces the list (R52). -/
def staleThird (s : State) (c : Nat) : State :=
  let s1 := passWindow s c []
  let s2 := modCh s1 c fun x => { x with sentNow := true, staleCount := 3 }
  raiseE (staleOut s2 c) (61 + c / 48) (BitVec.ofNat 32 c)

/-- A stale resend (R51, R99), on the safe clock without edges (R36, R374); the third and each later one in a row is F_L1_STALE3 (R52; DESIGN CHOICE for the later ones, log entry 93). -/
def staleSend (s : State) (c : Nat) : State :=
  let x := getCh s c
  match x.lastList with
  | none => s
  | some l =>
    if 2 ≤ x.staleCount then staleThird s c
    else
      let r := { l with stale := true, byp := 0, kLo := BitVec.ofNat 16 s.frame.k, edges := if s.clk.onSafe then [] else l.edges }
      let s1 := passWindow (sendPart s c (listB r)) c r.edges
      let s2 := modCh s1 c fun y => { y with sentNow := true, staleCount := y.staleCount + 1 }
      raiseE (staleOut s2 c) (cellSrc c 8) (BitVec.ofNat 32 c)

/-- The list of a cell with a new computation (R144, R155). -/
def freshSend (s : State) (c : Nat) : State :=
  let x := getCh s c
  match x.cmd with
  | none => s
  | some (m, slot, _, _, byp, run) =>
    let w : Int := 16 * (nextTicks s : Nat)
    let s0 := staleOut (modCh s c fun y => { y with staleCount := 0 }) c
    if !run || byp == 1 || s.clk.onSafe then
      let s1 := emitList s0 c (newList s0 c byp [])
      modCh (passWindow s1 c []) c fun y => if run then { y with on := 0 } else
        { CellHarp.zero with cmd := y.cmd, newCmd := y.newCmd, lastList := y.lastList, sentNow := true }
    else
      let (b, l, mv) := buildEdges s0 c m slot
      let now := sortWords (b.words.filter fun (t, _, _) => decide (t < w))
      let due := (b.words.filter fun (t, _, _) => decide (w ≤ t)).map fun (t, sw, o) => (t - w, sw, o)
      if 16 < now.length then
        let s1 := passWindow (emitList s0 c (newList s0 c 0 [])) c []
        raiseE s1 (670 + c / 48) (BitVec.ofNat 32 c)
      else
        let s1 := emitList s0 c (newList s0 c byp (now.map wordEdge))
        modCh s1 c fun y => dabKeep { y with
          started := true
          mvMode := mv
          profMv := profMode s (c / 48)
          on := due.foldl (fun (o : BitVec 12) (_, sw, _) => o &&& ~~~(BitVec.ofNat 12 (2 ^ sw))) b.on
          offAt := shiftT w b.offAt
          lastTr := shiftT w b.lastTr
          carried := due } w l

/-- Cell c may be sent a list now: its Level 1 step is over, none has gone in this frame, and no higher rank holds the Harp (R29). The
cells that R53 removes from the order get none (DESIGN CHOICE, log entry 94). -/
def mayList (s : State) (c : Nat) : Bool :=
  s.frame.snapped && (getLink s c).inMap && reached s c && !(getCh s c).sentNow && !s.harp.halted && !outputsHeld s &&
  !s.frame.budgetFail.getLsbD (c / 48) &&
  s.power.mode == .run

/-- Frame windows pass for a cell that was sent no list. -/
def cellFrameEnd (s : State) (c : Nat) : State :=
  let s1 := if (getCh s c).sentNow || s.harp.halted then s else passWindow s c []
  modCh s1 c fun x =>
    let es := match x.gov with | some l => l.edges | none => []
    { x with
      govOn := if x.started then afterEdges x.govOn es else 0
      gov := if x.sentNow then x.lastList else none
      sentNow := false
      newCmd := false }

/-- What the Harp's lists and carriers do at the end of a frame of `ticks`. A halt stops the carriers (R167). -/
def harpFrameEnd (s : State) : State :=
  let ticks := s.frame.ticks
  let s1 := if s.harp.halted then s else
    (s.harp.carriers.map (·.1)).foldl (fun t b =>
      { t with harp := { t.harp with carriers := tmod Carrier.zero t.harp.carriers b (carrierStep (profTc t b) ticks) } }) s
  let s2 := (allCells s1).foldl cellFrameEnd s1
  { s2 with harp := { s2.harp with wordsMax := s2.harp.wordsNow, wordsNow := 0 } }

/-! ### Meanings -/

/-- R44, R51: the cell's list leaves, or a stale resend where the cell had no new computation. -/
def execHarpListSend (cell : Cell) (s : State) : Host.Outcome State Fault Refusal :=
  onCore s fun s =>
    if !mayList s cell then s else if (getCh s cell).newCmd then freshSend s cell else staleSend s cell

/-- R52: a cell's third consecutive stale frame. -/
def execStaleThirdFrame (cell : Cell) (s : State) : Host.Outcome State Fault Refusal :=
  onCore s fun s =>
    if mayList s cell ∧ !(getCh s cell).newCmd ∧ 2 ≤ (getCh s cell).staleCount then staleThird s cell else s

end Sys2Proof.Machine
end

