-- ==== Sys2Proof/Machine/Fixed.lean ====
section
/-!
DEFINITION. The Press arithmetic of R179 and R180.
-/
namespace Sys2Proof.Machine

/-- Q1.15 to Q9.31. -/
def q31 (x : Int) : Int := x * 65536

/-- Q9.31 to Q1.15, half rounds up. -/
def rnd16 (a : Int) : Int := sat16 (asr (a + 0x8000) 16)

/-- Mantissa and exponent of a coefficient word (R180). -/
def cMant (w : Nat) : Int := sx 16 w
def cExp (w : Nat) : Int := sx 5 (bitsAt w 16 5)

/-- x × c in Q9.31. -/
def mulc (x : Int) (w : Nat) : Int :=
  let v := x * cMant w
  let s := 1 + cExp w
  sat40 (if 0 ≤ s then v * 2 ^ s.toNat else asr v (-s).toNat)

/-- The value of c in Q9.31. -/
def cval (w : Nat) : Int := let e := cExp w; sat40 (if -16 ≤ e then cMant w * 2 ^ (16 + e).toNat else 0)

/-- Q1.31 by Q1.15. -/
def mul31 (a x : Int) : Int := sat40 (asr (a * x) 15)

/-- 1 / m in Q4.12. -/
def recip (x : Int) : Int := let m := max x 0x1000; (2 ^ 28 + m) / (2 * m)

/-- Square root of a Q1.15 value, truncated. -/
def sqrt16 (x : Int) : Int := (Nat.sqrt (x * 32768).toNat : Nat)

/-- 2π in units of 2^−96. -/
def twoPi96 : Nat := 0x6487ED5110B4611A62633145C

/-- Alternating series of a cosine (start 0) or sine (start 1): x and term in 2^−96, n steps. -/
def trigSum : Nat → Nat → Int → Int → Int
  | 0, _, _, _ => 0
  | n + 1, i, x2, t => t + trigSum n (i + 2) x2 (-(t * x2 / 2 ^ 96) / ((i + 1) * (i + 2) : Nat))

/-- cos and sin of 2π r / 65536 for 0 ≤ r ≤ 16384, in 2^−96. -/
def cosQ (r : Nat) : Int := let x : Int := (twoPi96 * r / 65536 : Nat); trigSum 24 0 (x * x / 2 ^ 96) (2 ^ 96)
def sinQ (r : Nat) : Int := let x : Int := (twoPi96 * r / 65536 : Nat); trigSum 24 1 (x * x / 2 ^ 96) x

/-- A value in 2^−96 as Q1.15, rounded to nearest, ties up, saturated. -/
def unit16 (v : Int) : Int := sat16 ((v * 65536 + 2 ^ 96) / 2 ^ 97)

/-- cos and sin of 2π t / 65536 (R179). -/
def sincos (t : Nat) : Int × Int :=
  let r := t % 16384
  let (c, s) := (cosQ r, sinQ r)
  match t / 16384 % 4 with
  | 0 => (unit16 c, unit16 s)
  | 1 => (unit16 (-s), unit16 c)
  | 2 => (unit16 (-c), unit16 (-s))
  | _ => (unit16 s, unit16 (-c))

/-- The law of R188: phi, d, saturated. `kd` and `dMax` are coefficient words. -/
def dabLaw (p : Int) (law kd dMax : Nat) : Int × Int × Bool :=
  let pa := min (absI p) 32767
  let d0 := if law = 0 then 0 else clampI 0 (rnd16 (cval dMax)) (rnd16 (mulc (32767 - pa) kd))
  let q := pa + law * asr (d0 * d0) 15
  let sat := decide (32768 ≤ q)
  let ph := if sat then 16384 else asr (32768 - sqrt16 (32768 - q)) 1
  let d := if ph < d0 then ph else d0
  (if p < 0 then -ph else ph, d, sat)

/-- Anti-windup step of R184 from "inc" onward: new integrator and output. -/
def piCore (p e : Int) (ki : Nat) (lo hi i : Int) : Int × Int :=
  let inc := mulc e ki
  let c0 := sat40 (i + inc)
  let v := sat40 (p + c0)
  let c := if (q31 hi < v ∧ 0 < inc) ∨ (v < q31 lo ∧ inc < 0) then i else c0
  let i' := clampI (q31 lo) (q31 hi) c
  (i', clampI lo hi (rnd16 (sat40 (p + i'))))

end Sys2Proof.Machine
end

