-- ==== Sys2Proof/Machine/Loops.lean ====
section
/-!
DEFINITION. The loop library of the Press (R181 to R191): descriptors, the slot and prepare parts of each kind, limits and slew.
-/
namespace Sys2Proof.Machine

/-! ### Descriptors -/

def getLoop (s : State) (n : Nat) : LoopDesc := tget LoopDesc.zero s.press.loops n
def getLs (s : State) (n : Nat) : LoopSt := tget LoopSt.zero s.press.st n
def modLs (s : State) (n : Nat) (f : LoopSt → LoopSt) : State :=
  { s with press := { s.press with st := tmod LoopSt.zero s.press.st n f } }

/-- No point named. -/
def noPa : Nat := 0xFFFFF

/-- Input i of a descriptor. -/
def loopIn (d : LoopDesc) (i : Nat) : Nat := match i with | 0 => d.in0 | 1 => d.in1 | 2 => d.in2 | _ => d.in3

/-- Number of outputs (Table 07-4). -/
def nOuts (d : LoopDesc) : Nat :=
  match d.kind with | 5 => 1 + d.order | 6 => 2 | 7 => d.order | 8 => 5 | 0 => 0 | _ => 1

/-- Output points. -/
def outPas (d : LoopDesc) : List Nat := (List.range (nOuts d)).map (d.out + ·)

/-- Slot and prepare cost (Table 07-4). -/
def slotCost (d : LoopDesc) : Nat :=
  match d.kind with
  | 1 => 8 | 2 => 8 + 4 * d.order | 3 => 6 | 4 => 8 | 5 => 3 * d.order + 4 | 6 => 16 | 7 => 6 + 6 * d.order | 8 => 20 | _ => 0
def prepCost (d : LoopDesc) : Nat :=
  match d.kind with | 2 => 4 * d.order | 5 => d.order * d.order + d.order * d.nu + 4 | 8 => 16 | _ => 0

/-- The feedback inputs that are named. -/
def fbIdx (d : LoopDesc) : List Nat :=
  (match d.kind with | 1 | 2 | 3 | 4 | 5 => [0] | 8 => [1, 3] | _ => []).filter fun i => loopIn d i ≠ noPa

/-- Set-point inputs with the feedback input each pairs with (R191). -/
def spIdx (d : LoopDesc) : List (Nat × Option Nat) :=
  match d.kind with
  | 1 | 2 => [(1, some 0)]
  | 3 | 4 => if d.in1 = noPa then [] else [(1, some 0)]
  | 6 => [(0, none)]
  | 8 => [(0, some 1), (2, some 3)]
  | _ => []

/-- The observer instance and output index a descriptor links to. -/
def obsLink (d : LoopDesc) : Option (Nat × Nat) := if d.obs = 0x7FFF then none else some (d.obs % 4096, d.obs / 4096)

/-- The words of Table 07-4 that hold a coefficient of R180. -/
def coefWords (d : LoopDesc) : List Nat :=
  let r := List.range d.order
  match d.kind with
  | 1 => [0, 1, 2]
  | 2 => [0, 1, 2, 3, 4] ++ r.map fun j => 6 + 2 * j
  | 3 => [0, 1, 2]
  | 4 => [0, 1, 2, 3, 4]
  | 5 => (r.flatMap fun i => r.map fun j => 4 * i + j) ++ (r.flatMap fun i => (List.range d.nu).map fun l => 16 + 2 * i + l) ++
      r.map (24 + ·) ++ r.map (28 + ·) ++ [32]
  | 6 => [1, 2]
  | 7 => [0, 1]
  | 8 => [0, 1, 3, 4]
  | _ => []

/-- Every word Table 07-4 names for the instance. -/
def loopWords (d : LoopDesc) : List Nat :=
  let r := List.range d.order
  match d.kind with
  | 2 => [0, 1, 2, 3, 4] ++ r.flatMap fun j => [5 + 2 * j, 6 + 2 * j]
  | 6 => [0, 1, 2]
  | 8 => [0, 1, 2, 3, 4]
  | _ => coefWords d

/-- Word w of instance n in the active bank (R192). -/
def cw (s : State) (n w : Nat) : Nat :=
  (tget 0 (if s.press.activeB then s.press.bankB else s.press.bankA) (128 * n + w)).toNat

/-! ### Scopes -/

/-- Branch or phase or station of a scope as Table 11-5 counts it: 0 station, 1 + p phase, 4 + b branch (R198). -/
def sigmaOf (w : Nat) : Nat :=
  match scopeKey w with
  | some k => match k.depth with | 0 => 0 | 1 => 1 + k.num | 2 => 4 + k.num | _ => 4 + k.num / 48
  | none => 0

/-- Cells of the map within a scope. -/
def cellsOf (s : State) (w : Nat) : List Nat :=
  match scopeKey w with
  | some k => (allCells s).filter fun c => contains k ⟨3, c⟩
  | none => allCells s

/-! ### Limits and slew (R183, R191) -/

/-- [lo, hi] of an instance. -/
def loopLimits (s : State) (d : LoopDesc) : Int × Int :=
  let lim := fun (pa : Nat) (c : Half) => if pa ≠ noPa ∧ ptValid s pa then ptV s pa else h2i c
  let lo := lim d.loPt d.loC
  let hi := lim d.hiPt d.hiC
  (if hi < lo then hi else lo, hi)

/-- One step of a limiter. -/
def slewStep (slew : Nat) (s t : Int) : Int :=
  if slew = 0 then t else if s < t then min t (s + slew) else max t (s - slew)

/-- Input i as stored; 0 where none is named. -/
def rdIn (s : State) (d : LoopDesc) (i : Nat) : Int := if loopIn d i = noPa then 0 else ptV s (loopIn d i)

/-- Writes element i of a list, padding with a default. -/
def lput {α : Type} (dflt : α) (l : List α) (i : Nat) (v : α) : List α :=
  (l ++ List.replicate (i + 1 - l.length) dflt).set i v

/-- Saturating sum of Q9.31 terms. -/
def sum40 (l : List Int) : Int := l.foldl (fun a x => sat40 (a + x)) 0

/-! ### Kinds -/

/-- What a kind's slot part is given: in0 to in3 with substitutions and slew-limited set-points in place, y valid, limits, words. -/
structure LoopIO where
  x0 : Int
  x1 : Int
  x2 : Int
  x3 : Int
  yOk : Bool
  lo : Int
  hi : Int

/-- The proportional, feedforward and resonant sum of kinds 1 and 2, with the resonator states of the slot part (R184, R185). -/
def piSum (d : LoopDesc) (w : Nat → Nat) (io : LoopIO) (st : LoopSt) : Int × LoopSt :=
  let e := sat16 (io.x1 - io.x0)
  let p0 := sat40 (mulc e (w 0) + mulc io.x2 (w 2))
  if d.kind = 2 then
    let a1 := sat40 (cval (w 3) + mulc io.x3 (w 3))
    let lim := cval (w 4)
    (List.range d.order).foldl (fun (p, t) j =>
      let a := min (a1 * (w (5 + 2 * j) % 64 : Nat)) (2 ^ 31 - 1)
      let q := sat16 (rnd16 (mulc e (w (6 + 2 * j))) - rnd16 (t.s2.getD j 0))
      let s1 := clampI (-lim) lim (t.s1.getD j 0 + mul31 a q)
      (sat40 (p + s1), { t with s1 := lput 0 t.s1 j s1, prep := lput 0 t.prep j a })) (p0, { st with prep := [] })
  else (p0, { st with prep := [0] })

/-- The slot part of an instance: new states and outputs (R184 to R190). -/
def kindSlot (d : LoopDesc) (w : Nat → Nat) (io : LoopIO) (st : LoopSt) : LoopSt × List Int :=
  let cl := clampI io.lo io.hi
  match d.kind with
  | 1 | 2 =>
    let (p, t) := piSum d w io st
    let (i, u) := piCore p (sat16 (io.x1 - io.x0)) (w 1) io.lo io.hi (t.integ.getD 0 0)
    ({ t with integ := lput 0 t.integ 0 i }, [u])
  | 3 | 4 =>
    let x := if d.in1 = noPa then io.x0 else sat16 (io.x1 - io.x0)
    let h := fun i => st.hist.getD i 0
    let second := d.kind = 4
    let y := cl (rnd16 (sum40 ([mulc x (w 0), mulc (h 0) (w 1)] ++
      (if second then [mulc (h 1) (w 2), -mulc (h 2) (w 3), -mulc (h 3) (w 4)] else [-mulc (h 2) (w 2)]))))
    ({ st with hist := [x, if second then h 0 else 0, y, if second then h 2 else 0], prep := [0] }, [y])
  | 5 =>
    let r := List.range d.order
    let xm := fun i => st.xm.getD i 0
    let yh := rnd16 (sum40 (r.map fun i => mulc (xm i) (w (24 + i))))
    let e := if io.yOk then sat16 (io.x0 - yh) else 0
    let xh := r.map fun i => sat16 (xm i + rnd16 (mulc e (w (28 + i))))
    let out0 := rnd16 (sum40 (r.map fun i => mulc (xh.getD i 0) (w (24 + i))))
    let over_ := decide (cval (w 32) < q31 (absI e))
    let run := if !io.yOk then st.resRun else if over_ then min 16 (st.resRun + 1) else 0
    ({ st with resRun := run, prep := xh ++ [io.x1, io.x2] }, (out0 :: xh).map cl)
  | 6 =>
    let (phi, dd, _) := dabLaw io.x0 (w 0 % 4) (w 1) (w 2)
    ({ st with prep := [0] }, [cl phi, cl dd])
  | 7 =>
    let es := [io.x0, io.x1, io.x2, io.x3].take d.order
    let mean := es.sum / (d.order : Int)
    let (t, us) := (List.range d.order).foldl (fun (t, us) i =>
      let e := sat16 (es.getD i 0 - mean)
      let (ii, u) := piCore (mulc e (w 0)) e (w 1) io.lo io.hi (t.integ.getD i 0)
      ({ t with integ := lput 0 t.integ i ii }, us ++ [u])) ({ st with prep := [0] }, [])
    let ubar := us.sum / (d.order : Int)
    (t, us.map fun u => cl (sat16 (u - ubar)))
  | 8 =>
    let dp := sat16 (sat16 (io.x0 - io.x1) - rnd16 (mulc (rnd16 st.w) (w 1)))
    let ww := clampI (q31 io.lo) (q31 io.hi) (sat40 (st.w + mulc dp (w 0)))
    let e := rnd16 (sat40 (cval (w 3) - mulc (sat16 (io.x3 - io.x2)) (w 4)))
    ({ st with w := ww, prep := [0] }, [rnd16 ww, (st.theta / 65536 : Nat), e, st.cs.1, st.cs.2])
  | _ => (st, [])

/-- The prepare part of an instance whose slot part ran (R185, R187, R190). -/
def kindPrep (d : LoopDesc) (w : Nat → Nat) (st : LoopSt) : LoopSt :=
  if st.prep.isEmpty then st
  else
    let t := match d.kind with
      | 2 =>
        let lim := cval (w 4)
        (List.range d.order).foldl (fun (t : LoopSt) j =>
          let v := clampI (-lim) lim (t.s2.getD j 0 + mul31 (st.prep.getD j 0) (rnd16 (t.s1.getD j 0)))
          { t with s2 := lput 0 t.s2 j v }) st
      | 5 =>
        let r := List.range d.order
        let next := r.map fun i => rnd16 (sum40 ((r.map fun j => mulc (st.prep.getD j 0) (w (4 * i + j))) ++
          (List.range d.nu).map fun l => mulc (st.prep.getD (d.order + l) 0) (w (16 + 2 * i + l))))
        { st with xm := next }
      | 8 =>
        let step := w 2
        let th : Nat := (((st.theta : Int) + step + asr (step * rnd16 st.w) 15) % 2 ^ 32).toNat
        { st with theta := th, cs := sincos (th / 65536) }
      | _ => st
    { t with prep := [] }

/-- Preload of a PI or resonant member that takes over at u_A (R201): states, output, whether the hand-over is complete. -/
def piPreload (d : LoopDesc) (w : Nat → Nat) (io : LoopIO) (st : LoopSt) (uA : Int) : LoopSt × Int × Bool :=
  let (p, t) := piSum d w io { st with s1 := [], s2 := [] }
  let want := q31 uA - p
  let i := clampI (q31 io.lo) (q31 io.hi) want
  let u := clampI io.lo io.hi (rnd16 (sat40 (p + i)))
  ({ t with integ := lput 0 t.integ 0 i }, u,
    decide (q31 io.lo ≤ want) && decide (want ≤ q31 io.hi) && decide (io.lo ≤ uA) && decide (uA ≤ io.hi))

/-- The states of kinds 3 to 8 clamped into a member's limits at a hand-over (R201). -/
def clampStates (io : LoopIO) (st : LoopSt) : LoopSt :=
  { st with integ := st.integ.map (clampI (q31 io.lo) (q31 io.hi)), w := clampI (q31 io.lo) (q31 io.hi) st.w }

/-! ### Slew limiters -/

/-- The limiter of a set-point input steps to it; a limiter without a position starts at its feedback, or at the set-point (R191). -/
def slewInput (s : State) (d : LoopDesc) (st : LoopSt) (pair : Nat × Option Nat) : LoopSt × Int :=
  let t := rdIn s d pair.1 * 65536
  let p0 := match st.lim.getD pair.1 none with
    | some p => p
    | none => match pair.2 with
      | some f => if loopIn d f = noPa then t else rdIn s d f * 65536
      | none => t
  let p := slewStep d.slew p0 t
  ({ st with lim := lput none st.lim pair.1 (some p) }, asr p 16)

/-- What an instance computes with in this frame: inputs with the observer's output in place of the first feedback input while it is in
fallback with a link (R197), slew-limited set-points, limits. -/
def loopIO (s : State) (d : LoopDesc) (st : LoopSt) (ok : Bool) : LoopSt × LoopIO :=
  let (lo, hi) := loopLimits s d
  let first := (fbIdx d).headD 9
  let linked := match obsLink d with
    | some (o, q) => if ok then none else some (ptV s ((getLoop s o).out + q))
    | none => none
  let raw := fun i => match linked with | some v => if i = first then v else rdIn s d i | none => rdIn s d i
  let (st1, sp) := (spIdx d).foldl (fun (t, l) pr =>
    let (u, v) := slewInput s d t pr
    (u, l ++ [(pr.1, v)])) (st, ([] : List (Nat × Int)))
  let x := fun i => match sp.find? fun p => p.1 = i with | some (_, v) => v | none => raw i
  (st1, ⟨x 0, x 1, x 2, x 3, ptValid s (loopIn d 0) || linked.isSome, lo, hi⟩)

end Sys2Proof.Machine
end

