-- ==== Sys2Proof/Machine/Press.lean ====
section
/-!
DEFINITION. The Press over one frame (R173 to R178, R192, R197 to R203): which instances run, shedding, fallback, hand-over between
modes, the configuration commit and the coefficient banks.
-/
namespace Sys2Proof.Machine

/-! ### Which instances run (R246) -/

/-- LV group of an instance: by its out point, or by its branch scope. -/
def lvGroup (s : State) (d : LoopDesc) : Option Nat :=
  let j := d.out - 294912
  if 294912 + 64 ≤ d.out ∧ d.out < 294912 + 256 then some ((j - 64) / 16)
  else match scopeKey d.scope.toNat with
    | some ⟨2, b⟩ => (List.range 12).find? fun g => bitAt (fld s .modeLvgCfg_br_mask g) b
    | _ => none

/-- The mask of an instance meets the effective word. -/
def maskMeets (s : State) (d : LoopDesc) : Bool :=
  let m := d.modeMask.toNat &&& s.mode.eff.toNat
  let hit := fun lo n => bitsAt m lo n != 0
  let lv := match lvGroup s d with
    | some g => bitAt d.modeMask.toNat (7 + b2n (s.mode.lvEff.getLsbD g))
    | none => true
  hit 0 3 && hit 3 4 && hit 9 4 && hit 13 2 && hit 15 4 && hit 19 4 && lv

/-- The instance puts out for an LV group that is joined to another: only the loops of the leader serve the joined set (R236). -/
def joinedOut (s : State) (d : LoopDesc) : Bool :=
  let g := (d.out - (294912 + 64)) / 16
  decide (294912 + 64 ≤ d.out) && decide (d.out < 294912 + 256) && fld s .modeLvgCfg_leader g != g

/-- An instance runs by mode in this frame. -/
def runsIn (s : State) (d : LoopDesc) : Bool := d.kind != 0 && s.power.mode == .run && maskMeets s d && !joinedOut s d

/-- The instances in use, by rising number. -/
def loopNums (s : State) : List Nat := (s.press.loops.filter fun (_, d) => d.kind != 0).map (·.1)

/-- The hand-over groups in use. -/
def groupNums (s : State) : List Nat :=
  below 256 fun g => g != 0 && s.press.loops.any fun (_, d) => d.kind != 0 && d.group == g

def getHo (s : State) (g : Nat) : HandOver := tget HandOver.zero s.press.groups g
def setHo (s : State) (g : Nat) (h : HandOver) : State :=
  { s with press := { s.press with groups := tset HandOver.zero s.press.groups g h } }

/-- The member of a group that the effective mode names (R200). -/
def groupMember (s : State) (g : Nat) : Option Nat :=
  (loopNums s).find? fun n => (getLoop s n).group == g && runsIn s (getLoop s n)

/-- Group g is in hand-over in this frame. -/
def inHandOver (s : State) (g : Nat) : Bool :=
  match groupMember s g, (getHo s g).active with
  | some b, some a => a != b || (getHo s g).blend.isSome
  | _, _ => false

/-- The instances that run in this frame: by mode, and the outgoing members of hand-overs. -/
def runList (s : State) : List Nat :=
  (loopNums s).filter fun n =>
    let d := getLoop s n
    if d.group = 0 then runsIn s d
    else
      let ho := getHo s d.group
      groupMember s d.group == some n ||
      (inHandOver s d.group && (match ho.blend with
        | some (o, _) => groupMember s d.group == ho.active && o == some n
        | none => ho.active == some n))

/-! ### Load (R50, R175) -/

/-- Every named feedback input of an instance is valid. -/
def fbOk (s : State) (d : LoopDesc) : Bool := (fbIdx d).all fun i => ptValid s (loopIn d i)

/-- Cost of a set of instances: slot work, fallbacks with a link, and 48 times the largest slot cost of each level. -/
def costOf (ds : List LoopDesc) (links : Nat) : Nat :=
  let big := fun l => maxOf ((ds.filter fun d => d.level = l).map slotCost)
  (ds.map slotCost).sum + 4 * links + 48 * (big 4 + big 3 + big 2)

/-- C of a frame (R175). -/
def frameCost (s : State) (ns : List Nat) : Nat :=
  costOf (ns.map (getLoop s)) (ns.filter fun n => !fbOk s (getLoop s n) && (obsLink (getLoop s n)).isSome).length

/-- Omits non-critical Level 4 instances, highest number first, until C fits (R50). -/
def shed (s : State) : List Nat → List Nat → List Nat
  | [], ns => ns
  | n :: cand, ns => if frameCost s ns ≤ 48000 then ns else shed s cand (ns.filter (· ≠ n))

/-- The instances of this frame that run and are not omitted. -/
def keptList (s : State) : List Nat :=
  let ns := runList s
  let cand := (ns.filter fun n =>
    let d := getLoop s n
    d.level == 4 && !d.critical && !inHandOver s d.group).reverse
  shed s cand ns

/-! ### One instance -/

/-- The feedback check of R197. -/
def checkFb (ok : Bool) (hold okC badC : Nat) : Nat × Nat :=
  if ok then (min 64 (okC + 1), if hold ≤ okC + 1 then 0 else badC) else (0, min 255 (badC + 1))

/-- An instance runs once on the points of `s0`; `uA` is given to a member that takes over. Answers its outputs and whether a take-over
is complete, which that of a held member is not: it puts out the values it holds (R203). -/
def instRun (s0 t : State) (n : Nat) (uA : Option (List Int)) : State × List Int × Bool :=
  let d := getLoop s0 n
  let w := cw s0 n
  let st := getLs t n
  let ok := fbOk s0 d
  let (okC, badC) := checkFb ok (max 1 d.hold) st.ok st.bad
  let st0 := { st with ok := okC, bad := badC, fb := !ok, lim := if st.ran || uA.isSome then st.lim else [], ran := true }
  if !ok && (obsLink d).isNone && d.kind != 5 then (modLs t n fun _ => { st0 with prep := [] }, if st.outs.isEmpty then uA.getD [] else st.outs, uA.isNone)
  else
    let (st1, io) := loopIO s0 d st0 ok
    let keep := fun (x : LoopSt) (u : List Int) => modLs t n fun _ => { x with outs := u }
    match uA with
    | some u =>
      if d.kind = 1 ∨ d.kind = 2 then
        let (x, v, done_) := piPreload d w io st1 (u.headD 0)
        (keep x [v], [v], done_)
      else
        let (x, v) := kindSlot d w io (clampStates io st1)
        (keep x v, v, false)
    | none =>
      let (x, v) := kindSlot d w io st1
      (keep x v, v, true)

/-! ### Hand-over (R200 to R203) -/

/-- Frames of a blend. -/
def blendLen (s : State) (d : LoopDesc) : Nat := max 1 ((2 * d.tHand * 4000000 + tF s) / (2 * tF s))

/-- Blended output at step j of n. -/
def blendOut (j n : Nat) (uA uB : Int) : Int :=
  if j = n then uB else sat16 (uA + asr ((uB - uA) * (j * 2 ^ 31 / n : Nat)) 31)

/-- Blended outputs, output by output. An output of B that A does not have is u_B at once (DESIGN CHOICE, log entry 149). -/
def blendAll (j n : Nat) (uA uB : List Int) : List Int :=
  (List.range uB.length).map fun i => match uA[i]? with
    | some a => blendOut j n a (uB.getD i 0)
    | none => uB.getD i 0

/-- Values to write, by point. -/
abbrev Writes := List (Nat × Int)

/-- Writes of an instance's outputs. -/
def outW (d : LoopDesc) (us : List Int) : Writes := (List.range us.length).map fun i => (d.out + i, us.getD i 0)

/-- The positions of an instance's own limiters; an input on which it has none has no position (R201). -/
def ownLims (d : LoopDesc) (l : List (Option Int)) : List (Option Int) :=
  (List.range 4).map fun i => if (spIdx d).any (fun p => p.1 == i) then l.getD i none else none

/-- One group of a level in this frame. A blend takes n from the t_hand of the incoming member (DESIGN CHOICE, log entry 149). While the mode names no member during a blend, the blended outputs stand frozen; where the incoming
member is then named again it keeps its states and blends from them, j starting at 0 (R203). -/
def groupRun (s0 : State) (acc : State × Writes) (g : Nat) : State × Writes :=
  let (t, ws) := acc
  let ho := getHo t g
  match groupMember s0 g with
  | none =>
    match ho.active, ho.blend with
    | some a, some (og, frozen, j, n) =>
      let now := if og.isNone ∧ j = 0 then frozen else (outPas (getLoop s0 a)).map (ptV s0)
      (setHo t g ⟨some a, some (none, now, 0, n)⟩, ws)
    | _, _ => (setHo t g HandOver.zero, ws)
  | some b =>
    let d := getLoop s0 b
    match ho.active, ho.blend with
    | some a, bl =>
      if a ≠ b then
        let now := (outPas (getLoop s0 a)).map (ptV s0)
        let (t1, uA, og) := match bl with
          | some _ => (t, now, none)
          | none => let (u, v, _) := instRun s0 t a none; (u, v, some a)
        let t2 := modLs t1 b fun x => { x with lim := ownLims (getLoop s0 a) (getLs t1 a).lim }
        let (t3, uB, full) := instRun s0 t2 b (some uA)
        if full then (setHo t3 g ⟨some b, none⟩, ws ++ outW d uB)
        else (setHo t3 g ⟨some b, some (og, uA, 1, blendLen s0 d)⟩, ws ++ outW d (blendAll 0 (blendLen s0 d) uA uB))
      else
        match bl with
        | some (og, frozen, j, n) =>
          let (t1, uA) := match og with
            | some o => let (u, v, _) := instRun s0 t o none; (u, v)
            | none => (t, frozen)
          let (t2, uB, _) := instRun s0 (modLs t1 b fun x => { x with ran := true }) b none
          (setHo t2 g ⟨some b, if n ≤ j then none else some (og, frozen, j + 1, n)⟩, ws ++ outW d (blendAll j n uA uB))
        | none =>
          let (t1, u, _) := instRun s0 t b none
          (t1, ws ++ outW d u)
    | none, _ =>
      let (t1, u, _) := instRun s0 t b none
      (setHo t1 g ⟨some b, none⟩, ws ++ outW d u)

/-- One level: every instance reads the points as they stand before the level (R174), then the outputs are written (R183). -/
def levelRun (kept : List Nat) (s0 : State) (l : Nat) : State :=
  let mine := kept.filter fun n => (getLoop s0 n).level = l
  let a1 := (mine.filter fun n => (getLoop s0 n).group = 0).foldl (fun (t, ws) n =>
    let (u, v, _) := instRun s0 t n none
    (u, ws ++ outW (getLoop s0 n) v)) (s0, ([] : Writes))
  let gs := (groupNums s0).filter fun g =>
    (loopNums s0).any (fun n => (getLoop s0 n).group == g && (getLoop s0 n).level == l) &&
    (match groupMember s0 g with | some b => kept.contains b | none => true)
  let (t, ws) := gs.foldl (groupRun s0) a1
  ws.foldl (fun t (pa, v) => putPtI t pa v) t

/-! ### Fault conditions (R197, R198) -/

/-- Conditions of F_PRESS_FB, F_PRESS_FB_LOSS and F_PRESS_OBS_RES of scope σ, and of F_PRESS_GRID_LOSS. -/
def fbConds (s : State) (sig : Nat) : State :=
  let mine := (loopNums s).filter fun n => (getLs s n).ran && sigmaOf (getLoop s n).scope.toNat == sig
  let first := fun (l : List Nat) => BitVec.ofNat 32 (l.headD 0)
  let inFb := mine.filter fun n => (getLs s n).fb
  let lost := mine.filter fun n => decide (max 1 (getLoop s n).hold < (getLs s n).bad) && !(getLoop s n).grid
  let res := mine.filter fun n => decide (16 ≤ (getLs s n).resRun)
  setC (setC (setC s (684 + sig) (!inFb.isEmpty) (first inFb)) (700 + sig) (!lost.isEmpty) (first lost))
    (716 + sig) (!res.isEmpty) (first res)

def gridConds (s : State) : State :=
  let lost := (loopNums s).filter fun n => (getLs s n).ran && (getLoop s n).grid &&
    decide (max 1 (getLoop s n).hold < (getLs s n).bad)
  setC s 732 (!lost.isEmpty) (BitVec.ofNat 32 (lost.headD 0))

/-- Every Press condition after the slot. -/
def pressConds (s : State) : State := gridConds ((List.range 16).foldl fbConds s)

/-! ### The slot -/

/-- A slice's free time joins the others, which stand in rising order. -/
def freeAt (t : Nat) (l : List Nat) : List Nat := (l.takeWhile fun u => decide (u ≤ t)) ++ t :: l.dropWhile fun u => decide (u ≤ t)

/-- Cycle at which a level ends that starts at cycle t: its jobs start in order, each on the first free slice of 48 (R176). -/
def jobsEnd (t : Nat) (jobs : List Nat) : Nat :=
  maxOf (t :: jobs.foldl (fun l c => match l with | u :: r => freeAt (u + c) r | [] => []) (List.replicate 48 t))

/-- Cycles of the instances of level l in their start order: falling slot cost, then rising number; a fallback with an observer link takes
4 more (R175, R176). -/
def levelJobs (s : State) (kept : List Nat) (l : Nat) : List Nat :=
  let cost := fun n => slotCost (getLoop s n)
  let mine := sortBy (fun n m => lexLt [-(cost n : Int), n] [-(cost m : Int), m]) (kept.filter fun n => (getLoop s n).level = l)
  mine.map fun n => cost n + if !fbOk s (getLoop s n) && (obsLink (getLoop s n)).isSome then 4 else 0

/-- Cycle after T_snap, one each nanosecond, at which Level 2 ends. -/
def slotEnd (s : State) (kept : List Nat) : Nat := [4, 3, 2].foldl (fun t l => jobsEnd t (levelJobs s kept l)) 0

/-- Levels 4, 3 and 2 of one frame (R44, R50, R175, R176). -/
def pressSlot (s : State) : State :=
  let all := runList s
  let kept := keptList s
  let out := all.filter fun n => !kept.contains n
  let c := frameCost s kept
  let ends := slotEnd s kept
  let s0 := { s with press := { s.press with
    cost := c
    omitted := out
    l1Start := s.frame.tsnap + max 1000 ends } }
  let s1 := [4, 3, 2].foldl (levelRun kept) s0
  let s2 := (loopNums s1).foldl (fun t n =>
    if all.contains n then t else if (getLs t n).ran then modLs t n fun x => { x with ran := false, prep := [] } else t) s1
  let nFb := ((loopNums s2).filter fun n => (getLs s2 n).ran && (getLs s2 n).fb).length
  let s3 := putPtI (putPtI (putPtI s2 (stPa 256) out.length) (stPa 257) (min c 65535 : Nat)) (stPa 258) nFb
  let s4 := if out.isEmpty then s3 else raiseE s3 73 (BitVec.ofNat 32 out.length)
  let s5 := if 1000 < ends then raiseE s4 683 0 else s4
  pressConds s5

/-- The Press is gated in this frame: no instance runs, and one that runs again starts its limiters anew (R243, R246). -/
def pressGated (s : State) : State :=
  let s1 := (loopNums s).foldl (fun t n => if (getLs t n).ran then modLs t n fun x => { x with ran := false, prep := [] } else t) s
  { s1 with press := { s1.press with groups := [] } }

/-- The prepare parts of the frame (R45). -/
def pressPrepare (s : State) : State :=
  (loopNums s).foldl (fun t n => if (getLs t n).prep.isEmpty then t else modLs t n (kindPrep (getLoop t n) (cw t n))) s

/-! ### Configuration commit (R178) -/

/-- Pending descriptor of instance n. -/
def sLoop (s : State) (n : Nat) : LoopDesc :=
  match s.press.loopShadow.find? fun (m, _) => m = n with | some (_, d, _) => d | none => getLoop s n

/-- Writes the shadow of a loop descriptor; nothing is pending where it equals the descriptor in force. -/
def putLoop (s : State) (n : Nat) (d : LoopDesc) (owner : Option Nat) : State :=
  let sh := s.press.loopShadow
  let ch := ((below 22 fun f => loopField d f != loopField (sLoop s n) f).map (2 ^ ·)).sum
  let own := ownNow (tget (d, []) sh n).2 owner ch
  { s with press := { s.press with loopShadow := if d = getLoop s n then tdel sh n else tput sh n (d, own) } }

/-- Every instance with its pending descriptor. -/
def pendLoops (s : State) : List (Nat × LoopDesc) :=
  ((s.press.loopShadow.foldl (fun t (n, d, _) => tset LoopDesc.zero t n d) s.press.loops).filter fun (_, d) => d.kind != 0)

/-- Table 07-3 ranges; an instance in use names its output. -/
def descOk (d : LoopDesc) : Bool :=
  let pa := fun p => p == noPa || decide (p < 299008)
  decide (d.kind ≤ 8) && decide (2 ≤ d.level) && decide (d.level ≤ 4) && (scopeKey d.scope.toNat).isSome &&
  decide (1 ≤ d.order) && decide (d.order ≤ 4) && (d.kind != 7 || decide (2 ≤ d.order)) && decide (d.nu ≤ 2) &&
  pa d.in0 && pa d.in1 && pa d.in2 && pa d.in3 && (if d.kind = 0 then pa d.out else decide (d.out < 299008)) && pa d.loPt && pa d.hiPt &&
  (d.obs == 0x7FFF || decide (d.obs / 4096 ≤ 4)) && decide (d.group < 256) && decide (d.slew < 2 ^ 31) && decide (1 ≤ d.hold) &&
  decide (d.hold ≤ 64) && decide (1 ≤ d.tHand) && decide (d.tHand ≤ 1000)

/-- An exponent of R180. -/
def expOk (w : Nat) : Bool := decide (-16 ≤ cExp w) && decide (cExp w ≤ 8)

/-- A coefficient word of R180: bits 31 to 21 zero, the exponent in its range. -/
def coefOk (w : Nat) : Bool := decide (w < 2 ^ 21) && expOk w

/-- An output lies in its level's region (R183). -/
def outOk (l pa : Nat) : Bool :=
  let j := pa - 294912
  decide (294912 ≤ pa) &&
  (match l with
   | 4 => (decide (64 ≤ j) && decide (j ≤ 255)) || j == 259 || (decide (272 ≤ j) && decide (j ≤ 511))
   | 3 => decide (1024 ≤ j) && decide (j < 1792) && decide ((j - 1024) % 256 ≤ 191)
   | _ => decide (1792 ≤ j) && decide (j < 4096) &&
       (let i := (j - 1792) % 192; decide (i ≤ 1) || (decide (16 ≤ i) && decide (i ≤ 127))))

/-- The masks of two instances share no effective word; the LV field tells them apart only where both have the same LV group (R246). -/
def masksDisjoint (s : State) (a b : LoopDesc) : Bool :=
  let m := a.modeMask.toNat &&& b.modeMask.toNat
  ([(0, 3), (3, 4), (9, 4), (13, 2), (15, 4), (19, 4)].any fun (lo, n) => bitsAt m lo n == 0) ||
  (bitsAt m 7 2 == 0 && (lvGroup s a).isSome && lvGroup s a == lvGroup s b)

/-- Two instances may stand together (R183, R200). A hand-over group that fails R200 is refused with code 2, since Table 07-2 gives it none
(DESIGN CHOICE, log entry 150). -/
def pairOk (s : State) (a b : LoopDesc) : Bool :=
  if a.group ≠ 0 ∧ a.group = b.group then a.level == b.level && a.out == b.out && masksDisjoint s a b
  else (outPas a).all fun p => !(outPas b).contains p

/-- The structural fields (R181). -/
def structural (d : LoopDesc) : List Nat :=
  [d.kind, d.level, d.scope.toNat, d.order, d.nu, d.in0, d.in1, d.in2, d.in3, d.out, d.obs, d.group, d.modeMask.toNat]

/-- A structural change on a scope that holds a cell not PARKED. -/
def structBad (s : State) (n : Nat) (d : LoopDesc) : Bool :=
  let o := getLoop s n
  structural o != structural d &&
  !(cellsParked s ((if o.kind = 0 then [] else cellsOf s o.scope.toNat) ++ (if d.kind = 0 then [] else cellsOf s d.scope.toNat)))

/-- Prepare load of a set of instances. -/
def prepLoadOf (s : State) (ds : List LoopDesc) : Nat := 224 * (allCells s).length + (ds.map prepCost).sum

/-- C of check 5: every instance that is critical, below Level 4 or in a hand-over group. -/
def checkCost (ds : List LoopDesc) : Nat :=
  let l := ds.filter fun d => d.critical || d.level != 4 || d.group != 0
  costOf l (l.filter fun d => (obsLink d).isSome).length

/-- The lowest failing check of Table 07-2. -/
def pressCheck (s : State) : Option Nat :=
  let ls := pendLoops s
  let ds := ls.map (·.2)
  let words := (presentBrs s).flatMap fun b => (List.range 8).flatMap fun p =>
    [shadowWord s .pressCprof1 (8 * b + p), shadowWord s .pressCprof2 (8 * b + p), shadowWord s .pressCprof3 (8 * b + p)]
  if ds.any (fun d => !descOk d) || s.press.loopShadow.any (fun (_, d, _) => !descOk d) || words.any (fun w => !coefOk w) then some 1
  else if ds.any (fun d => (outPas d).any fun p => !outOk d.level p) ||
      ls.any (fun (n, a) => ls.any fun (m, b) => decide (n < m) && !pairOk s a b) then some 2
  else if s.press.loopShadow.any fun (n, d, _) => structBad s n d then some 3
  else if 192000 < prepLoadOf s ds then some 4
  else if 48000 < checkCost ds then some 5
  else none

/-- Commit of block 6 (R178): its descriptors take the place of those of a commit that has not yet applied (R434). -/
def commitPress (s : State) : State × Option Nat :=
  match pressCheck s with
  | some c => ({ setFld s .pressSts_cfg_refused 0 1 with press := { s.press with refuseCode := c } }, some c)
  | none =>
    let ds := (pendLoops s).map (·.2)
    let s1 := stageBlock s 6 fun _ _ => true
    ({ s1 with press := { s1.press with
        loopStaged := s1.press.loopShadow.map fun (n, d, _) => (n, d)
        loopShadow := s1.press.loopShadow.map fun (n, d, _) => (n, d, [])
        costMax := checkCost ds
        prepLoad := prepLoadOf s ds } }, none)

/-- Instance n leaves its hand-over group, or starts anew in it: no hand-over from it, nor a blend it takes part in, goes on. -/
def leaveGroup (s : State) (n : Nat) : State :=
  let g := (getLoop s n).group
  let h := getHo s g
  if g = 0 then s
  else if h.active = some n then setHo s g HandOver.zero
  else match h.blend with
    | some (some o, _) => if o = n then setHo s g { h with blend := none } else s
    | _ => s

/-- One staged descriptor takes effect: structural changes clear the instance's states, and its part in a hand-over. -/
def applyLoop (s : State) (n : Nat) (d : LoopDesc) : State :=
  let same := structural (getLoop s n) == structural d
  let s0 := if same then s else leaveGroup s n
  let s1 := { s0 with press := { s0.press with
    loops := tset LoopDesc.zero s0.press.loops n d
    loopShadow := s0.press.loopShadow.filter fun (m, x, _) => !(m == n && x == d) } }
  if same then s1 else modLs s1 n fun _ => LoopSt.zero

/-- The accepted Press settings take effect at the boundary. -/
def applyPress (s : State) : State :=
  if !applyingBlock s 6 then s
  else
    let t := s.press.loopStaged.foldl (fun t (n, d) => applyLoop t n d) (applyBlock s 6)
    { t with press := { t.press with loopStaged := [] } }

/-! ### Coefficient banks (R192) -/

/-- Word w of instance n in the inactive bank. -/
def cwIdle (s : State) (n w : Nat) : Nat :=
  (tget 0 (if s.press.activeB then s.press.bankA else s.press.bankB) (128 * n + w)).toNat

/-- Writes a word of the inactive bank. -/
def putIdle (s : State) (n w v : Nat) : State :=
  let k := 128 * n + w
  let x : Word := BitVec.ofNat 32 v
  if s.press.activeB then { s with press := { s.press with bankA := tset 0 s.press.bankA k x } }
  else { s with press := { s.press with bankB := tset 0 s.press.bankB k x } }

/-- A queue, or none, writes a word of the inactive bank. -/
def putIdleBy (s : State) (n w v : Nat) (owner : Option Nat) : State :=
  let t := putIdle s n w v
  { t with press := { t.press with
      coefOwner := match owner with
        | some q => tset 0 t.press.coefOwner (128 * n + w) (tget 0 t.press.coefOwner (128 * n + w) ||| 2 ^ q)
        | none => t.press.coefOwner } }

/-- Bank writes, commits and copies find the banks busy. -/
def bankBusy (s : State) : Bool := s.press.swapPending || s.press.copyBusy

/-- Some coefficient word of the inactive bank, as the descriptors in force or accepted name them, is not of the form of R180 (bits 31 to 21:
DESIGN CHOICE, log entry 108). A word that Table 07-4 does not name for the instance holds no exponent. -/
def bankBad (s : State) : Bool :=
  (s.press.loops ++ s.press.loopStaged).any fun (n, d) => (coefWords d).any fun w => !coefOk (cwIdle s n w)

/-- Bank commit: refused on an exponent outside R180. The flag says that it was accepted. -/
def bankCommit (s : State) : State × Bool :=
  let bad := bankBad s
  if bad then ({ setFld s .pressSts_bank_refused 0 1 with press := { s.press with refuseCode := 6 } }, false)
  else ({ s with press := { s.press with swapPending := true, coefOwner := [] } }, true)

/-- The swap at the boundary after an accepted commit. -/
def bankSwap (s : State) : State :=
  if s.press.swapPending then { s with press := { s.press with activeB := !s.press.activeB, swapPending := false } } else s

/-- A bank copy starts. -/
def bankCopy (s : State) : State := { s with press := { s.press with copyBusy := true } }

/-- The copy ends: the inactive bank equals the active one. -/
def bankCopied (s : State) : State :=
  if !s.press.copyBusy then s
  else if s.press.activeB then { s with press := { s.press with bankA := s.press.bankB, copyBusy := false, coefOwner := [] } }
  else { s with press := { s.press with bankB := s.press.bankA, copyBusy := false, coefOwner := [] } }

/-! ### Meanings -/

/-- R198: the fallback count of an instance exceeds its hold. -/
def execFeedbackLoss (inst : Nat) (s : State) : Host.Outcome State Fault Refusal :=
  onCore s fun s => gridConds (fbConds s (sigmaOf (getLoop s inst).scope.toNat))

/-- R187: an observer residual has held for 16 frames. -/
def execObserverResidual (inst : Nat) (s : State) : Host.Outcome State Fault Refusal :=
  onCore s fun s => fbConds s (sigmaOf (getLoop s inst).scope.toNat)

/-- R192: a bank copy ends. -/
def execBankCopyComplete (s : State) : Host.Outcome State Fault Refusal := onCore s bankCopied

/-- R192: PRESS_CTL.bank_commit; without effect while the banks are busy. -/
def execPressCtlBankCommit (s : State) : Host.Outcome State Fault Refusal :=
  onCore s fun s => barWo s fun s => if bankBusy s then s else (bankCommit s).1

/-- R192: PRESS_CTL.bank_copy. -/
def execPressCtlBankCopy (s : State) : Host.Outcome State Fault Refusal :=
  onCore s fun s => barWo s fun s => if bankBusy s then s else bankCopy s

end Sys2Proof.Machine
end

