-- ==== Sys2Proof/Machine/Chedd.lean ====
section
/-!
DEFINITION. Cheddaring balancer and redundancy logic (R206 to R220): roles, slots and ranks, spares, departures, arming for RUN, bypass
deadlines, headroom and deviation.
-/
namespace Sys2Proof.Machine

/-! ### Cells of a branch -/

/-- Cells of branch b with a role. -/
def roleCells (s : State) (b : Nat) (r : Role) : List Nat := (mapCells s b).filter fun c => (getCtl s c).role == r

/-- k of branch b in force (Table 08-10). -/
def redK (s : State) (b : Nat) : Nat := min 8 (fld s .chedBrCfg_k b)

/-- f: cells Isolating or Bypassed (R207). -/
def redF (s : State) (b : Nat) : Nat := (roleCells s b .isolating).length + (roleCells s b .bypassed).length

/-- A cell that may run: neither Isolating nor Bypassed, its factory record passed (R132: it stays PARKED otherwise), and no class-2 latch
of its own holds it (R285). -/
def canRun (s : State) (c : Nat) : Bool :=
  let r := (getCtl s c).role
  r != .isolating && r != .bypassed && !(getLink s c).factBad && !cellHeld s c

/-- Cell c is in RUN as the TB576 holds it (R461). -/
def inRun (s : State) (c : Nat) : Bool := heldInRun s c && (getBc s (c / 48)).entered

/-- Share weight in force. -/
def wOf (s : State) (c : Nat) : Int := h2i (getCtl s c).weight

/-! ### Ranks and slots (R209, R210) -/

/-- The inserted cells of branch b by rank. -/
def ranked (s : State) (b : Nat) : List Nat :=
  sortBy (fun c d => lexLt [-(getCtl s c).key, wOf s c, c] [-(getCtl s d).key, wOf s d, d]) (roleCells s b .inserted)

/-- slot(r) of R210. -/
def slotOf (n rho r : Nat) : Nat := (r / 2 + r % 2 * cdiv n 2 + rho) % max 1 n

/-- A cell takes a slot. -/
def setSlot (s : State) (c slot : Nat) : State := modCtl s c fun x => slotTo x slot

/-- Every inserted cell of branch b takes the slot of its rank. -/
def assignSlots (s : State) (b : Nat) : State :=
  let l := ranked s b
  let rho := (getBc s b).rho
  (List.range l.length).foldl (fun t r => setSlot t (l.getD r 0) (slotOf l.length rho r))
    (modBc s b fun x => { x with nAct := l.length })

/-- Ranks of branch b's cells (R209). -/
def rankBranch (s : State) (b : Nat) : State :=
  let l := ranked s b
  (mapCells s b).foldl (fun t c => modCtl t c fun x => { x with rank := if l.contains c then l.idxOf c else 63 }) s

/-- Inserted cells of branch b whose departure waits for the next T_snap (R216): they keep a place behind the ranked ones, for the spare. -/
def leaving (s : State) (b : Nat) : List Nat := (mapCells s b).filter fun c => let x := getCtl s c; x.decision && x.wasInserted

/-- Every inserted cell takes the slot of the rank it holds (R210), and a leaving one a slot that none of them takes. -/
def slotsByRank (s : State) (b : Nat) : State :=
  let x := getBc s b
  let n := (roleCells s b .inserted).length
  let l := leaving s b
  let s1 := (roleCells s b .inserted).foldl (fun t c => setSlot t c (slotOf x.nAct x.rho (getCtl s c).rank)) s
  (List.range l.length).foldl (fun t j => setSlot t (l.getD j 0) (slotOf x.nAct x.rho (n + j))) s1

/-- The carrier of branch b completes a period within the present frame of `ticks`, or at the boundary that ends it. -/
def periodEnds (s : State) (b : Nat) : Bool :=
  let x := tget Carrier.zero s.harp.carriers b
  (getBc s b).entered && !s.harp.halted && x.running && decide (x.valley - (s.frame.ticks : Int) + x.tc ≤ 0)

/-- Carrier periods that the frame completes. -/
def countPeriods (s : State) : State :=
  (presentBrs s).foldl (fun t b => if periodEnds t b then modBc t b fun y => { y with periods := y.periods + 1 } else t) s

/-- The next frame boundary is a rotation boundary of branch b (R210). The lists of this frame carry the slots that take effect there, so
the rotation is made at the snapshot before it, after the departures and with the ranks of that snapshot (R211; DEDUCED, log entry
109). -/
def rotate (s : State) (b : Nat) : State :=
  let x := getBc s b
  let rot := nextFld s .chedBrCfg_rot_n b
  if periodEnds s b ∧ rot ≠ 0 ∧ (x.periods + 1) % rot = 0 ∧ x.nAct ≠ 0 then
    slotsByRank (modBc s b fun y => { y with rho := (y.rho + 1) % y.nAct }) b
  else s

/-! ### Spares (R213) -/

/-- Cells that may be spares, the preferred ones first. -/
def spareOrder (s : State) (b : Nat) : List Nat :=
  let key := fun c => [if (getCtl s c).pref then (0 : Int) else 1, wOf s c, (c : Int)]
  sortBy (fun c d => lexLt (key c) (key d)) ((mapCells s b).filter (canRun s))

/-- The spare set of branch b. -/
def spareSet (s : State) (b : Nat) : List Nat := (spareOrder s b).take (redK s b - redF s b)

/-- At a plan application: at most one exchange per branch. -/
def spareExchange (s : State) (b : Nat) : State :=
  if !(getBc s b).armed then s
  else
    let want := spareSet s b
    let enter := (roleCells s b .inserted).filter want.contains
    let leave := (roleCells s b .spare).filter fun c => !want.contains c
    match enter, leave with
    | e :: _, l :: _ =>
      let slot := (getCtl s e).slot
      modCtl (modCtl s l fun x => { slotTo x slot with role := .inserted }) e fun x =>
        { slotTo x 63 with role := .spare, rank := 63 }
    | _, _ => s

/-! ### Arming (R207, R461) -/

/-- ARM leaves on both lanes of branch b for F(k + 1) (R461). Cells that are not yet in RUN start their DAB and their counts anew. -/
def sendArm (s : State) (b : Nat) (role : Nat → Role) : State :=
  let k := s.frame.k
  let fresh := !(getBc s b).entered
  let s1 := sendBoth s b .link (linkB 5 0x80 (leB 2 (k + 1)))
  let s2 := ((mapCells s b).filter (canRun s)).foldl (fun t c =>
    let t1 := modCtl t c fun x =>
      let y := { slotTo x 63 with role := role c }
      if fresh then { y with dabI := 0, ok := 0, bad := 0, fb := false } else y
    modLink t1 c fun x => { x with armed := some (k + 1) }) s1
  modBc s2 b fun x => { x with armed := true, restart := false, classTwo := false }

/-- The carriers of a branch that is not yet in RUN start at the next boundary (R145, R461). -/
def startCarrier (s : State) (b : Nat) : State :=
  let tc := profTc s b
  if (getBc s b).entered then s
  else { s with harp := { s.harp with carriers := tset Carrier.zero s.harp.carriers b ⟨true, (s.frame.ticks : Int), tc, tc⟩ } }

/-- Branch b can be armed: f does not exceed k, and its selected profile is not invalid (R153). -/
def canArm (s : State) (b : Nat) : Bool := decide (redF s b ≤ redK s b) && !s.harp.invalid.contains (profIdx s b)

/-- Branch b is armed for RUN with the roles of R207 and slots; its carriers start at the next boundary, unless an LV-side precharge has
started them (R145, R461). -/
def armBranch (s : State) (b : Nat) : State :=
  if !canArm s b then disarm s b
  else
    let sp := spareSet s b
    let s1 := sendArm s b fun c => if sp.contains c then .spare else .inserted
    let s2 := modBc s1 b fun x => { x with
      joining := false
      rho := 0
      periods := 0
      hrRun := 0 }
    assignSlots (startCarrier s2 b) b

/-- An LV-side precharge arms the cells of branch b as Spares; the branch and its carriers enter RUN at the next boundary (R239, R461). -/
def armSpares (s : State) (b : Nat) : State :=
  if !canArm s b then disarm s b
  else startCarrier (modBc (sendArm s b fun _ => .spare) b fun x => { x with nAct := 0, periods := 0 }) b

/-- Branches armed at the boundary before enter RUN (R461). -/
def enterRun (s : State) : State :=
  (presentBrs s).foldl (fun t b =>
    if (getBc t b).armed ∧ ((mapCells t b).any fun c => heldInRun t c) then modBc t b fun y => { y with entered := true } else t) s

/-! ### Departures (R216) -/

/-- The spare that replaces an inserted cell of branch b. -/
def replacement (s : State) (b : Nat) : Option Nat :=
  (sortBy (fun c d => lexLt [-wOf s c, absI (getCtl s c).key, c] [-wOf s d, absI (getCtl s d).key, d]) (roleCells s b .spare)).head?

/-- The redundancy logic takes the decision on cell c. -/
def depart (s : State) (c : Nat) : State :=
  let x := getCtl s c
  let s1 := modCtl s c fun x => { slotTo x 63 with decision := false, wasInserted := false, rank := 63 }
  if x.wasInserted ∧ (getBc s (c / 48)).armed then
    match replacement s1 (c / 48) with
    | some d => modCtl s1 d fun y => { slotTo y x.slot with role := .inserted }
    | none => modBc s1 (c / 48) fun y => { y with reslot := true }
  else s1

/-- Cells whose fault decision waits. -/
def decided (s : State) : List Nat := (allCells s).filter fun c => (getCtl s c).decision

/-- T_snap: the decisions `due` in ascending cell number, then the branches whose f exceeds k; F_CHED_EXHAUST follows. -/
def departures (s : State) (due : List Nat) : State :=
  let s1 := due.foldl depart s
  let many := (presentBrs s1).filter fun b => decide (redK s1 b < redF s1 b)
  let s2 := (presentBrs s1).foldl (fun t b =>
    if (getBc t b).reslot then
      let t1 := modBc t b fun y => { y with reslot := false, exhausted := many.contains b }
      if (getBc t b).armed then assignSlots t1 b else modBc t1 b fun y => { y with nAct := (roleCells t1 b .inserted).length }
    else modBc t b fun y => { y with exhausted := many.contains b }) s1
  setC s2 769 (!many.isEmpty) (BitVec.ofNat 32 (many.headD 0))

/-! ### Bypass deadlines (R217, R218) -/

/-- F_CHED_BYP_FAIL when the closure was not confirmed by its boundary. -/
def bypassCheck (s : State) (c : Nat) : State :=
  match (getCtl s c).bypBy with
  | some k => if k ≤ s.frame.k then
      raiseE (modCtl s c fun x => { x with bypBy := none }) (757 + c / 48) (BitVec.ofNat 32 c) else s
  | none => s

/-- A restore that no uplink confirmed in time fails; the cell stays Bypassed. -/
def restoreCheck (s : State) (c : Nat) : State :=
  match (getCtl s c).restBy with
  | some k => if k ≤ s.frame.k then modCtl s c fun x => { x with restBy := none, bypOpen := false } else s
  | none => s

/-- Starts a restore (R218). -/
def startRestore (s : State) (c : Nat) : State := modCtl s c fun x => { x with bypOpen := true, restBy := some (s.frame.k + 4) }

/-! ### Headroom and deviation (R219) -/

/-- hr_n in force. -/
def hrN (s : State) : Nat := max 1 (fld0 s .chedCfg_hr_n)

/-- F_CHED_HEADROOM of branch b follows its run of frames. -/
def headroomCheck (s : State) (b : Nat) : State :=
  setC s (770 + b) (decide (hrN s ≤ (getBc s b).hrRun)) (BitVec.ofNat 32 b)

/-- F_CHED_DEV of cell c follows its run of frames. -/
def deviationCheck (s : State) (c : Nat) : State :=
  setC s (cellSrc c 18) (decide (100 ≤ (getCtl s c).devRun)) (BitVec.ofNat 32 c)

/-- Branch b is in RUN with the station, not in a precharge of its own (R219; DEDUCED, log entry 137). -/
def brInRun (s : State) (b : Nat) : Bool := s.mode.conv == .run && (getBc s b).entered && !(getBc s b).joining

/-- The checks after Level 1, for each branch in RUN. -/
def watchBranch (s : State) (b : Nat) : State :=
  let high := brInRun s b && decide (ptV s (brPa b 5) < absI (ptV s (brPa b 0)))
  let s1 := headroomCheck (modBc s b fun x => { x with hrRun := if high then min (x.hrRun + 1) 1023 else 0 }) b
  (mapCells s1 b).foldl (fun t c =>
    let dev := brInRun t b && inRun t c && decide ((fld0 t .chedCfg_dev_max : Int) < absI (getCtl t c).key)
    deviationCheck (modCtl t c fun x => { x with devRun := if dev then min (x.devRun + 1) 100 else 0 }) c) s1

/-! ### Meanings -/

/-- R219: the headroom run. -/
def execHeadroomRun (br : Br) (s : State) : Host.Outcome State Fault Refusal := onCore s fun s => headroomCheck s br

/-- R219: the deviation run. -/
def execDeviationRun (cell : Cell) (s : State) : Host.Outcome State Fault Refusal := onCore s fun s => deviationCheck s cell

/-- R217: the bypass deadline. -/
def execBypassConfirmTimeout (cell : Cell) (s : State) : Host.Outcome State Fault Refusal := onCore s fun s => bypassCheck s cell

/-- R218: the restore deadline. -/
def execRestoreTimeout (cell : Cell) (s : State) : Host.Outcome State Fault Refusal := onCore s fun s => restoreCheck s cell

end Sys2Proof.Machine
end

