-- ==== Sys2Proof/Machine/CfgImage.lean ====
section
/-!
DEFINITION. The configuration image (R435) and the digest of the twin (R436).
-/
namespace Sys2Proof.Machine

/-! ### Register pairs -/

/-- Element i of a register exists on this device: the branch or lane it belongs to is present (R2). -/
def regPresent (s : State) (r : RegName) (i : Nat) : Bool :=
  match regKey r i with
  | ⟨2, b⟩ => brPresent s b
  | _ => true

/-- Shadowed registers of block n by rising address. -/
def blockRegs (s : State) (n : Nat) : List (RegName × Nat) :=
  let l := (allRegs.filter fun r => r.block = some n && r.mask (· == .rws) != 0).flatMap fun r =>
    ((List.range r.place.count).map (r.place.first + ·)).map fun i => (r, i)
  let l := l.filter fun (r, i) => regPresent s r i
  let as := (sortBy (fun a b => decide (a < b)) (l.map fun (r, i) => r.addr i))
  as.filterMap regAt

/-- Committed value of a register, its shadowed bits only. -/
def committed (s : State) (r : RegName) (i : Nat) : Nat := rword s r i &&& rwsMask r i

/-! ### Records -/

/-- The descriptor of Table 07-3, each field in its smallest whole number of bytes, and a zero byte. -/
def loopDescB (d : LoopDesc) : List Byte :=
  leB 1 d.kind ++ leB 1 d.level ++ leB 2 d.scope.toNat ++ leB 1 d.order ++ leB 1 d.nu ++ leB 3 d.in0 ++ leB 3 d.in1 ++ leB 3 d.in2 ++
  leB 3 d.in3 ++ leB 3 d.out ++ leB 3 d.loPt ++ leB 3 d.hiPt ++ leB 2 d.loC.toNat ++ leB 2 d.hiC.toNat ++ leB 2 d.obs ++
  leB 1 (b2n d.grid) ++ leB 1 (b2n d.critical) ++ leB 1 d.group ++ leB 4 d.modeMask.toNat ++ leB 4 d.slew ++ leB 1 d.hold ++
  leB 2 d.tHand ++ leB 1 0

/-- A descriptor from its 48 bytes. -/
def loopDescOf (l : List Byte) : LoopDesc :=
  { kind := fieldAt l 0 1
    level := fieldAt l 1 1
    scope := BitVec.ofNat 16 (fieldAt l 2 2)
    order := fieldAt l 4 1
    nu := fieldAt l 5 1
    in0 := fieldAt l 6 3
    in1 := fieldAt l 9 3
    in2 := fieldAt l 12 3
    in3 := fieldAt l 15 3
    out := fieldAt l 18 3
    loPt := fieldAt l 21 3
    hiPt := fieldAt l 24 3
    loC := BitVec.ofNat 16 (fieldAt l 27 2)
    hiC := BitVec.ofNat 16 (fieldAt l 29 2)
    obs := fieldAt l 31 2
    grid := fieldAt l 33 1 != 0
    critical := fieldAt l 34 1 != 0
    group := fieldAt l 35 1
    modeMask := BitVec.ofNat 32 (fieldAt l 36 4)
    slew := fieldAt l 40 4
    hold := fieldAt l 44 1
    tHand := fieldAt l 45 2 }

/-- A point descriptor (Table 13-25) with its writer code. -/
def pointDescB (d : Desc) (writer : Nat) : List Byte :=
  leB 2 d.min.toNat ++ leB 2 d.max.toNat ++ leB 2 d.rateMax ++ leB 1 d.staleTo ++ leB 1 (d.noise % 16 + 16 * (d.base % 8)) ++
  leB 2 (d.frzN % 1024 + 1024 * (writer % 8)) ++ leB 2 0 ++ leB 4 d.fs

/-- A point descriptor from its 16 bytes. -/
def pointDescOf (l : List Byte) : Desc :=
  { min := BitVec.ofNat 16 (fieldAt l 0 2)
    max := BitVec.ofNat 16 (fieldAt l 2 2)
    rateMax := fieldAt l 4 2
    staleTo := fieldAt l 6 1
    noise := byteAt l 7 % 16
    base := byteAt l 7 / 16 % 8
    frzN := fieldAt l 8 2 % 1024
    fs := fieldAt l 12 4 }

/-- The loop record of an instance in use. -/
def loopRecB (s : State) (n : Nat) : List Byte :=
  let d := getLoop s n
  let ws := loopWords d
  leB 2 n ++ leB 2 ws.length ++ loopDescB d ++ ws.flatMap fun w => leB 4 (cw s n w)

/-! ### Images -/

/-- An image of Table 18-4 from its pairs. -/
def imageOf (s : State) (pairs : List (Nat × Nat)) : List Byte :=
  let loops := loopNums s
  let body := (pairs.flatMap fun (a, v) => leB 4 a ++ leB 4 v) ++
    ((List.range 4608).flatMap fun i => pointDescB (getDesc s i) (writerOf (descPa i))) ++ loops.flatMap (loopRecB s)
  leB 4 0x0576C0F1 ++ leB 4 (32 + body.length) ++ leB 4 pairs.length ++ leB 2 loops.length ++
    leB 2 (fld0 s .sysId_cell_capacity) ++ zeroB 16 ++ body

/-- The pairs of a block. -/
def blockPairs (s : State) (n : Nat) : List (Nat × Nat) := (blockRegs s n).map fun (r, i) => (r.addr i, committed s r i)

/-- The configuration image. -/
def configImage (s : State) : List Byte := imageOf s (((List.range 13).map (· + 1)).flatMap (blockPairs s))

/-- The pair of a register in the digest image. -/
def digestPair (s : State) (r : RegName) (i : Nat) : Option (Nat × Nat) :=
  let v := committed s r i
  match r with
  | .affDieCfg => none
  | .twinCfg => some (r.addr i, v - bitsAt v 1 7 * 2)
  | .laneCfg => some (r.addr i, fld s .laneCfg_coding i * 2 ^ Fld.laneCfg_coding.spec.lo +
      fld s .laneCfg_keepalive i * 2 ^ Fld.laneCfg_keepalive.spec.lo)
  | _ => some (r.addr i, v)

/-- The configuration digest (R436). -/
def cfgDigest (s : State) : Word :=
  crc32 (imageOf s (((List.range 10).map (· + 1)).flatMap fun n => (blockRegs s n).filterMap fun (r, i) => digestPair s r i))

end Sys2Proof.Machine
end

