-- ==== Sys2Proof/Machine/Level1.lean ====
section
/-!
DEFINITION. Level 1 (R194 to R196): the Level 2 intake, the profile stage, and the bridge command of every cell.
-/
namespace Sys2Proof.Machine

/-! ### Intake (R194) -/

/-- v of a cell: PT_VDC where valid, else its estimate. -/
def vOf (s : State) (c : Nat) : Int := if ptValid s (cellPa c 0) then ptV s (cellPa c 0) else (getCtl s c).est

/-- Mean of a list rounded down, 0 for none (DESIGN CHOICE, log entry 138). -/
def meanI (l : List Int) : Int := if l.isEmpty then 0 else l.foldl (· + ·) 0 / (l.length : Int)

/-- 1 / WMEAN in Q2.14, rounded down and limited to 0x7FFF, which also stands for a WMEAN of 0 or below (DESIGN CHOICE, log entry 138). -/
def recipW (w : Int) : Int := if w ≤ 0 then 0x7FFF else min 0x7FFF (2 ^ 29 / w)

/-- Cells that the bridge commands of the previous frame counted in n_act. -/
def wasInsertedCells (s : State) (b : Nat) : List Nat :=
  (mapCells s b).filter fun c => match (getCh s c).cmd with
    | some (_, slot, _, _, _, run) => run && slot != 63
    | none => false

/-- The branch points of Table 07-5 that the intake writes. -/
def intakeBranch (s : State) (b : Nat) : State :=
  let ins := wasInsertedCells s b
  let cur := ((mapCells s b).filter fun c => inRun s c && ptValid s (cellPa c 3)).map fun c => ptV s (cellPa c 3)
  let vs := ins.map (vOf s)
  let wm := if ins.isEmpty then 0x7FFF else meanI (ins.map (wOf s))
  let rw_ := if ins.isEmpty then 0x4000 else recipW wm
  [(2, meanI cur), (4, (ins.length : Int)), (5, meanI vs), (6, meanI (vs.map fun v => asr (v * v) 15)), (7, wm), (8, rw_)].foldl
    (fun t (i, v) => putPtI t (brPa b i) v) s

/-- The points that show a cell's place in its branch (Tables 07-6, 08-2). -/
def cellPlace (s : State) (c : Nat) : State :=
  let x := getCtl s c
  let code : Nat := match x.role with | .idle => 0 | .inserted => 1 | .spare => 2 | .isolating => 3 | .bypassed => 4
  let s1 := putPt (putPt s (cellPa c 133) x.weight) (cellPa c 134) x.ilim
  [(137, if x.role = .inserted then x.rank else 63), (138, code), (139, min x.slotAge 0xFFFF), (140, b2n x.pref)].foldl
    (fun t (i, v) => putPtI t (cellPa c i) (v : Nat)) s1

/-- The profile stage at a frame boundary: PT_BR_PROF_REQ is taken, or refused once (R194, R23). -/
def profileStage (s : State) (b : Nat) : State :=
  let req := (seePt s (brPa b 128)).val.toNat
  if 7 < req ∨ s.harp.invalid.contains (8 * b + req) then
    if (getBc s b).badProf = some req then s
    else raiseE (modBc s b fun x => { x with badProf := some req }) (733 + b) (BitVec.ofNat 32 req)
  else
    let s1 := modBc s b fun x => { x with badProf := none }
    putPtI { s1 with harp := { s1.harp with profile := tset 0 s1.harp.profile b req } } (brPa b 3) req

/-! ### The bridge command (R195) -/

/-- The quantities of one Level 1 step. -/
structure Step1 where
  v : Int
  vt : Int
  pmv : Int
  pd : Int
  pn : Int
  integ : Int
  m : Int
  phi : Int
  d : Int
  sat : Bool
deriving DecidableEq, Repr

/-- The computation of R195 on v, with DAB integrator i. -/
def step1 (s : State) (c : Nat) (v i : Int) : Step1 :=
  let b := c / 48
  let p := profIdx s b
  let w := wOf s c
  let il := h2i (getCtl s c).ilim
  let wr := asr (w * ptV s (brPa b 8)) 15
  let uc := sat16 (asr (ptV s (brPa b 0) * wr) 14)
  let vt := sat16 (asr (ptV s (brPa b 1) * wr) 14)
  let ib := ptV s (brPa b 2)
  let idb := max 0 (sx 16 (fld s .pressCprof0_i_db p))
  let sg : Int := if idb < ib then 1 else if ib < -idb then -1 else 0
  let m0 := if v < 0x1000 then 0 else sat16 (asr (uc * recip v) 12)
  let m := sat16 (m0 - sg * asr (fld s .pressCprof0_k_bal p * sat16 (v - vt)) 11)
  let pmv := sat16 (asr (uc * ib) 15)
  let lim := min (sx 16 (fld s .pressCprof4_p_lim p)) (sat16 (asr (il * v) 15))
  let e := sat16 (v - vt)
  let (i', pd) := piCore (sat40 (q31 pmv + mulc e (fld s .pressCprof1_kp_dab p))) e (fld s .pressCprof2_ki_dab p) (-lim) lim i
  let q := sat16 (asr (sat16 (asr (pd * recip v) 12) * recip (ptV s (cellPa c 1))) 12)
  let pn := rnd16 (mulc q (fld s .pressCprof3_k_dab p))
  let (phi, d, sat) := dabLaw pn (fld s .harpProfDab_law p) (fld s .pressCprof5_kd p) (min 0x4000 (fld s .pressCprof5_d_max p))
  ⟨v, vt, pmv, pd, pn, i', m, phi, d, sat⟩

/-- byp of a cell's bridge command (Table 08-1, R218). -/
def bypOf (s : State) (c : Nat) : Nat :=
  let x := getCtl s c
  if x.role = .isolating then 1 else if x.role = .bypassed ∧ x.bypOpen then 2 else 0

/-- The feedback check of Level 1 at a snapshot (R197, R198), with the cell's conditions and PT_L1_FB. It runs for every cell, also for one
that Level 1 leaves without a new computation (R43, R51; log entry 88). -/
def level1Check (s : State) (c : Nat) : State :=
  let x := getCtl s c
  let hold := max 1 (fld0 s .pressL1Cfg_hold)
  let runs := x.role == .inserted || x.role == .spare
  let ok := ptValid s (cellPa c 0)
  let (o, n) := if runs then checkFb ok hold x.ok x.bad else (0, 0)
  let fb := runs && !ok
  let s1 := modCtl s c fun y => { y with ok := o, bad := n, fb := fb }
  let s2 := setC (setC s1 (cellSrc c 16) fb (BitVec.ofNat 32 n)) (cellSrc c 17) (decide (hold < n)) (BitVec.ofNat 32 n)
  putPtI s2 (cellPa c 82) ((n + 256 * b2n fb : Nat) : Int)

/-- Level 1 for one cell: its bridge command and points. -/
def level1Cell (s : State) (c : Nat) : State :=
  let x := getCtl s c
  let r := step1 s c (vOf s c) x.dabI
  let slot := if x.role = .inserted then x.slot else 63
  let run := heldInRun s c
  let live := inRun s c
  let integ := if live then r.integ else 0
  let byp := bypOf s c
  let key := sat16 (r.v - r.vt)
  let s1 := modCtl s c fun y => { y with dabI := integ, prep := some (r.v, r.pmv, r.pd), key := key }
  let s2 := modCh s1 c fun y => { y with cmd := some (r.m, slot, r.phi, r.d, byp, run), newCmd := true }
  [(77, r.vt), (78, r.pmv), (79, r.pd), (80, r.pn), (81, rnd16 integ), (128, r.m),
    (129, (slot : Int)), (130, r.phi), (131, r.d), (132, ((byp + 4 * b2n run + 8 * b2n r.sat : Nat) : Int)), (136, key)].foldl
    (fun t (i, y) => putPtI t (cellPa c i) y) s2

/-- t_del of a cell in ns (R44). -/
def tDel (s : State) (c : Nat) : Nat := 264 + relayOf s c + hopBound s * hopsOf s c

/-- Served cells by falling t_del, then rising number (R44, R53). -/
def byDelivery (s : State) : List Nat :=
  sortBy (fun c d => lexLt [-(tDel s c : Int), c] [-(tDel s d : Int), d]) (servedCells s)

/-- The Level 1 order (R44): without the branches that fail the check of R53. -/
def level1Order (s : State) : List Nat := (byDelivery s).filter fun c => !s.frame.budgetFail.getLsbD (c / 48)

/-- The feedback checks of all mapped cells. -/
def level1Checks (s : State) : State := (allCells s).foldl level1Check s

/-- Level 1 over the cells, each in time for R46 or left without a new computation (R51). -/
def level1 (s : State) : State :=
  let l := level1Order s
  let ns := s.frame.ticks / 4
  (List.range l.length).foldl (fun t j =>
    let c := l.getD j 0
    if t.press.l1Start + 6 * (j + 1) + tDel t c + 200 ≤ ns then level1Cell t c else t) s

/-- The prepare part of Level 1: PT_VDC_EST (R195). -/
def level1Prepare (s : State) : State :=
  (allCells s).foldl (fun t c =>
    match (getCtl t c).prep with
    | some (v, pmv, pd) =>
      let kc : Int := fld t .pressCprof4_kc (profIdx t (c / 48))
      let est := if inRun t c then sat16 (v + asr (kc * sat16 (pmv - pd)) 19) else v
      putPtI (modCtl t c fun x => { x with est := est, prep := none }) (cellPa c 76) est
    | none => t) s

end Sys2Proof.Machine
end

