-- ==== Sys2Proof/Machine/Twin.lean ====
section
/-!
DEFINITION. Twin operation (R221 to R232): start-up, frame following, heartbeats, mirror, takeover, planned swap, demotion, split feed
and far-end calibration.
-/
namespace Sys2Proof.Machine

/-! ### What the devices send -/

/-- Changes the twin state. -/
def modTw (s : State) (f : Twin → Twin) : State := { s with twin := f s.twin }

/-- A peer part on both lanes. -/
def peerBoth (s : State) (l : List Byte) : State := send (send s (.lane 26 .first l)) (.lane 27 .first l)

/-- A peer lane is UP (Table 03-8), and it carries traffic: UP or DEGRADED. -/
def peerUp (s : State) (lane1 : Bool) : Bool := (getLane s (26 + b2n lane1)).mode == .up
def peerLive (s : State) (lane1 : Bool) : Bool := peerUp s lane1 || (getLane s (26 + b2n lane1)).mode == .degraded

/-- The P-MARK of F(k) (Table 08-5). -/
def sendPMark (s : State) : State :=
  let l := leB 1 4 ++ leB 1 s.frame.k ++ leB 4 0
  send (send s (.lane 26 .mark (markB (laneCoding s 26) l))) (.lane 27 .mark (markB (laneCoding s 27) l))

/-- A heartbeat (Table 08-6). -/
def heartbeatB (s : State) (half : Bool) : List Byte :=
  let yield_ := s.twin.role == .primary && s.twin.swapAt.isSome
  let bits := b2n (fld0 s .twinCfg_end == 1) + 2 * b2n (s.twin.role == .primary) + 4 * b2n s.twin.ready + 8 * b2n yield_ + 16 * b2n half
  let l := leB 1 1 ++ leB 1 bits ++ leB 2 s.twin.epoch ++ leB 6 s.frame.k ++ leB 4 (ux 32 (s.twin.tOwn.getD 0)) ++
    leB 4 (cfgDigest s).toNat ++ leB 2 (if yield_ then s.twin.swapAt.getD 0 else 0)
  l ++ leB 4 (crc32 l).toNat

/-- ROLE with the current epoch on every chain lane (R104, R229). -/
def sendRole (s : State) : State := (presentBrs s).foldl (fun t b => sendBoth t b .link (roleB t)) s

/-- What a device in twin sends at F(k) + 0 (R223, R229). -/
def twinSendsFrame (s : State) : State :=
  match s.twin.role with
  | .off => s
  | .primary => sendRole (peerBoth (sendPMark s) (heartbeatB s false))
  | .standby => peerBoth (sendPMark s) (heartbeatB s false)

/-! ### Mirror (R225, Table 08-7) -/

/-- State words of instance n that the mirror carries: index and value. -/
def mirrorWords (s : State) (n : Nat) : List (Nat × Int) :=
  let d := getLoop s n
  let x := getLs s n
  let r := List.range d.order
  match d.kind with
  | 1 => [(0, x.integ.getD 0 0)]
  | 2 => [(0, x.integ.getD 0 0)] ++ r.map (fun j => (6 + j, x.s1.getD j 0)) ++ r.map fun j => (10 + j, x.s2.getD j 0)
  | 7 => r.map fun j => (2 + j, x.integ.getD j 0)
  | 8 => [(0, x.w), (1, x.theta)]
  | _ => []

/-- Every state word, by ascending instance and index. -/
def allMirrorWords (s : State) : List (Nat × Nat × Int) :=
  (loopNums s).flatMap fun n => (mirrorWords s n).map fun (i, v) => (n, i, v)

/-- A loop record. -/
def loopRec8 (x : Nat × Nat × Int) : List Byte := leB 2 (x.1 + 4096 * x.2.1) ++ leB 5 (ux 40 x.2.2) ++ leB 1 0

/-- A cell record. -/
def cellRec12 (s : State) (c : Nat) : List Byte :=
  if (getLink s c).inMap then
    let x := getCtl s c
    let code := match x.role with | .idle => 0 | .inserted => 1 | .spare => 2 | .isolating => 3 | .bypassed => 4
    leB 5 (ux 40 x.dabI) ++ leB 2 (ux 16 x.est) ++
      leB 1 ((if x.role = .inserted then x.slot else 63) + 64 * min 3 (getCh s c).staleCount) ++ leB 1 code ++ leB 3 (ux 20 (dOf s c))
  else zeroB 12

/-- The mirror record of this frame, with the loop records from position `pos`. -/
def mirrorB (s : State) (pos : Nat) : List Byte :=
  let ws := allMirrorWords s
  let n := min 311 ws.length
  let recs := ((ws ++ ws).drop pos).take n
  let l := leB 6 s.frame.k ++ leB 2 s.twin.epoch ++ leB 1 (b2n s.press.activeB) ++ leB 1 0 ++ leB 2 n ++
    ((List.range 12).flatMap fun b => leB 1 (getBc s b).rho) ++ ((List.range 12).flatMap fun b => leB 1 (getBr s b).split) ++
    leB 4 s.aff.inForce ++ zeroB 24 ++
    ((List.range 12).flatMap fun b => ((List.range 7).flatMap fun i => leB 2 (getPt s (brPa b (2 + i))).val.toNat) ++ zeroB 2) ++
    zeroB 64 ++ ((List.range 576).flatMap (cellRec12 s)) ++ padB 2488 (recs.flatMap loopRec8)
  l ++ leB 4 (crc32 l).toNat ++ zeroB 4

/-- The primary sends its mirror at the end of the compute phase: every frame on two lanes, every second frame on one. -/
def sendMirror (s : State) : State :=
  let two := peerLive s false && peerLive s true
  if s.twin.role ≠ .primary ∨ outputsHeld s ∨ (!two && s.frame.k % 2 == 1) then s
  else
    let w := (allMirrorWords s).length
    let l := mirrorB s s.twin.rotPos
    let s1 := (List.range 87).foldl (fun t i =>
      let lane1 := if two then i % 2 == 1 else !peerLive t false
      send t (.lane (26 + b2n lane1) .first (leB 1 2 ++ leB 1 0 ++ leB 2 i ++ padB 112 (l.drop (112 * i))))) s
    modTw s1 fun x => { x with rotPos := if w ≤ 311 then 0 else (x.rotPos + 311) % w }

/-- A mirrored state word goes into the loop states. -/
def loadWord (s : State) (n i : Nat) (v : Int) : State :=
  modLs s n fun x =>
    if i = 0 then (if (getLoop s n).kind = 8 then { x with w := v } else { x with integ := x.integ.set 0 v })
    else if i = 1 then { x with theta := (v % 2 ^ 32).toNat }
    else if i < 6 then { x with integ := x.integ.set (i - 2) v }
    else if i < 10 then { x with s1 := (x.s1 ++ List.replicate 4 0).take 4 |>.set (i - 6) v }
    else { x with s2 := (x.s2 ++ List.replicate 4 0).take 4 |>.set (i - 10) v }

/-- Loop records of a mirror: instance, index, value. -/
def mirrorRecs (l : List Byte) : List (Nat × Nat × Int) :=
  (List.range (min 311 (fieldAt l 10 2))).map fun i =>
    let o := 7232 + 8 * i
    let h := fieldAt l o 2
    let idx := h / 4096
    (h % 4096, idx, if idx = 1 then (fieldAt l (o + 2) 5 : Int) else sx 40 (fieldAt l (o + 2) 5))

/-- The standby keeps the words of its shadow loops as they stand at the end of a compute phase, for the mirrors of its last frames
(R226). -/
def keepShadow (s : State) : State :=
  if standby s then modTw s fun x => { x with shadow := ((s.frame.k, allMirrorWords s) :: x.shadow).take 4 } else s

/-- A record of the mirror of frame m differs from the shadow value of that frame by more than 2^−10 pu (R226). -/
def diverges (s : State) (m : Nat) (x : Nat × Nat × Int) : Bool :=
  match s.twin.shadow.find? fun e => e.1 == m with
  | some (_, ws) =>
    match ws.find? fun (n, i, _) => n == x.1 && i == x.2.1 with
    | some (_, _, v) => decide (2 ^ 21 < absI (v - x.2.2))
    | none => false
  | none => false

/-- One cell of a mirror. -/
def loadCell (s : State) (l : List Byte) (c : Nat) : State :=
  let o := 320 + 12 * c
  let at_ := fun i n => fieldAt l (o + i) n
  let role : Role := match at_ 8 1 % 8 with | 1 => .inserted | 2 => .spare | 3 => .isolating | 4 => .bypassed | _ => .idle
  let i := sx 40 (at_ 0 5)
  let slot := at_ 7 1 % 64
  let s1 := modCtl s c fun x => { slotTo x slot with dabI := i, est := sx 16 (at_ 5 2), role := role }
  let s2 := modLink s1 c fun x => { x with pathSent := some (at_ 9 3) }
  let s3 := modCh s2 c fun x => { x with staleCount := at_ 7 1 / 64 }
  [(76, sx 16 (at_ 5 2)), (81, rnd16 i), (129, (slot : Int)), (135, (at_ 7 1 / 64 : Nat)), (138, (at_ 8 1 % 8 : Nat))].foldl
    (fun t (j, v) => putPtI t (cellPa c j) v) s3

/-- One branch of a mirror: its split, ρ and intake points; it is armed as its cells are. -/
def loadBranch (s : State) (l : List Byte) (b : Nat) : State :=
  let v := fieldAt l (24 + b) 1
  let own := ownEnd s
  let far := (mapCells s b).any fun c => match own with | some e => decide (c % 48 < v) != e | none => false
  let s1 := modBr s b fun x => { x with split := v, relay := far }
  let live := (mapCells s1 b).filter fun c => let r := (getCtl s1 c).role; r == .inserted || r == .spare
  let ins := roleCells s1 b .inserted
  let s2 := modBc s1 b fun x => { x with
    rho := fieldAt l (12 + b) 1
    armed := !live.isEmpty
    entered := !live.isEmpty
    nAct := ins.length }
  (List.range 7).foldl (fun t i => putPtI t (brPa b (2 + i)) (sx 16 (fieldAt l (64 + 16 * b + 2 * i) 2))) s2

/-- A mirror is dropped and counted (R225). -/
def dropMirror (s : State) : State :=
  modTw (countSat s .twinCntMdrop .twinCntSat 0 1 1) fun x => { x with rxChunks := [], mirror := none, mirrorsOk := 0 }

/-- The standby applies a complete mirror at T_snap, after comparing its shadow values (R225, R226). -/
def applyMirror (s : State) : State :=
  match s.twin.mirror with
  | none => s
  | some l =>
    if (crc32 (l.take 9720)).toNat ≠ fieldAt l 9720 4 then dropMirror s
    else
      let recs := mirrorRecs l
      let s1 := if recs.any (diverges s (fieldAt l 0 6)) then raiseE (countSat s .twinCntDiverge .twinCntSat 0 2 1) 786 0 else s
      let s0 := { s1 with press := { s1.press with activeB := byteAt l 8 != 0 } }
      let s2 := recs.foldl (fun t (n, i, v) => loadWord t n i v) s0
      let s3 := (allCells s2).foldl (fun t c => loadCell t l c) s2
      let s4 := (presentBrs s3).foldl (fun t b => loadBranch t l b) s3
      modTw s4 fun x => { x with mirror := none, mirrorsOk := min 64 (x.mirrorsOk + 1) }

/-- A mirror chunk arrives. A chunk that is held already starts the next mirror, and the incomplete one is dropped. -/
def mirrorChunk (s : State) (l : List Byte) : State :=
  let i := fieldAt l 2 2
  if s.twin.role ≠ .standby ∨ l.length ≠ 116 ∨ byteAt l 0 ≠ 2 ∨ 86 < i then s
  else
    let s1 := if s.twin.rxChunks.any fun (j, _) => j = i then dropMirror s else s
    let s0 := if s1.twin.rxChunks.isEmpty then modTw s1 fun x => { x with rxFrom := s.frame.k } else s1
    let t := tput s0.twin.rxChunks i (l.drop 4)
    if t.length = 87 then modTw s0 fun x => { x with rxChunks := [], mirror := some ((t.flatMap (·.2)).take 9728) }
    else modTw s0 fun x => { x with rxChunks := t }

/-- Frame m of the mirror that is being received: its first bytes, or until they are held the frame in which its first chunk came. -/
def mirrorFrame (s : State) : Nat := match tget [] s.twin.rxChunks 0 with | [] => s.twin.rxFrom | l => fieldAt l 0 6

/-- A mirror of frame m that is not complete by F(m + 2) is dropped (R225). -/
def mirrorLate (s : State) : State :=
  if standby s ∧ !s.twin.rxChunks.isEmpty ∧ mirrorFrame s + 2 ≤ s.frame.k then dropMirror s else s

/-! ### Roles -/

/-- An epoch is newer than another (R104). -/
def newerEpoch (new cur : Nat) : Bool := let d := (new + 65536 - cur % 65536) % 65536; decide (1 ≤ d) && decide (d ≤ 32767)

/-- The own end serves every cell of branch b from frame k. -/
def takeBranch (s : State) (b k : Nat) : State :=
  let v := targetSplit s b
  let s1 := modBr s b fun x => { x with splitNext := some (v, k) }
  sendBoth s1 b .link (linkB 3 0x80 (leB 1 v ++ leB 2 k))

/-- First paths after a takeover (R229): e_far of the calibration, free where this device has not measured it, plus the distance from the
far-end cell; p × H without a valid calibration. -/
def takePaths (s : State) (b : Nat) : State :=
  if !s.twin.calValid then (mapCells s b).foldl (fun t c => modLink t c fun x => { x with pathFirst := none, pathSent := none, dHist := [] }) s
  else
    let far := 48 * b + (if fld0 s .twinCfg_end = 0 then 0 else (getBr s b).nb - 1)
    let (e, s1) : Int × State := match s.twin.eFar.find? fun (k, _) => k = b with
      | some (_, v) => (v, s)
      | none => let (v, t) := drawBelow s (64 * hopBound s + 1); ((v : Int), t)
    let dFar := dOf s1 far
    (mapCells s1 b).foldl (fun t c =>
      let p := e + absI (dFar - dOf s1 c)
      modLink t c fun x => { x with pathFirst := some p, dHist := [], lup := none }) s1

/-- `TWIN_STS.role`. -/
def twinCode (s : State) : Nat :=
  match s.twin.role with | .off => 0 | .primary => 1 | .standby => if s.twin.ready then 2 else 3

/-- A changed role is reported (Table 13-8). -/
def roleEvent (before s : State) : State :=
  if twinCode before = twinCode s then s else postEvent s 0x8001 (leB 1 (twinCode s) ++ leB 2 s.twin.epoch)

/-- The carriers of the branches in RUN start at the first boundary of the new primary, since a standby runs none (R145; DEDUCED, log entry
107). -/
def takeCarriers (s : State) : State :=
  ((presentBrs s).filter fun b => (getBc s b).armed && !(tget Carrier.zero s.harp.carriers b).running).foldl startCarrier s

/-- The standby takes over at the second deadline (R229). -/
def takeover (s : State) : State :=
  let k := s.frame.k + 1
  let s1 := modTw s fun x => { x with
    role := .primary
    epoch := (x.epoch + 1) % 65536
    hbMiss := 0
    ready := false
    swapAt := none
    computeFrom := some k
    rxChunks := []
    shadow := [] }
  let s2 := takeCarriers ((presentBrs s1).foldl (fun t b => takePaths (takeBranch t b k) b) (sendRole s1))
  raiseE (setFld (roleEvent s s2) .twinSts_took_over 0 1) 782 0

/-- The standby computes from the frame of a planned swap (R230). -/
def swapTake (s : State) : State :=
  let s1 := modTw s fun x => { x with
    role := .primary
    epoch := (x.epoch + 1) % 65536
    hbMiss := 0
    ready := false
    swapAt := none
    computeFrom := some s.frame.k }
  roleEvent s (takeCarriers ((presentBrs s1).foldl takePaths (sendRole s1)))

/-- A primary that meets a newer epoch of the other holder enters TWIN-S (R231). -/
def demote (s : State) (e : Nat) : State :=
  let s1 := modTw s fun x => { x with
    role := .standby
    epoch := e
    ready := false
    thetaOk := 0
    mirrorsOk := 0
    hbMiss := 0
    swapAt := none
    calLeft := none
    computeFrom := none }
  raiseE (setFld (roleEvent s s1) .twinSts_demoted 0 1) 783 0

/-- A newer epoch of the other holder: a primary is demoted, a standby takes the epoch. -/
def meetEpoch (s : State) (e : Nat) : State :=
  if !newerEpoch e s.twin.epoch then s
  else if s.twin.role = .primary then demote s e
  else modTw s fun x => { x with epoch := e }

/-- Twin enabled or disabled by an applied commit (R222). -/
def twinApply (s : State) : State :=
  let on := flag s .twinCfg_enable 0
  if on ∧ s.twin.role = .off then
    let prim := flag s .twinCfg_prefer 0 || fld0 s .twinCfg_end == 0
    let s1 := modTw s fun x => { x with
      role := if prim then .primary else .standby
      epoch := if prim then max 1 x.epoch else x.epoch
      hbMiss := 0
      thetaOk := 0
      mirrorsOk := 0
      clash := false
      ready := false }
    if prim then (presentBrs s1).foldl (fun t b =>
      if (getBr t b).mapDone ∧ targetSplit t b ≠ splitGoal t b then sendSplit t b (targetSplit t b) else t) s1
    else s1
  else if !on ∧ s.twin.role ≠ .off then
    let s1 := modTw s fun x => { x with
      role := .off
      ready := false
      calValid := false
      calLeft := none
      swapAt := none
      computeFrom := none
      hbMiss := 0 }
    (presentBrs s1).foldl (fun t b =>
      let t1 := modBr t b fun x => { x with relay := false }
      if (getBr t b).mapDone ∧ targetSplit t1 b ≠ splitGoal t1 b then sendSplit t1 b (targetSplit t1 b) else t1) s1
  else s

/-! ### Frame following and readiness (R224, R226) -/

/-- θ and p_peer from the two arrivals. -/
def followPeer (s : State) : State :=
  match s.twin.tOwn, s.twin.tPeer with
  | some a, some b => modTw s fun x => { x with
      theta := if x.role = .standby then (a - b) / 2 else x.theta
      pPeer := (a + b) / 2 }
  | _, _ => s

/-- At a frame boundary: the next heartbeat is that of F(k) + 0; readiness of the standby, F_TWIN_NOT_READY when it is lost, F_TWIN_PEER
while a peer lane is not UP. -/
def twinReady (s0 : State) : State :=
  let s := modTw s0 fun x => { x with hbHalf := false }
  if s.twin.role = .off then setC (setC s 784 false 0) 785 false 0
  else
    let s1 := setC s 785 (!(peerUp s false && peerUp s true)) 0
    if s.twin.role ≠ .standby then setC s1 784 false 0
    else
      let ok := s1.twin.tOwn.isSome && decide (absI s1.twin.theta ≤ 16)
      let s2 := modTw s1 fun x => { x with thetaOk := if ok then min 64 (x.thetaOk + 1) else 0 }
      let r := decide (64 ≤ s2.twin.thetaOk) && decide (64 ≤ s2.twin.mirrorsOk) && s2.twin.calValid &&
        s2.twin.peerDigest == some (cfgDigest s2)
      let was := s2.twin.ready
      let s3 := roleEvent s2 (modTw s2 fun x => { x with ready := r })
      if r then setC s3 784 false 0 else if was then setC s3 784 true 0 else s3

/-! ### Far-end calibration (R228) -/

/-- Calibration starts: every chain is served through the standby. -/
def startCal (s : State) : State :=
  let s1 := modTw s fun x => { x with calLeft := some 256 }
  (presentBrs s1).foldl (fun t b =>
    if (getBr t b).nb = 0 then t else sendSplit t b (if fld0 t .twinCfg_end = 0 then 0 else (getBr t b).nb)) s1

/-- It may start: on the primary with every cell PARKED. -/
def calAllowed (s : State) : Bool := s.twin.role == .primary && allParked s && s.twin.calLeft.isNone

/-- Its end: e_far is recorded and the whole-ring split restored. A standby holds the calibration of its primary as valid. -/
def endCal (s : State) : State :=
  let s1 := (presentBrs s).foldl (fun t b =>
    if (getBr t b).nb = 0 then t
    else
      let near := 48 * b + (if fld0 t .twinCfg_end = 0 then (getBr t b).nb - 1 else 0)
      let d := ((getLink t near).dHist.head?).getD (dOf t near)
      sendSplit (modTw t fun x => { x with eFar := tput x.eFar b (d - x.pPeer) }) b (targetSplit t b)) s
  modTw s1 fun x => { x with calLeft := none, calValid := true }

/-- One frame of a calibration has passed. -/
def calFrame (s : State) : State :=
  match s.twin.calLeft with
  | some 0 => endCal s
  | some (n + 1) => modTw s fun x => { x with calLeft := some n }
  | none => s

/-! ### Planned swap (R230) -/

/-- A planned swap is accepted while the standby is ready; it takes effect four frames after the next boundary. -/
def startSwap (s : State) : State × Bool :=
  if s.twin.role = .primary ∧ s.twin.peerReady ∧ s.twin.swapAt.isNone then
    (modTw s fun x => { x with swapAt := some (s.frame.k + 5) }, true)
  else (s, false)

/-- The standby learns of a swap: SPLIT from its end at once. -/
def swapHeard (s : State) (kEff : Nat) : State :=
  let k := s.frame.k + (kEff + 65536 - s.frame.k % 65536) % 65536
  if s.twin.swapAt.isSome then s
  else (presentBrs s).foldl (fun t b => takeBranch t b k) (modTw s fun x => { x with swapAt := some k })

/-- The boundary of a planned swap on the standby. -/
def swapBoundary (s : State) : State :=
  match s.twin.swapAt with
  | some k => if s.twin.role = .standby ∧ k ≤ s.frame.k then swapTake s else s
  | none => s

/-! ### Heartbeats -/

/-- A missed heartbeat (R229): the second in a row lets the standby take over, unless ROLE of the primary came since the first. One that came
with yield set (`came`) leaves a planned swap to its own frame (R230). -/
def heartbeatMiss (s : State) (yielded came : Bool) : State :=
  if s.twin.role ≠ .standby then s
  else
    let n := min 2 (s.twin.hbMiss + 1)
    let s1 := raiseE (countSat s .twinCntHbmiss .twinCntSat 0 0 1) 787 0
    let blocked := s1.twin.roleSeen && !yielded
    let s2 := modTw s1 fun x => { x with hbMiss := n, roleSeen := false, hbHalf := !x.hbHalf }
    if n = 2 ∧ !blocked ∧ (s2.twin.swapAt.isNone ∨ !came) then takeover s2 else s2

/-- The peer's frame length, seen from how its k and the own k advance (R232). -/
def peerPace (s : State) (k : Nat) : State :=
  match s.twin.peerK with
  | none => modTw s fun x => { x with peerK := some (k, s.frame.k) }
  | some (p, o) =>
    let d := absI (((k : Int) - p) - ((s.frame.k : Int) - o))
    modTw s fun x => { x with peerDiff := decide (2 ≤ d) }

/-- A heartbeat's form (Table 08-6). -/
def heartbeatOk (l : List Byte) : Bool := l.length == 24 && byteAt l 0 == 1 && (crc32 (l.take 20)).toNat == fieldAt l 20 4

/-- Two devices claim primary with one epoch (R222): the one without `prefer` yields at once. With `prefer` on both the second heartbeat
shows it, and holder 1 yields. -/
def primaryClash (s : State) : State :=
  if !flag s .twinCfg_prefer 0 || (s.twin.clash && fld0 s .twinCfg_end == 1) then
    roleEvent s (modTw s fun x => { x with role := .standby, clash := false, thetaOk := 0, mirrorsOk := 0 })
  else modTw s fun x => { x with clash := true }

/-- The primary's heartbeat at its standby: with yield set it counts as missed (R229, R230); one of the expected half ends the run of
misses. -/
def heartbeatPrimary (s : State) (l : List Byte) : State :=
  let half := bitAt (byteAt l 1) 4
  if bitAt (byteAt l 1) 3 then heartbeatMiss (swapHeard s (fieldAt l 18 2)) true true
  else if half = s.twin.hbHalf then modTw s fun x => { x with hbMiss := 0, hbHalf := !half }
  else s

/-- A heartbeat arrives; its copy on the other lane says nothing new. -/
def heartbeat (s : State) (l : List Byte) : State :=
  let b1 := byteAt l 1
  let me := (fieldAt l 4 6, bitAt b1 4)
  if !heartbeatOk l ∨ s.twin.hbLast = some me then s
  else
    let e := fieldAt l 2 2
    let prim := bitAt b1 1
    let s1 := followPeer (modTw s fun x => { x with
      hbLast := some me
      tPeer := some (sx 32 (fieldAt l 10 4))
      peerReady := bitAt b1 2
      peerYield := bitAt b1 3
      peerDigest := some (BitVec.ofNat 32 (fieldAt l 14 4)) })
    let s2 := peerPace s1 (fieldAt l 4 6)
    if s2.twin.role = .off then s2
    else
      let s3 := if prim then meetEpoch s2 e else s2
      if s3.twin.role = .primary then (if prim ∧ e = s3.twin.epoch then primaryClash s3 else s3)
      else if prim then heartbeatPrimary s3 l
      else s3

/-! ### Split feed (R227) -/

/-- The cell of branch b whose held head a relayed tail completes. -/
def tailCell (s : State) (b : Nat) (tail : List Byte) : Option Nat :=
  (mapCells s b).find? fun c => relayedCell s c &&
    (match (getLink s c).head with | some h => uplinkOk s c h tail | none => false)

/-- A slab of a relayed bulk frame: the whole frame once its last slab has come. -/
def relaySlab (s : State) (b : Nat) (m : List Byte) : State × Option (List Byte) :=
  let f := (if bitAt (byteAt m 0) 7 then [] else (getBr s b).relayBulk) ++ (m.drop 1).take (byteAt m 0 % 16)
  if 8 ≤ f.length ∧ bulkFrameLen f ≤ f.length then (modBr s b fun x => { x with relayBulk := [] }, some f)
  else (modBr s b fun x => { x with relayBulk := f }, none)

/-- A relayed content on the standby: forwarded onto the branch's chain lane, a PARK three times with its CRC (R75, R101), a LINK in its 12
bytes, a bulk frame once it is whole. -/
def relayDown (s : State) (l : List Byte) : State :=
  let b := byteAt l 1
  match ownEnd s with
  | none => s
  | some e =>
    let n := 2 * b + b2n e
    if !brPresent s b then s
    else if byteAt l 0 = 0x10 then send s (.lane n .first ((l.drop 2).take (16 + 4 * min 16 (byteAt l 3 % 32))))
    else if byteAt l 0 = 0x12 then
      let m := (l.drop 3).take 14
      match slabOf (byteAt l 2) with
      | some .park => send s (.lane n .park (markB (laneCoding s n) (m.take 6)))
      | some .link => send s (.lane n .link (m.take 12))
      | some .bulk =>
        let (t, f) := relaySlab s b m
        match f with | some f => send t (.lane n .bulk f) | none => t
      | _ => s
    else s

/-- A relayed D-MARK on the standby: on every relayed lane as a D-MARK of the primary's holder, with the standby's residence of at most 150
ns added (R227). -/
def relayMark (s : State) (l : List Byte) : State :=
  ((presentBrs s).filter fun b => (getBr s b).relay).foldl (fun t b =>
    let (r, t1) := drawBelow t 9601
    let e := fld0 t1 .twinCfg_end
    let m := leB 1 (1 + 16 * (1 - e)) ++ l.drop 1
    send t1 (.lane (2 * b + e) .mark (markPlus (laneCoding t1 (2 * b + e)) m r))) s

/-- The cell of branch b whose outstanding request a relayed bulk answer ends. -/
def bulkCell (s : State) (b : Nat) (f : List Byte) : Option Nat :=
  (List.range 48).findSome? fun p =>
    match (getLink s (48 * b + p)).bulk with
    | some x => if fieldAt f 2 2 = x.tag.toNat then some (48 * b + p) else none
    | none => none

/-- A relayed content on the primary: a head or a tail is taken as if it had arrived on a lane; an ENUM that the standby returns gives the
count at its end (R222); a bulk answer ends the request it names. -/
def relayUp (s : State) (l : List Byte) : State :=
  let b := byteAt l 1
  let m := l.drop 2
  if 12 ≤ b then s
  else if byteAt l 0 = 0x11 then
    if 80 ≤ m.length then
      let c := 48 * b + byteAt m 0 % 64
      if byteAt m 0 % 64 < 48 ∧ relayedCell s c then uplinkHead s c (m.take 80) else s
    else match tailCell s b (m.take 48) with
      | some c => uplinkTail s c (m.take 48)
      | none => s
  else if byteAt l 0 = 0x12 ∧ byteAt l 2 = 5 then
    let (t, f) := relaySlab s b ((l.drop 3).take 14)
    match f with
    | some f => match bulkCell t b f with | some c => bulkTake t c f | none => t
    | none => t
  else if byteAt l 0 = 0x12 ∧ byteAt l 2 = 0xA ∧ (getBr s b).disc = .enumerating then
    match enumHeard ((l.drop 3).take 12) false with
    | some n => modBr s b fun x => if fld0 s .twinCfg_end = 0 then { x with enumB := some n } else { x with enumA := some n }
    | none => s
  else s

/-! ### Commit and registers (R232, R234) -/

/-- Commit of block 7: refused while a change of k meets a branch that is not PARKED, or under R232. -/
def commitChed (s : State) : State × Option Nat :=
  let kBad := (presentBrs s).any fun b => sfld s .chedBrCfg_k b != fld s .chedBrCfg_k b && !brParked s b
  let h := max 64 (nextFld s .stuFrmCfg_hop_bound 0)
  let twinBad := sfld s .twinCfg_enable 0 == 1 && shadowWord s .twinCfg 0 != rword s .twinCfg 0 &&
    (!allParked s || decide (frameTicks (nextFld s .stuFrmCfg_frame_len 0) / 8 < 48 * h + 1200) || s.twin.peerDiff)
  if kBad || twinBad then (setFld s .chedCfg_refused 0 1, some 1)
  else (stageBlock s 7 fun _ _ => true, none)

/-- The committed settings apply at the boundary; the role GPIO follows the role (R222). -/
def applyChed (s : State) : State :=
  if applyingBlock s 7 then (let t := applyBlock s 7; roleEvent t (twinApply t)) else s

/-- Zeroes the twin counters. -/
def clearTwinCounts (s : State) : State :=
  [RegName.twinCntHbmiss, .twinCntMdrop, .twinCntDiverge, .twinCntSat].foldl (fun t r => putWord t r 0 0) s

/-! ### Meanings -/

/-- Data blocks of a peer part from its first bytes (R223): by kind, and for a relayed list by n_edges. A relayed head or tail of n blocks:
the slot in which it comes tells which; here the run's length does (DESIGN CHOICE, log entry 106). -/
def peerBlocks (n : Nat) (l : List Byte) : Nat :=
  match byteAt l 0 with
  | 1 | 0x12 => 3
  | 2 | 3 => 15
  | 0x10 => cdiv (18 + 4 * min 16 (byteAt l 3 % 32)) 8
  | _ => if 11 ≤ n then 11 else 7

/-- A run on a peer lane that carries traffic, and f takes each message of type t in it. -/
def onPeer (s : State) (lane1 : Bool) (run : SlabRun) (t : SlabType) (f : State → List Byte → State) : State :=
  if peerLive s lane1 then onRun s (26 + b2n lane1) (peerBlocks run.slabs.length) run t f else s

/-- A P-MARK, with its arrival in 1/64 ns from F(k). -/
def pMarkHeard (s : State) (n : Nat) (arrival : Int) (l : List Byte) : State :=
  if s.twin.role = .off ∨ !shortOk (laneCoding s n) l ∨ byteAt l 0 % 16 ≠ 4 then s
  else
    let dk := sx 8 ((byteAt l 1 + 256 - s.frame.k % 256) % 256)
    let a := arrival - 16 * (tF s : Nat) * dk - sx 32 (fieldAt l 2 4)
    followPeer (modTw s fun x => { x with tOwn := some a })

/-- R224: the peer's P-MARK. -/
def execPMark (lane1 : Bool) (arrival : Int) (run : SlabRun) (s : State) : Host.Outcome State Fault Refusal :=
  onCore s fun s => onPeer s lane1 run .mark fun t l =>
    pMarkHeard t (26 + b2n lane1) arrival (shortOf (laneCoding t (26 + b2n lane1)) l)

/-- R229, R231: a heartbeat of the peer. -/
def execHeartbeat (lane1 : Bool) (run : SlabRun) (s : State) : Host.Outcome State Fault Refusal :=
  onCore s fun s => onPeer s lane1 run .last fun t l => heartbeat t (l.take 24)

/-- R223: the primary's heartbeat and ROLE in the middle of the frame. -/
def execHeartbeatHalfFrame (s : State) : Host.Outcome State Fault Refusal :=
  onCore s fun s => if s.twin.role = .primary then sendRole (peerBoth s (heartbeatB s true)) else s

/-- R229: a heartbeat of the primary is missed. -/
def execHeartbeatMiss (s : State) : Host.Outcome State Fault Refusal := onCore s fun s => heartbeatMiss s s.twin.peerYield false

/-- R225: a mirror chunk. -/
def execMirrorChunk (lane1 : Bool) (run : SlabRun) (s : State) : Host.Outcome State Fault Refusal :=
  onCore s fun s => onPeer s lane1 run .last fun t l => mirrorChunk t (l.take 116)

/-- R225: a mirror that did not complete in time. -/
def execMirrorDrop (s : State) : Host.Outcome State Fault Refusal := onCore s mirrorLate

/-- A relayed content by the role of the device that hears it. -/
def relayHeard (s : State) (l : List Byte) : State :=
  match s.twin.role with
  | .standby => relayDown s l
  | .primary => relayUp s l
  | .off => s

/-- R227: relayed contents of split feed for a branch, towards its chain (`down`, heard by the standby) or back (heard by the primary):
message parts and slabs, and D-MARKs, which serve every relayed branch. A relayed U-MARK is a row of its own. -/
def execRelayedPart (lane1 : Bool) (down : Bool) (br : Br) (run : SlabRun) (s : State) : Host.Outcome State Fault Refusal :=
  onCore s fun s =>
    let n := 26 + b2n lane1
    if !peerLive s lane1 then s
    else
      let (t, ms) := receive s n (peerBlocks run.slabs.length) run
      ms.foldl (fun u m =>
        let l := shortOf (laneCoding u n) m.2
        if down ≠ standby u then u
        else if m.1 = .last then (if byteAt m.2 1 = br.val then relayHeard u m.2 else u)
        else if m.1 = .mark ∧ down ∧ shortOk (laneCoding u n) l ∧ byteAt l 0 % 16 = 5 then relayMark u (l.take 6)
        else u) t

/-- A ROLE of the other holder on a chain lane (R231): a newer epoch is met; one with the epoch in force is the primary's (R229). -/
def roleHeard (s : State) (l : List Byte) : State :=
  let other := bitAt (byteAt l 2) 0 != (fld0 s .twinCfg_end == 1)
  if !linkOk l 4 ∨ s.twin.role = .off ∨ !other then s
  else
    let e := fieldAt l 3 2
    let s1 := meetEpoch s e
    if s1.twin.role = .standby ∧ e = s1.twin.epoch then modTw s1 fun x => { x with roleSeen := true } else s1

/-- R231: a ROLE heard on a chain lane. -/
def execRoleOnChainLane (lane : LaneNo) (run : SlabRun) (s : State) : Host.Outcome State Fault Refusal :=
  onCore s fun s => onRun s lane (fun _ => 10) run .link fun t l => if lane.val < 24 then roleHeard t l else t

/-- R228: a far-end calibration ends. -/
def execFarEndCalibrationEnd (s : State) : Host.Outcome State Fault Refusal :=
  onCore s fun s =>
    if s.twin.role = .standby then modTw s fun x => { x with calValid := true }
    else if s.twin.calLeft = some 0 then endCal s else s

/-- R234: TWIN_CNT_CLR. -/
def execTwinCntClr (s : State) : Host.Outcome State Fault Refusal := onCore s fun s => barWo s clearTwinCounts

/-- R230: TWIN_CFG.swap. -/
def execTwinCfgSwap (s : State) : Host.Outcome State Fault Refusal := onCore s fun s => barWo s fun s => (startSwap s).1

/-- R228: TWIN_CFG.calibrate. -/
def execTwinCfgCalibrate (s : State) : Host.Outcome State Fault Refusal :=
  onCore s fun s => barWo s fun s => if calAllowed s then startCal s else s

end Sys2Proof.Machine
end

