-- ==== Sys2Proof/Machine/Mode.lean ====
section
/-!
DEFINITION. Modes (chapter 09): converter states, precharge, effective mode, limit points, ride-through, black start, commit checks.
-/
namespace Sys2Proof.Machine

/-- Changes the mode logic's state. -/
def modMo (s : State) (f : Mode → Mode) : State := { s with mode := f s.mode }

/-! ### Requests in force -/

def reqGrid (s : State) : Nat := fld0 s .modeReq_grid
def reqFlow (s : State) : Nat := fld0 s .modeReq_flow
def reqSvc (s : State) : Nat := fld0 s .modeReq_svc

/-- Precharge comes from the LV side (R239). -/
def lvSide (s : State) : Bool := reqGrid s == 2 || reqSvc s == 2

/-- The point MODE_RT_SRC[i] names: its value while it is valid. -/
def rtSrc (s : State) (i : Nat) : Option Int :=
  let pa := fld s .modeRtSrc_pa i
  if pa < 299008 ∧ ptValid s pa then some (ptV s pa) else none

/-- Q1.15 field. -/
def q15 (s : State) (f : Fld) : Int := sx 16 (fld0 s f)

/-! ### Start, stop, restart (R238, R242) -/

/-- A class-3 or class-4 source has its live bit set. -/
def tripLive (s : State) : Bool := s.rind.src.any fun (n, x) => x.live && decide (3 ≤ appliedOf s n x.detail)

/-- A class-2 source whose scope parks branch b has its live bit set, or its latch, which holds the scope parked (R242, R285). -/
def class2Live (s : State) (b : Nat) : Bool :=
  brHeld s b || s.rind.src.any fun (n, x) => x.live && appliedOf s n x.detail == 2 && (scopeBranches s (scopeOf n x.detail)).contains b

/-- Conditions of a start from PARKED (R238, R287, R372). -/
def startOk (s : State) : Bool :=
  !s.rind.lockout && s.power.mode == .run && (s.clk.relock == .idle || s.clk.relock == .failed) && reqSvc s != 3 && !tripLive s && ((presentBrs s).all fun b => (getBr s b).disc == .done) && allLocked s &&
  (reqSvc s != 2 || fld0 s .modeTestCfg_branches != 0) &&
  (reqGrid s != 2 || (match rtSrc s 0 with | some v => decide (v ≤ q15 s .modeBsCfg_v_dead) | none => false))

/-- Start: the flag says that it was accepted. -/
def convStart (s : State) : State × Bool :=
  let ok := !standby s && (match s.mode.conv with
    | .parked => startOk s
    | .rampDown => reqSvc s != 3
    | _ => false)
  if ok then (modMo s fun x => { x with startReq := true }, true) else (setFld s .modeSts_start_refused 0 1, false)

/-- Stop. -/
def convStop (s : State) : State × Bool :=
  let ok := !standby s && (match s.mode.conv with | .precharge | .run | .rampDown => true | _ => false)
  if ok then (modMo s fun x => { x with stopReq := true }, true) else (setFld s .modeSts_start_refused 0 1, false)

/-- Under CELL-TEST only the branches that MODE_TEST_CFG names are armed (R251). -/
def testNamed (s : State) (b : Nat) : Bool := reqSvc s != 2 || bitAt (fld0 s .modeTestCfg_branches) b

/-- Restart of branch b, which a class-2 reaction has parked: it counts as armed from here on (R242); none under the lockout latch (R287). -/
def convRestart (s : State) (b : Nat) : State × Bool :=
  let ok := !standby s && !s.rind.lockout && s.mode.conv == .run && brPresent s b && !(getBc s b).armed && (getBc s b).classTwo && !class2Live s b &&
    canArm s b && testNamed s b
  if ok then
    let t := modBc s b fun x => { x with armed := true, restart := true, joining := true, classTwo := false }
    (modMo t fun x => { x with joinRun := tset 0 x.joinRun b 0, joinDone := x.joinDone &&& ~~~(BitVec.ofNat 12 (2 ^ b)) }, true)
  else (setFld s .modeSts_start_refused 0 1, false)

/-- HOLD-BUS ends: the device behaves as in WATCH until the next reset (R424). -/
def endHoldBus (s : State) : State :=
  if s.boot.holdBus then { s with boot := { s.boot with holdBus := false, stage := 9 } } else s

/-- Start, stop and restart as the host asks for them: HOLD-BUS refuses a start and a restart, and a stop ends it (R424). -/
def hostStart (s : State) : State × Bool :=
  if s.boot.holdBus then (setFld s .modeSts_start_refused 0 1, false) else convStart s
def hostStop (s : State) : State × Bool :=
  if s.boot.holdBus then (endHoldBus (if s.mode.conv = .parked ∨ s.mode.conv = .safe then s else (convStop s).1), true)
  else convStop s
def hostRestart (s : State) (b : Nat) : State × Bool :=
  if s.boot.holdBus then (setFld s .modeSts_start_refused 0 1, false) else convRestart s b

/-! ### Counts at T_snap (R240, R245, R247, R249) -/

/-- Every non-bypassed cell of branch b has a valid PT_VDC at or above v_min. -/
def charged (s : State) (b : Nat) : Bool :=
  ((mapCells s b).filter fun c => (getCtl s c).role != .bypassed).all fun c => ptValid s (cellPa c 0) && decide (q15 s .modePrechgCfg_v_min ≤ ptV s (cellPa c 0))

/-- Armed branches. -/
def armedBrs (s : State) : List Nat := (presentBrs s).filter fun b => (getBc s b).armed

/-- Precharge counts of the station and of restarted branches. -/
def prechargeCount (s : State) : State :=
  let s1 := modMo s fun x => { x with
    preRun := if x.conv = .precharge ∧ (armedBrs s).all (charged s) then min 100 (x.preRun + 1) else 0 }
  (presentBrs s1).foldl (fun t b =>
    if (getBc t b).joining ∧ !(getBc t b).restart then
      let n := if charged t b then min 100 (tget 0 t.mode.joinRun b + 1) else 0
      modMo t fun x => { x with joinRun := tset 0 x.joinRun b n }
    else t) s1

/-- Ride-through detection runs (R247). -/
def rtDetect (s : State) : Bool :=
  flag s .modeReq_rt_en 0 && s.mode.conv == .run && decide (reqSvc s < 2) && (reqGrid s != 2 || s.mode.formed) && s.power.mode == .run

/-- Out-of-band and in-band counts of the frame. -/
def rtCount (s : State) : State :=
  if !rtDetect s then modMo s fun x => { x with rtOut := 0, rtIn := 0 }
  else
    match rtSrc s 0, rtSrc s 1 with
    | some v, some f0 =>
      let f := absI f0
      let h : Int := 16 * fld0 s .modeRtCfg1_hyst
      let lo := q15 s .modeRtCfg0_v_lo; let hi := q15 s .modeRtCfg0_v_hi; let fd := q15 s .modeRtCfg1_f_dev
      let out := decide (v < lo) || decide (hi < v) || decide (fd < f)
      let inb := decide (lo + h ≤ v) && decide (v ≤ hi - h) && decide (f ≤ fd - h)
      modMo s fun x => { x with rtOut := if out then min 65535 (x.rtOut + 1) else 0, rtIn := if inb then x.rtIn + 1 else 0 }
    | _, _ => s

/-- Frames with |V| at or above v_ok (R249). -/
def formCount (s : State) : State :=
  let ok := s.mode.conv == .run && reqGrid s == 2 &&
    (match rtSrc s 0 with | some v => decide (q15 s .modeBsCfg_v_ok ≤ v) | none => false)
  modMo s fun x => { x with formRun := if ok then x.formRun + 1 else 0 }

/-! ### Limit points (R244, R245) -/

/-- Bit g of an axis field of the effective word. -/
def effHas (s : State) (i : Nat) : Bool := bitAt s.mode.eff.toNat i

/-- Converter states in which the limit points follow the mode. -/
def limitsLive (s : State) : Bool := s.mode.conv == .run

/-- Targets of points 261 to 265. -/
def limTargets (s : State) : List Int :=
  let p := q15 s .modeLimCfg0_p_max; let i := q15 s .modeLimCfg0_i_max; let f := q15 s .modeLimCfg1_i_float
  if !limitsLive s then [0, 0, 0, 0, 0]
  else
    let circ := effHas s 16 && !s.mode.rt && !(effHas s 2)
    let c := if circ then q15 s .modeLimCfg1_c_max else 0
    if s.mode.rt then s.mode.lim.take 4 ++ [c]
    else if effHas s 3 then [0, p, 0, i, c]
    else if effHas s 4 then [-p, 0, -i, 0, c]
    else if effHas s 5 then [-p, p, -i, i, c]
    else [0, 0, -f, f, c]

/-- PT_MODE_CONV. -/
def convCode (m : Conv) : Nat := match m with | .parked => 0 | .precharge => 1 | .run => 2 | .rampDown => 3 | .safe => 4

/-- Writes points 260 to 265. -/
def modePoints (s : State) : State :=
  let w := convCode s.mode.conv + 8 * b2n s.mode.formed + 16 * b2n s.mode.rt
  (List.range 5).foldl (fun t i => putPtI t (stPa (261 + i)) (t.mode.lim.getD i 0)) (putPtI s (stPa 260) (w : Nat))

/-- The mode logic at T_snap: counts, limit points. -/
def modeSnapshot (s : State) : State :=
  let s1 := formCount (rtCount (prechargeCount s))
  let slew : Int := fld0 s1 .modeLimCfg2_lim_slew
  let ts := limTargets s1
  let lim := (List.range 5).map fun i => let v := s1.mode.lim.getD i 0; clampI (v - slew) (v + slew) (ts.getD i 0)
  let s2 := modMo s1 fun x => { x with
    lim := lim
    rdRun := if x.conv = .rampDown ∧ lim.all (· == 0) then min 100 (x.rdRun + 1) else 0 }
  modePoints s2

/-! ### Converter transitions (Table 09-2) -/

/-- A converter state is entered. -/
def enterConv (s : State) (m : Conv) : State :=
  let s1 := modMo s fun x => { x with
    conv := m
    inState := 0
    preRun := 0
    rdRun := 0
    preDone := false
    preTimeout := false
    rdDone := false
    rdTimeout := false
    formed := x.formed && m == .run
    formRun := 0
    formReq := false }
  postEvent s1 0x2002 (leB 1 (convCode m))

/-- PARKED from a running state: PARK to all cells, reason 0x20. -/
def convPark (s : State) : State := enterConv (parkAll s) .parked

/-- What restarts when the station leaves PARKED (R241, R197). -/
def leaveParked (s : State) : State :=
  let s1 := (s.press.st.map (·.1)).foldl (fun t n => modLs t n fun x => { LoopSt.zero with outs := x.outs }) s
  let s2 := (allCells s1).foldl (fun t c => modCtl t c fun x => { x with ok := 0, bad := 0, fb := false }) s1
  modMo s2 fun x => { x with lim := [0, 0, 0, 0, 0] }

/-- Branches a start arms (R239). -/
def startBrs (s : State) : List Nat :=
  (presentBrs s).filter fun b =>
    !class2Live s b && canArm s b && testNamed s b

/-- PRECHARGE is entered. -/
def enterPrecharge (s : State) : State :=
  let bs := startBrs s
  let s1 := enterConv (leaveParked s) .precharge
  let s2 := if lvSide s then bs.foldl armSpares s1 else bs.foldl (fun t b => modBc t b fun x => { x with armed := true, classTwo := false }) s1
  modePoints s2

/-- RUN is entered from PRECHARGE: roles under R207, but not under CELL-TEST (R251). -/
def enterRunState (s : State) : State :=
  let s1 := enterConv s .run
  if reqSvc s = 2 then s1 else (armedBrs s1).foldl armBranch s1

/-- t ms have elapsed since the present state was entered. -/
def stateFor (s : State) (ms : Nat) : Bool := decide (msFrames s ms ≤ s.mode.inState)

/-- Precharge is complete, or has lasted t_pre; RAMP-DOWN is complete, or has lasted t_rd. -/
def preDoneNow (s : State) : Bool := s.mode.conv == .precharge && decide (100 ≤ s.mode.preRun)
def preLateNow (s : State) : Bool := s.mode.conv == .precharge && !preDoneNow s && stateFor s (fld0 s .modePrechgCfg_t_pre)
def rdDoneNow (s : State) : Bool := s.mode.conv == .rampDown && decide (100 ≤ s.mode.rdRun)
def rdLateNow (s : State) : Bool := s.mode.conv == .rampDown && !rdDoneNow s && stateFor s (fld0 s .modeLimCfg2_t_rd)

/-- The transition of one boundary: the first matching row. A start does not go before an IDLE or CURE that begins here, since the power
state precedes every axis (R243). -/
def convBoundary (s : State) : State :=
  let m := s.mode
  let s0 := modMo s fun x => { x with
    startReq := false
    stopReq := false
    tripReq := false
    safeReq := false
    phaseLost := false }
  let live := m.conv == .precharge || m.conv == .run || m.conv == .rampDown
  if m.safeReq then (if m.conv = .safe then s0 else enterConv s0 .safe)
  else if standby s then s0
  else if live && m.tripReq then enterConv s0 .parked
  else if live && m.phaseLost then raiseE (convPark s0) 789 0
  else match m.conv with
    | .parked => if m.startReq then (if startOk s && !s.power.idleReq && !s.power.cureReq then enterPrecharge s0 else setFld s0 .modeSts_start_refused 0 1) else s0
    | .precharge =>
      if m.stopReq then convPark s0
      else if m.preDone || preDoneNow s then enterRunState s0
      else if m.preTimeout || preLateNow s then raiseE (enterConv s0 .parked) 788 0
      else s0
    | .run => if m.stopReq || reqSvc s == 3 then enterConv s0 .rampDown else s0
    | .rampDown =>
      if m.startReq && reqSvc s != 3 then enterConv s0 .run
      else if m.rdDone || rdDoneNow s then convPark s0
      else if m.rdTimeout || rdLateNow s then raiseE (convPark s0) 790 0
      else s0
    | .safe => s0

/-- Branches that an accepted restart arms at this boundary, and those whose precharge is complete (R242). -/
def joinBoundary (s : State) : State :=
  (presentBrs s).foldl (fun t b =>
    let x := getBc t b
    if s.mode.conv ≠ .run ∨ !x.joining then t
    else if x.restart then armSpares t b
    else if t.mode.joinDone.getLsbD b || decide (100 ≤ tget 0 t.mode.joinRun b) then
      let t1 := if reqSvc t = 2 then modBc t b fun y => { y with joining := false } else armBranch t b
      modMo t1 fun y => { y with joinRun := tset 0 y.joinRun b 0, joinDone := y.joinDone &&& ~~~(BitVec.ofNat 12 (2 ^ b)) }
    else t) s

/-! ### Event axis and effective mode (R243, R247 to R249) -/

/-- Entry and exit conditions of RIDE-THROUGH. -/
def rtInNow (s : State) : Bool := rtDetect s && !s.mode.rt && decide (max 1 (fld0 s .modeRtCfg1_n_in) ≤ s.mode.rtOut)
def rtOutNow (s : State) : Bool := s.mode.rt && (!rtDetect s || decide (msFrames s (fld0 s .modeRtCfg2_t_exit) ≤ s.mode.rtIn && 0 < s.mode.rtIn))

/-- Grid, flow and LV values that the effective word shows. -/
def inForce (s : State) : Nat × Nat × BitVec 12 :=
  let e := s.mode.eff.toNat
  let first := fun lo n => (((List.range n).find? fun i => bitAt e (lo + i)).getD 0 : Nat)
  (first 0 3, first 3 4, s.mode.lvEff)

/-- The requested grid, flow and LV values. -/
def reqAxes (s : State) : Nat × Nat × BitVec 12 :=
  (reqGrid s, reqFlow s, BitVec.ofNat 12 ((below 12 fun g => fld s .modeLvgCfg_lv g = 1).map (2 ^ ·)).sum)

/-- The episode has lasted t_max, which is reported once (R247). -/
def rtLongNow (s : State) (n : Nat) : Bool :=
  let t := fld0 s .modeRtCfg2_t_max
  s.mode.rt && t != 0 && decide (msFrames s t ≤ n) && !s.mode.rtLong

/-- F_MODE_RT_LONG. -/
def raiseLong (s : State) : State := raiseE (modMo s fun x => { x with rtLong := true }) 792 0

/-- The event axis at a boundary. Requests that have changed since the last boundary outside an episode wait in it (R248). -/
def rtBoundary (s : State) : State :=
  let m := s.mode
  let s0 := modMo s fun x => { x with rtEnter := false, rtExit := false }
  if m.rt then
    if m.rtExit || rtOutNow s then
      setC (modMo s0 fun x => { x with rt := false, held := none, deferred := false, rtFor := 0, rtOut := 0, rtIn := 0 }) 791 false 0
    else
      let s1 := modMo s0 fun x => { x with rtFor := m.rtFor + 1, deferred := reqAxes s != m.req }
      if rtLongNow s (m.rtFor + 1) then raiseLong s1 else s1
  else if (m.rtEnter && rtDetect s) || rtInNow s then
    let h := inForce s
    setC (modMo s0 fun x => { x with
      rt := true
      held := some h
      deferred := reqAxes s != m.req
      rtFor := 0
      rtLong := false
      rtIn := 0 }) 791 true 0
  else s0

/-- Grid START is formed at the boundary after 100 ms (R249). -/
def formedNow (s : State) : Bool :=
  s.mode.conv == .run && reqGrid s == 2 && !s.mode.formed && decide (msFrames s 100 ≤ s.mode.formRun)

def formBoundary (s : State) : State :=
  if s.mode.formReq || formedNow s then modMo s fun x => { x with formed := true, formReq := false } else s

/-- Redundancy axis (R220). -/
def redAxis (s : State) : Nat :=
  match s.twin.role with
  | .primary => 2
  | .standby => 3
  | .off => if (presentBrs s).any fun b => decide (0 < redF s b) then 1 else 0

/-- The effective grid, flow and LV values without ride-through. -/
def freeAxes (s : State) : Nat × Nat × BitVec 12 :=
  let g0 := reqGrid s
  let grid := if g0 = 2 ∧ s.mode.formed then 1 else g0
  let flow := if reqSvc s = 1 ∨ reqSvc s = 2 then 3
    else if g0 = 2 ∧ !s.mode.formed ∧ reqFlow s = 0 then 3 else reqFlow s
  let lv := (List.range 12).foldl (fun (m : Nat) g =>
    if grid ≠ 0 ∨ fld s .modeLvgCfg_lv (fld s .modeLvgCfg_leader g) = 1 then m + 2 ^ g else m) 0
  (grid, flow, BitVec.ofNat 12 lv)

/-- Bit of the conv field of Table 09-5. -/
def convBit (m : Conv) : Nat := match m with | .precharge => 0 | .run => 1 | .rampDown => 2 | _ => 3

/-- The effective word and LV values: outside power state RUN no axis is evaluated, and the converter counts as PARKED (R243). -/
def effNow (s : State) : Nat × BitVec 12 :=
  if s.power.mode ≠ .run then (putBits s.mode.eff.toNat 19 4 (2 ^ convBit .parked), s.mode.lvEff)
  else
    let (grid, flow, lv) := match s.mode.held with
      | some h => if s.mode.rt then h else freeAxes s
      | none => freeAxes s
    let ev := s.mode.rt && decide (reqSvc s < 2)
    (2 ^ grid + 2 ^ (3 + flow) + 2 ^ (7 + b2n (lv.getLsbD 0)) + 2 ^ (9 + redAxis s) + 2 ^ (13 + b2n ev) +
      2 ^ (15 + reqSvc s) + 2 ^ (19 + convBit s.mode.conv), lv)

/-- The effective mode of the frame (R243, Table 09-5); reported when it changes. -/
def resolve (s : State) : State :=
  let (w, lv) := effNow s
  let eff : Word := BitVec.ofNat 32 w
  let s1 := modMo s fun x => { x with eff := eff, lvEff := lv, req := if x.rt then x.req else reqAxes s }
  if eff = s.mode.eff ∧ lv = s.mode.lvEff then s1
  else postEvent s1 0x2001 (leB 4 w ++ leB 2 lv.toNat)

/-- An accepted mode commit applies (R235). -/
def applyMode (s : State) : State := if applyingBlock s 8 then applyBlock s 8 else s

/-- Some role of the complete mirror that waits is Inserted or Spare; none: no mirror is to be applied. -/
def mirrorRuns (s : State) : Option Bool :=
  match s.twin.mirror with
  | none => none
  | some l =>
    if (crc32 (l.take 9720)).toNat ≠ fieldAt l 9720 4 then none
    else some ((allCells s).any fun c => let r := byteAt l (320 + 12 * c + 8) % 8; r == 1 || r == 2)

/-- The standby takes its converter state from the mirror that it is about to apply (R253): what leaving PARKED restarts does so before
the mirrored states come (R241), and the effective mode follows at once (DEDUCED, log entry 110). -/
def takeConv (s : State) : State :=
  match mirrorRuns s with
  | none => s
  | some runs =>
    let m : Conv := if runs then .run else .parked
    if !standby s ∨ s.mode.conv = .safe ∨ s.mode.conv = m then s
    else resolve (enterConv (if s.mode.conv = .parked then leaveParked s else s) m)

/-- The mode logic at a frame boundary, after the commits of that boundary. The effective mode is resolved once twin and power state have
taken their changes (`resolve`). -/
def modeBoundary (s : State) : State :=
  let s1 := joinBoundary (convBoundary (modMo s fun x => { x with inState := x.inState + 1 }))
  formBoundary (rtBoundary s1)

/-! ### Commit (R235, R254) -/

/-- The lowest failing check of Table 09-7. -/
def modeCheck (s : State) : Option Nat :=
  let parked := s.mode.conv == .parked
  let g := fld0 s .modeReq_grid; let g' := sfld s .modeReq_grid 0
  let v := fld0 s .modeReq_svc; let v' := sfld s .modeReq_svc 0
  let t := fld0 s .modeTestCfg_branches; let t' := sfld s .modeTestCfg_branches 0
  let present := ((presentBrs s).map fun b => 2 ^ b).sum
  let mask := fun n => sfld s .modeLvgCfg_br_mask n
  let lead := fun n => sfld s .modeLvgCfg_leader n
  let used := fun n => !tb288 s || (mask n &&& present) != 0
  let lvOk := (List.range 12).all fun n => !used n || (decide (lead n < 12) && lead (lead n) == lead n)
  let once := (presentBrs s).all fun b => ((List.range 12).filter fun n => bitAt (mask n) b).length == 1
  let lvSame := (List.range 12).all fun n => mask n == fld s .modeLvgCfg_br_mask n && lead n == fld s .modeLvgCfg_leader n
  let named := fun i => let pa := sfld s .modeRtSrc_pa i; decide (294912 ≤ pa) && decide (pa < 294912 + 1792)
  let rt := sfld s .modeReq_rt_en 0 == 1
  if g' = 3 ∨ (g ≠ g' ∧ (g = 2 ∨ g' = 2) ∧ !parked ∧ !(g == 2 && s.mode.formed)) then some 1
  else if ((v = 2) != (v' = 2) ∧ !parked) ∨ (t ≠ t' ∧ !parked) ∨ (t' &&& present) ≠ t' then some 2
  else if !lvOk ∨ !once ∨ (!lvSame ∧ !parked) then some 3
  else if ((rt || g' == 2) && !named 0) || (rt && !named 1) ||
      decide (sx 16 (sfld s .modeRtCfg0_v_hi 0) < sx 16 (sfld s .modeRtCfg0_v_lo 0)) then some 4
  else if sfld s .modeLimCfg2_lim_slew 0 = 0 ∨ sfld s .modeLimCfg2_t_rd 0 = 0 ∨ sfld s .modePrechgCfg_t_pre 0 = 0 then some 5
  else none

/-- Commit of block 8. -/
def commitMode (s : State) : State × Option Nat :=
  match modeCheck s with
  | some c => (modMo (setFld s .modeSts_refused 0 1) fun x => { x with refuseCode := c }, some c)
  | none => (stageBlock s 8 fun _ _ => true, none)

/-! ### Meanings -/

/-- R240: precharge is complete; RUN follows at the boundary. -/
def execPrechargeComplete (s : State) : Host.Outcome State Fault Refusal :=
  onCore s fun s => if preDoneNow s then modMo s fun x => { x with preDone := true } else s

/-- R237: t_pre has elapsed. -/
def execPrechargeTimeout (s : State) : Host.Outcome State Fault Refusal :=
  onCore s fun s => if preLateNow s then modMo s fun x => { x with preTimeout := true } else s

/-- R237: the limit points have stood at 0. -/
def execRampDownComplete (s : State) : Host.Outcome State Fault Refusal :=
  onCore s fun s => if rdDoneNow s then modMo s fun x => { x with rdDone := true } else s

/-- R237: t_rd has elapsed. -/
def execRampDownTimeout (s : State) : Host.Outcome State Fault Refusal :=
  onCore s fun s => if rdLateNow s then modMo s fun x => { x with rdTimeout := true } else s

/-- R242: a restarted branch has completed its precharge. -/
def execBranchRestartJoin (br : Br) (s : State) : Host.Outcome State Fault Refusal :=
  onCore s fun s =>
    if (getBc s br).joining ∧ 100 ≤ tget 0 s.mode.joinRun br then
      modMo s fun x => { x with joinDone := x.joinDone ||| BitVec.ofNat 12 (2 ^ br.val) }
    else s

/-- R247: the out-of-band run is complete. -/
def execRideThroughEntry (s : State) : Host.Outcome State Fault Refusal :=
  onCore s fun s => if rtInNow s then modMo s fun x => { x with rtEnter := true } else s

/-- R247: the episode ends. -/
def execRideThroughExit (s : State) : Host.Outcome State Fault Refusal :=
  onCore s fun s => if rtOutNow s then modMo s fun x => { x with rtExit := true } else s

/-- R247: the episode has lasted t_max. -/
def execRideThroughTimeout (s : State) : Host.Outcome State Fault Refusal :=
  onCore s fun s =>
    if rtLongNow s s.mode.rtFor then raiseLong s else s

/-- R249: |V| has stood for 100 ms. -/
def execGridFormed (s : State) : Host.Outcome State Fault Refusal :=
  onCore s fun s => if formedNow s then modMo s fun x => { x with formReq := true } else s

/-- R256: MODE_CTL.start. -/
def execModeCtlStart (s : State) : Host.Outcome State Fault Refusal := onCore s fun s => barWo s fun s => (hostStart s).1

/-- R256: MODE_CTL.stop. -/
def execModeCtlStop (s : State) : Host.Outcome State Fault Refusal := onCore s fun s => barWo s fun s => (hostStop s).1

/-- R256: MODE_CTL.restart. -/
def execModeCtlRestart (mask : BitVec 12) (s : State) : Host.Outcome State Fault Refusal :=
  onCore s fun s => barWo s fun s => (below 12 (bitAt mask.toNat)).foldl (fun t b => (hostRestart t b).1) s

end Sys2Proof.Machine
end

