-- ==== Sys2Proof/Machine/Affinage.lean ====
section
/-!
DEFINITION. The Affinage unit (chapter 10): losses and junction temperatures, rainflow counting and damage, drift windows, capacitor
fits, plan epochs, applications, and the die margin loop.
-/
namespace Sys2Proof.Machine

/-! ### Entries and coefficients -/

def getWear (s : State) (i : Nat) : Wear := tget Wear.zero s.aff.wear i
def modWear (s : State) (i : Nat) (f : Wear → Wear) : State :=
  { s with aff := { s.aff with wear := tmod Wear.zero s.aff.wear i f } }
def modAf (s : State) (f : Aff → Aff) : State := { s with aff := f s.aff }

/-- Cells the unit estimates, counts and plans for: those with a good coefficient block (R257). -/
def affCells (s : State) : List Nat := (allCells s).filter fun c => (getPlan s c).valid

/-- Coefficient o of bridge r of cell c (Table 10-1), and a capacitor coefficient at its byte offset in the record. -/
def coefR (s : State) (c r o : Nat) : Word := coefAt ((getLink s c).fact.getD []) (80 * r + o)
def coefC (s : State) (c o : Nat) : Word := coefAt ((getLink s c).fact.getD []) (o - 164)

/-- Gain of group q for bridge r, Q2.14, as the latest epoch took it (R258). -/
def affGain (s : State) (r q : Nat) : Word := f32Rat (h2i (s.aff.gains.getD (4 * r + q) 0x4000)) 16384

/-- SI value of a code of base class j (Table 05-4). -/
def siOf (s : State) (j : Nat) (v : Int) : Word := f32Rat (v * (baseOf s j : Nat)) 32768000

/-- Class 7 code of a temperature. -/
def tempCode (s : State) (w : Word) : Int :=
  f32Floor (-32768) 32767 (f32Div (f32Mul w (f32Int 32768)) (f32Rat (baseOf s 7 : Nat) 1000))

/-! ### Losses (R259) -/

/-- Commanded on-time of switch sw in a window of `w` sixteenths, and its turn-ons and turn-offs. -/
def onCount (l : List Edge) (on : Bool) (w sw : Nat) : Nat × Nat × Nat :=
  let step := fun (x : Bool × Nat × Nat × Nat × Nat) (e : Edge) =>
    let (cur, t0, acc, n1, n0) := x
    let t := min w (16 * e.offset + e.frac)
    (e.on, t, (if cur then acc + (t - t0) else acc), (if e.on then n1 + 1 else n1), (if e.on then n0 else n0 + 1))
  let (cur, t0, acc, n1, n0) := (l.filter fun e => e.sw = sw).foldl step (on, 0, 0, 0, 0)
  (if cur then acc + (w - t0) else acc, n1, n0)

/-- |i| of switch sw's bridge, and its v, in SI. -/
def bridgeI (s : State) (c sw : Nat) : Word := f32Abs (siOf s 5 (ptV s (cellPa c (3 + sw / 4))))
def bridgeV (s : State) (c sw : Nat) : Word :=
  if sw / 4 = 2 then siOf s 3 (ptV s (cellPa c 1)) else siOf s 1 (ptV s (cellPa c 0))

/-- p(s) of the frame that ends, with the latest valid PT_VON code. -/
def lossOf (s : State) (c sw : Nat) (von : Int) : Word :=
  let r := sw / 4
  let x := getCh s c
  let (t, n1, n0) := onCount ((x.gov.map (·.edges)).getD []) (x.govOn.getLsbD sw) (16 * s.frame.ticks) sw
  let tf := f32Rat s.frame.ticks 4000000000
  let i := bridgeI s c sw
  let pc := f32Div (f32Mul (f32Mul i (siOf s 2 von)) (f32Rat t 64000000000)) tf
  let g := affGain s r 3
  let es := f32Add (f32Mul (f32Int n1) (f32Mul (coefR s c r 12) g)) (f32Mul (f32Int n0) (f32Mul (coefR s c r 16) g))
  let es1 := f32Mul (f32Mul es (f32Div i (coefR s c r 24))) (f32Div (bridgeV s c sw) (coefR s c r 20))
  f32Add pc (f32Div es1 tf)

/-- A point holds a sample of this frame that is no marker. -/
def sampled (s : State) (pa : Nat) : Bool := let p := seePt s pa; !p.held && p.age == 0

/-- Switch sw of an accepted frame of a cell in RUN. A cell that never had a valid PT_VON gives the loss rule no value for it. -/
def affSwitchRun (s : State) (c sw : Nat) : State :=
  let i := 12 * c + sw
  let r := sw / 4
  let vonPa := cellPa c (8 + sw)
  let von := if ptValid s vonPa then some (seePt s vonPa).val else (getWear s i).von
  let (v, s1) : Int × State := match von with
    | some h => (h2i h, s)
    | none => let (x, t) := draw s; (h2i (BitVec.ofNat 16 x), t)
  let p := lossOf s c sw v
  let ai := bridgeI s c sw
  let iref := coefR s c r 24
  let toffOk := sampled s (cellPa c (32 + sw))
  let toff := (seePt s (cellPa c (32 + sw))).val
  let near := fun (x m d : Word) => f32Le (f32Sub m d) x && f32Le x (f32Add m d)
  modWear s1 i fun w =>
    let drift := toffOk && sampled s vonPa && near ai iref (f32Mul iref (f32Rat 5 100)) &&
      near w.tjModel (coefR s c r 72) (f32Int 5)
    { w with
      p := p
      von := von
      toff := if toffOk ∧ f32Le (f32Mul (f32Rat 1 10) iref) ai then some (toff, ai) else w.toff
      drN := if drift then w.drN + 1 else w.drN
      drVon := if drift then w.drVon + v else w.drVon
      drToff := if drift then w.drToff + toff.toNat else w.drToff
      drI := if drift then w.drI + absI (ptV s (cellPa c (3 + r))) else w.drI }

/-- One switch at the end of a frame: its loss, and the sums of the present Foster step. -/
def affSwitch (accepted : Bool) (s : State) (c sw : Nat) : State :=
  let i := 12 * c + sw
  let first := s.frame.k % 8 == 0
  let s0 := if first then modWear s i fun w => { w with toff := none } else s
  let s1 := if !inRun s c then modWear s0 i fun w => { w with p := 0 }
    else if accepted then affSwitchRun s0 c sw else s0
  modWear s1 i fun w => { w with pSum := if first then w.p else f32Add w.pSum w.p }

/-! ### Capacitor fit (R266) -/

/-- v_dc and the net current into the DC link of this frame: none where a field is not valid. -/
def capPair (s : State) (c : Nat) (accepted : Bool) : Option (Word × Word) :=
  let pa := cellPa c
  if accepted ∧ [0, 1, 2, 3, 5].all (fun i => ptValid s (pa i) && sampled s (pa i)) then
    let v := siOf s 1 (ptV s (pa 0))
    let a := f32Mul (siOf s 1 (ptV s (pa 2))) (siOf s 5 (ptV s (pa 3)))
    let b := f32Mul (siOf s 3 (ptV s (pa 1))) (siOf s 5 (ptV s (pa 5)))
    some (v, f32Div (f32Sub a b) v)
  else none

/-- Terms of one pair of frames, in the order of the sums: x1, x2, y, x1², x1 x2, x2², x1 y, x2 y, t_hs. -/
def fitTerms (tf : Word) (a b : Word × Word) (ths : Word) : List Word :=
  let y := f32Sub b.1 a.1
  let x1 := f32Scale (f32Mul tf (f32Add a.2 b.2)) (-1)
  let x2 := f32Sub b.2 a.2
  [x1, x2, y, f32Mul x1 x1, f32Mul x1 x2, f32Mul x2 x2, f32Mul x1 y, f32Mul x2 y, ths]

/-- One frame of a fit in progress. The count starts one frame early, so that 65,536 pairs are seen. Shedding stops it (R32); what it has
seen stays (DESIGN CHOICE, log entry 147). -/
def fitFrame (s : State) (c : Nat) (accepted : Bool) : State :=
  let p := getPlan s c
  match p.fit with
  | none => s
  | some (left, lack, sums) =>
    if left = 0 then s
    else if s.cellar.mode = .shed then modPlan s c fun x => { x with fitPrev := none }
    else
      let cur := capPair s c accepted
      let ths := siOf s 7 (ptV s (cellPa c 6))
      let tf := f32Rat s.frame.ticks 4000000000
      let next : Nat × Nat × List Word := match p.fitPrev, cur with
        | some a, some b => (left - 1, lack, List.zipWith f32Add sums (fitTerms tf a b ths))
        | _, _ => (left - 1, if left = 65537 then lack else lack + 1, sums)
      modPlan s c fun x => { x with fit := some next, fitPrev := cur }

/-- A fit starts. -/
def fitStart (s : State) (c : Nat) : State :=
  modPlan s c fun x => { x with fit := some (65537, 0, List.replicate 9 0), fitPrev := none }

/-- C and ESR of the sums over n pairs: y = x1 / C + esr x2 + b by least squares; none where the sums determine no line. -/
def fitSolve (n : Nat) (l : List Word) : Option (Word × Word) :=
  let g := fun i => l.getD i 0
  let m := f32Int (n : Int)
  let cov := fun (xy x y : Word) => f32Sub xy (f32Div (f32Mul x y) m)
  let s11 := cov (g 3) (g 0) (g 0); let s12 := cov (g 4) (g 0) (g 1); let s22 := cov (g 5) (g 1) (g 1)
  let s1y := cov (g 6) (g 0) (g 2); let s2y := cov (g 7) (g 1) (g 2)
  let det := f32Sub (f32Mul s11 s22) (f32Mul s12 s12)
  let a := f32Div (f32Sub (f32Mul s1y s22) (f32Mul s2y s12)) det
  let b := f32Div (f32Sub (f32Mul s2y s11) (f32Mul s1y s12)) det
  if f32Positive det ∧ f32Positive a ∧ f32Finite b then some (f32Div (f32Int 1) a, b) else none

/-- The standard deviation of x1 / T_F exceeds 0.01 pu of class 5. -/
def fitSpread (s : State) (n : Nat) (l : List Word) : Bool :=
  let m := f32Int (n : Int)
  let mean := f32Div (l.getD 0 0) m
  let var := f32Sub (f32Div (l.getD 3 0) m) (f32Mul mean mean)
  let tf := f32Rat s.frame.ticks 4000000000
  f32Lt (f32Mul (f32Rat 1 100) (f32Rat (baseOf s 5 : Nat) 1000)) (f32Div (f32Sqrt var) tf)

/-- A failed fit: it is tried again at the next application, the 24th raises F_AFF_CAP_SKIP. -/
def fitFailed (s : State) (c : Nat) : State :=
  let n := (getPlan s c).retries + 1
  let s1 := modPlan s c fun x => { x with fit := none, fitPrev := none, retries := n }
  if n = 24 then raiseE s1 (cellSrc c 25) (BitVec.ofNat 32 c) else s1

/-- An accepted fit. -/
def fitDone (s : State) (c n : Nat) (l : List Word) (cap esr : Word) : State :=
  let ths := f32Div (l.getD 8 0) (f32Int (n : Int))
  let esr40 := f32Div esr (f32Add (f32Int 1) (f32Mul (coefC s c 412) (f32Sub ths (f32Int 40))))
  let rel := f32Div cap (coefC s c 404)
  let low := f32Lt rel (f32Rat (fld0 s .affLimCfg3_cap_min : Nat) 32768) ||
    f32Lt (f32Rat (fld0 s .affLimCfg3_esr_max : Nat) 16) (f32Div esr40 (coefC s c 408))
  let s1 := modPlan s c fun x => { x with
    fit := none
    fitPrev := none
    retries := 0
    capLim := low
    capAt := some (secsOf (nowQ s)) }
  let mega := f32Int 1000000
  let uf := f32Floor 0 65535 (f32Mul cap mega)
  let ue := f32Floor 0 65535 (f32Mul esr40 mega)
  let pr := f32Floor 0 32767 (f32Mul rel (f32Int 32768))
  let s2 := [(252, uf), (253, ue), (254, pr), (255, 0)].foldl (fun t (i, v) => affPut t c i v)
    (modPlan s1 c fun x => { x with capUf := toHalf uf, capEsr := toHalf ue, capRel := toHalf pr })
  setC (affStsPoint s2 c) (cellSrc c 24) low (BitVec.ofNat 32 c)

/-- The end of a fit over its 65,536 frames. -/
def fitEnd (s : State) (c : Nat) : State :=
  if s.cellar.mode = .shed then s
  else match (getPlan s c).fit with
  | some (0, lack, l) =>
    let n := 65536 - lack
    match fitSolve n l with
    | some (cap, esr) => if lack ≤ 64 ∧ fitSpread s n l then fitDone s c n l cap esr else fitFailed s c
    | none => fitFailed s c
  | _ => s

/-! ### The end of a frame -/

/-- Counted cycles move to the matrices through the Vat arbiter (R263). -/
def drainCycles (s : State) (i : Nat) : State :=
  let q := (getWear s i).queue
  if q.isEmpty then s
  else
    let bins := q.foldl (fun t (a, b, full) =>
      let k := 256 * i + 16 * a + b
      tset 0 t k (min (2 ^ 48 - 1) (tget 0 t k + if full then 2 else 1))) s.cave.bins
    modWear { s with cave := { s.cave with bins := bins } } i fun w => { w with queue := [] }

/-- One cell at the end of a frame. A frame in IDLE, in which no cell sends, is none that misses an uplink: the networks cool (R393). -/
def affCellFrame (s : State) (c : Nat) : State :=
  let ok := (getLink s c).missUp == 0
  let was := (getPlan s c).paused
  let s1 := modPlan s c fun p =>
    let n := if ok then 0 else if s.power.mode = .run then min 8 (p.missing + 1) else p.missing
    { p with
      missing := n
      paused := decide (8 ≤ n)
      ths := if ptValid s (cellPa c 6) then some (seePt s (cellPa c 6)).val else p.ths
      thsSum := if ok ∧ ptValid s (cellPa c 6) then p.thsSum + ptV s (cellPa c 6) else p.thsSum
      thsN := if ok ∧ ptValid s (cellPa c 6) then p.thsN + 1 else p.thsN }
  let s2 := if (getPlan s1 c).paused != was then affStsPoint (affStale s1 c) c else s1
  let s3 := fitFrame ((List.range 12).foldl (fun t sw => affSwitch ok t c sw) s2) c ok
  if vatStarving s 12 then s3 else (List.range 12).foldl (fun t sw => drainCycles t (12 * c + sw)) s3

/-- The frame that ends, for every cell; a standby estimates nothing (R273). -/
def affFrame (s : State) : State := if standby s then s else (affCells s).foldl affCellFrame s

/-! ### Rainflow (R262, R263) -/

/-- The bin of a cycle. -/
def rfBin (range mean : Word) (full : Bool) : Nat × Nat × Bool :=
  ((f32Floor 0 15 (f32Div range (f32Int 5))).toNat,
   (f32Floor 0 15 (f32Div (f32Add mean (f32Int 40)) (f32Int 12))).toNat, full)

/-- |a − b| and (a + b) / 2. -/
def f32Dist (a b : Word) : Word := f32Abs (f32Sub a b)
def f32Mean (a b : Word) : Word := f32Scale (f32Add a b) (-1)

/-- Full cycles of a stack with the newest reversal first. -/
def rfReduce : Nat → List Word → List (Nat × Nat × Bool) → List Word × List (Nat × Nat × Bool)
  | 0, l, out => (l, out)
  | n + 1, l, out =>
    match l with
    | s4 :: s3 :: s2 :: s1 :: rest =>
      if f32Le (f32Dist s2 s3) (f32Dist s1 s2) ∧ f32Le (f32Dist s2 s3) (f32Dist s3 s4) then
        rfReduce n (s4 :: s1 :: rest) (out ++ [rfBin (f32Dist s2 s3) (f32Mean s2 s3) true])
      else (l, out)
    | _ => (l, out)

/-- A reversal is pushed: a full stack first counts its oldest pair as a half cycle. -/
def rfPush (stack : List Word) (v : Word) : List Word × List (Nat × Nat × Bool) :=
  let half := match stack with
    | a :: b :: _ => if 32 ≤ stack.length then [rfBin (f32Dist a b) (f32Mean a b) false] else []
    | _ => []
  let old := if 32 ≤ stack.length then stack.drop 1 else stack
  let (l, out) := rfReduce 32 (v :: old.reverse) half
  (l.reverse, out)

/-- The stream of one switch takes tj; the second part counts the cycles lost on a full queue. -/
def rfStep (hyst x : Word) (w : Wear) : Wear × Nat :=
  let turn := fun (e : Word) (up : Bool) =>
    let (l, cyc) := rfPush w.stack e
    let room := 16 - w.queue.length
    ({ w with ext := some (x, some up), stack := l, queue := w.queue ++ cyc.take room }, cyc.length - room)
  match w.ext with
  | none => ({ w with ext := some (x, none) }, 0)
  | some (e, none) =>
    if f32Le hyst (f32Dist x e) then ({ w with ext := some (x, some (f32Lt e x)) }, 0) else (w, 0)
  | some (e, some true) =>
    if f32Le e x then ({ w with ext := some (x, some true) }, 0)
    else if f32Le hyst (f32Sub e x) then turn e false else (w, 0)
  | some (e, some false) =>
    if f32Le x e then ({ w with ext := some (x, some false) }, 0)
    else if f32Le hyst (f32Sub x e) then turn e true else (w, 0)

/-! ### Foster step (R260, R261) -/

/-- The four nodes after a step of T_A with mean loss pbar. -/
def fosterNodes (s : State) (c r : Nat) (pbar : Word) (node : List Word) : List Word :=
  let ta := f32Rat (8 * tF s : Nat) 4000000000
  (List.range 4).map fun i =>
    let a := f32Exp (f32Neg (f32Div ta (coefR s c r (44 + 4 * i))))
    f32Add (f32Mul (node.getD i 0) a) (f32Mul (f32Mul pbar (coefR s c r (28 + 4 * i))) (f32Sub (f32Int 1) a))

/-- The TSEP estimate of the step, where one is available. -/
def tsepOf (s : State) (c r : Nat) (w : Wear) : Option Word :=
  w.toff.map fun (h, i) =>
    let d := f32Sub (f32Sub (f32Sub (f32Rat h.toNat 16) (coefR s c r 60)) (f32Mul (coefR s c r 64) i)) w.dOff
    f32Add (coefR s c r 72) (f32Div d (coefR s c r 68))

/-- One switch at a step, on the heat-sink temperature code `ths`. -/
def fosterSwitch (ths : Half) (s : State) (c sw : Nat) : State :=
  let i := 12 * c + sw
  let r := sw / 4
  let w := getWear s i
  let node := fosterNodes s c r (f32Scale w.pSum (-3)) w.node
  let tjm := node.foldl f32Add (siOf s 7 (h2i ths))
  let ts := tsepOf s c r w
  let kf := min 12 (fld0 s .affCfg_kf_exp)
  let cc := match ts with
    | some t => if kf ≠ 0 ∧ !w.stopped then f32Add w.c (f32Scale (f32Sub t (f32Add tjm w.c)) (-(kf : Int))) else w.c
    | none => w.c
  let tj := f32Add tjm cc
  let off := f32Lt (f32Int 20) (f32Abs cc)
  let hyst := f32Int ((max 1 (fld0 s .affCfg_rf_hyst) : Nat) : Int)
  let (w1, lost) := rfStep hyst tj { w with
    node := node
    tjModel := tjm
    c := if off then 0 else cc
    stopped := w.stopped || off
    peak := f32Max w.peak tj
    tj := tj }
  let s1 := modWear s i fun _ => w1
  let s2 := affPut (affPut s1 c (64 + sw) (tempCode s tj)) c (228 + sw) (tempCode s w1.peak)
  let s3 := match ts with
    | some t => affPut s2 c (240 + sw) (tempCode s t)
    | none => s2
  let s4 := if off then raiseE s3 (cellSrc c 20) (BitVec.ofNat 32 c) else s3
  if lost = 0 then s4
  else
    let n := min 0xFFFF ((getPlan s4 c).rfLost + lost)
    raiseE (affPut (modPlan s4 c fun x => { x with rfLost := n }) c 287 (n : Nat)) (cellSrc c 26) (BitVec.ofNat 32 c)

/-- One cell at a step; F_AFF_TJ follows the fused estimates. The rule gives no T_hs before the first valid PT_THS: it is a free value
(DESIGN CHOICE, log entry 112). -/
def fosterCell (s : State) (c : Nat) : State :=
  if (getPlan s c).paused then s
  else
    let (ths, s0) : Half × State := match (getPlan s c).ths with
      | some h => (h, s)
      | none => let (x, t) := draw s; (BitVec.ofNat 16 x, t)
    let s1 := (List.range 12).foldl (fun t sw => fosterSwitch ths t c sw) s0
    let lim := siOf s 7 (sx 16 (fld0 s .affLimCfg1_tj_lim))
    let hot := (List.range 12).any fun sw => f32Lt lim (getWear s1 (12 * c + sw)).tj
    setC s1 (cellSrc c 21) hot (BitVec.ofNat 32 c)

/-- The step at F(k), once, with k a multiple of 8. -/
def fosterStep (s : State) : State :=
  if standby s ∨ s.frame.k % 8 ≠ 0 ∨ s.aff.stepAt = s.frame.k + 1 then s
  else modAf ((affCells s).foldl fosterCell s) fun a => { a with stepAt := s.frame.k + 1 }

/-! ### Damage and drift at an epoch (R264, R265) -/

/-- γ in force, and the horizon in station seconds, 0 for none. -/
def gammaOf (s : State) : Nat := max 1 (fld0 s .affCfg_gamma)
def horizonOf (s : State) : Nat := fld0 s .affHorizonLo_hz_lo + 2 ^ 32 * fld0 s .affHorizonHi_hz_hi

/-- Damage of one full cycle of bin (i, j). -/
def binWeight (s : State) (c r i j : Nat) : Word :=
  let dt := f32Rat ((10 * i + 5 : Nat) : Int) 2
  let tc := f32Add (f32Int (12 * (j : Int) - 34)) (f32Rat 27315 100)
  let b2 := f32Mul (coefR s c r 8) (affGain s r 2)
  let b1 := f32Mul (coefR s c r 4) (affGain s r 1)
  let a := f32Mul (coefR s c r 0) (affGain s r 0)
  f32Div (f32Pow dt b1) (f32Mul a (f32Exp (f32Div b2 tc)))

/-- Damage of switch i since the last epoch, in units of 2^−40. -/
def damageGrowth (s : State) (i : Nat) : Nat :=
  let mine := s.cave.bins.filter fun (k, _) => k / 256 = i
  let terms := mine.filterMap fun (k, n) =>
    let d := n - tget 0 s.aff.binsOld k
    if d = 0 then none
    else some (f32Mul (f32Scale (f32Int (d : Nat)) (-1)) (binWeight s (i / 12) (i % 12 / 4) (k % 256 / 16) (k % 16)))
  (f32Floor 0 (2 ^ 48 - 1) (f32Scale (f32Sum terms) 40)).toNat

/-- PT_DMG code of an accumulator. -/
def dmgCode (d : Nat) : Nat := min 0x7FFF (d / 2 ^ 25)

/-- The drift window of a switch closes. -/
def closeDrift (s : State) (c sw : Nat) : State :=
  let i := 12 * c + sw
  let r := sw / 4
  let w := getWear s i
  let empty := fun (x : Wear) => { x with drN := 0, drVon := 0, drToff := 0, drI := 0 }
  if w.drN < 256 then modWear s i empty
  else
    let n := w.drN
    let von := f32Rat (w.drVon * (baseOf s 2 : Nat)) (32768000 * n)
    let von0 := coefR s c r 76
    let rel := f32Div (f32Sub von von0) von0
    let mi := f32Rat (w.drI * (baseOf s 5 : Nat)) (32768000 * n)
    let d := f32Sub (f32Sub (f32Rat w.drToff (16 * n)) (coefR s c r 60)) (f32Mul (coefR s c r 64) mi)
    let v := f32Floor (-32768) 32767 (f32Mul rel (f32Int 32768))
    let s1 := modWear s i fun x => { empty x with dOff := d, vonDr := toHalf v }
    affPut (affPut s1 c (204 + sw) v) c (216 + sw)
      (f32Floor (-32768) 32767 (f32Mul d (f32Int 16)))

/-- A switch accrues the damage of its cycles since the last epoch. -/
def accrue (s : State) (c sw : Nat) : State :=
  let i := 12 * c + sw
  let d := damageGrowth s i
  let s1 := modWear s i fun w => { w with dDmg := d, dmg := min (2 ^ 48 - 1) (w.dmg + d) }
  affPut s1 c (192 + sw) (dmgCode (getWear s1 i).dmg : Nat)

/-- Largest damage, and largest growth, among a cell's switches. -/
def cellDmg (s : State) (c : Nat) : Nat := maxOf ((List.range 12).map fun sw => (getWear s (12 * c + sw)).dmg)
def cellGrowth (s : State) (c : Nat) : Nat := maxOf ((List.range 12).map fun sw => (getWear s (12 * c + sw)).dDmg)

/-- Windows close and damage accrues for a cell; F_AFF_DMAX follows PT_DMG_CELL. -/
def accrueCell (s : State) (c : Nat) : State :=
  let s1 := (List.range 12).foldl (fun t sw => accrue (closeDrift t c sw) c sw) s
  let d := dmgCode (cellDmg s1 c)
  let days := match (getPlan s c).capAt with
    | some t => min 0xFFFF ((secsOf (nowQ s) - t) / 86400)
    | none => (getPt s (cellPa c 255)).val.toNat
  setC (affPut (affPut s1 c 256 (d : Nat)) c 255 (days : Nat)) (cellSrc c 22) (decide (fld0 s .affLimCfg0_d_max ≤ d))
    (BitVec.ofNat 32 c)

/-! ### Planning (R269, R270) -/

/-- D and d_max as words. -/
def dmgW (d : Nat) : Word := f32Rat d (2 ^ 40)
def dMaxW (s : State) : Word := f32Rat (fld0 s .affLimCfg0_d_max : Nat) 32768

/-- d_max − D of a cell, 0 where D has reached d_max. -/
def dmgLeft (s : State) (c : Nat) : Word := f32Max 0 (f32Sub (dMaxW s) (dmgW (cellDmg s c)))

/-- L of a cell in days. -/
def lifeW (s : State) (c : Nat) : Word :=
  let left := dmgLeft s c
  if f32Positive left then f32Div left (getPlan s c).rn else 0

/-- The normalised rate takes the sample of the epoch interval. -/
def rateStep (s : State) (c : Nat) : State :=
  let eh := fld0 s .affCfg_epoch_h
  let dt := if s.aff.lastEpoch = 0 ∨ nowQ s ≤ s.aff.lastEpoch then f32Rat (eh : Nat) 24
    else f32Rat ((nowQ s - s.aff.lastEpoch : Nat) : Int) (86400 * 4000000000)
  let wg := f32PowRat (f32Rat (getCtl s c).weight.toNat 32768) (gammaOf s : Nat) 1
  let sample := f32Div (f32Div (dmgW (cellGrowth s c)) dt) wg
  modPlan s c fun x => { x with rn := f32Add x.rn (f32Mul (f32Sub sample x.rn) (f32Rat (eh : Nat) 168)) }

/-- Days from the epoch to the horizon, none where no horizon lies ahead. -/
def daysLeft (s : State) : Option Word :=
  let h := horizonOf s; let t := secsOf (nowQ s)
  if h ≤ t then none else some (f32Rat ((h - t : Nat) : Int) 86400)

/-- w* before its clamp. -/
def weightRaw (s : State) (c : Nat) (days : Word) : Word :=
  let left := dmgLeft s c
  if f32Positive left then f32PowRat (f32Div (f32Div left days) (getPlan s c).rn) 1 (gammaOf s) else 0

/-- w* as a number, clamped to 0.50 to 1.00. -/
def weightClamped (s : State) (c : Nat) (days : Word) : Word :=
  let w := weightRaw s c days
  if f32Le (f32Int 1) w then f32Int 1 else f32Max (f32Rat 1 2) w

/-- Weight target, and whether the horizon is unreachable. -/
def weightTarget (s : State) (c : Nat) : Half × Bool :=
  match daysLeft s with
  | none => (0x7FFF, false)
  | some d =>
    if f32Lt (weightRaw s c d) (f32Rat 1 2) then (0x4000, true)
    else
      let w := f32Floor 0 0x7FFF (f32Mul (weightClamped s c d) (f32Int 32768))
      let prev := (getPlan s c).pubW
      (if (fld0 s .affLimCfg0_w_hyst : Int) ≤ absI (w - (prev.toNat : Int)) then toHalf w else prev, false)

/-- Current limit target: P the highest peak, T the mean heat-sink temperature. -/
def ilimTarget (s : State) (c : Nat) : Half :=
  let p := getPlan s c
  let peak := ((List.range 12).map fun sw => (getWear s (12 * c + sw)).peak).foldl f32Max 0xFF800000
  let t := if p.thsN = 0 then siOf s 7 (ptV s (cellPa c 6)) else f32Rat (p.thsSum * (baseOf s 7 : Nat)) (32768000 * p.thsN)
  if f32Lt (f32Add t (f32Int 5)) peak then
    let lim := siOf s 7 (sx 16 (fld0 s .affLimCfg1_tj_lim))
    let x := f32Mul (f32Int (getCtl s c).ilim.toNat) (f32Sqrt (f32Max 0 (f32Div (f32Sub lim t) (f32Sub peak t))))
    toHalf (f32Floor (fld0 s .affLimCfg1_ilim_min : Nat) 0x7FFF x)
  else p.pubI

/-- Frequency offset target, within fo_max and R152. -/
def foTarget (s : State) (c : Nat) : Nat :=
  let p := getPlan s c
  match daysLeft s with
  | none => p.pubFo
  | some d =>
    let dm := maxOf ((List.range 8).map fun j => (getWear s (12 * c + 4 + j)).dmg)
    let wg := f32PowRat (weightClamped s c d) (gammaOf s : Nat) 1
    let dp := f32Add (dmgW dm) (f32Mul (f32Mul p.rn wg) d)
    let lvl := fun f => f32Mul (f32Rat (fld0 s f : Nat) 32768) (dMaxW s)
    let i := profIdx s (c / 48)
    let top := min (fld s .harpProfDab_fo_max i) (dabMax s - fld s .harpProfDab_dab_n i)
    let want := if f32Lt (lvl .affLimCfg2_fo_up) dp then p.pubFo + 1
      else if f32Lt dp (lvl .affLimCfg2_fo_dn) then p.pubFo - 1 else p.pubFo
    min want top

/-- Dead-time trim target of a switch. -/
def trimTarget (s : State) (c sw : Nat) : Nat :=
  let x := f32Mul (f32Max 0 (getWear s (12 * c + sw)).dOff) (f32Int 4)
  min 255 (-(f32Floor (-256) 0 (f32Neg x))).toNat

/-- A cell with its own targets in a plan: neither Bypassed nor Idle. -/
def planned (s : State) (c : Nat) : Bool := let r := (getCtl s c).role; r != .bypassed && r != .idle

/-- Rate, life and targets of a cell. -/
def planCell (s : State) (c : Nat) : State :=
  let s1 := rateStep s c
  let life := (f32Floor 0 65535 (lifeW s1 c)).toNat
  let s2 := affPut (modPlan s1 c fun x => { x with life := life }) c 257 (life : Nat)
  if planned s2 c then
    let (w, un) := weightTarget s2 c
    let lim := ilimTarget s2 c
    let fo := foTarget s2 c
    let dt := (List.range 12).map (trimTarget s2 c)
    let s3 := modPlan s2 c fun x => { x with pend := some (w, lim, fo, x.pubSpare, dt), unreach := un }
    setC (affStsPoint s3 c) (cellSrc c 23) un (BitVec.ofNat 32 c)
  else s2

/-- Replaces marked cells while an unmarked one has a life more than 10 % below the longest marked life. -/
def markSwap (life : Nat → Word) : Nat → List Nat → List Nat → List Nat
  | 0, m, _ => m
  | n + 1, m, u =>
    match m.reverse, u with
    | a :: rest, b :: us =>
      if f32Lt (life b) (f32Mul (f32Rat 9 10) (life a)) then
        let lt := fun c d => f32Lt (life c) (life d) || (life c == life d && decide (c < d))
        markSwap life n (sortBy lt (b :: rest)) (sortBy lt (a :: us))
      else m
    | _, _ => m

/-- Preferred spares of a branch (R270). -/
def markBranch (s : State) (b : Nat) : State :=
  let cs := (mapCells s b).filter fun c => (getPlan s c).pend.isSome
  let life := lifeW s
  let lt := fun c d => f32Lt (life c) (life d) || (life c == life d && decide (c < d))
  let k := redK s b
  let marked := (sortBy lt (cs.filter fun c => (getPlan s c).pubSpare)).take k
  let others := sortBy lt (cs.filter fun c => !marked.contains c)
  let m := sortBy lt (marked ++ others.take (k - marked.length))
  let keep := markSwap life 48 m (others.drop (k - marked.length))
  cs.foldl (fun t c => modPlan t c fun x =>
    { x with pend := x.pend.map fun (w, i, f, _, d) => (w, i, f, keep.contains c, d) }) s

/-! ### Own die (R274 to R276) -/

/-- Settings of AFF_DIE_CFG as applied. -/
def marginTgt (s : State) : Nat := let v := fld0 s .affDieCfg_margin_tgt; if v < 50 ∨ 150 < v then 70 else v
def fbbMax (s : State) : Nat := min 12 (fld0 s .affDieCfg_fbb_max)

/-- The regulator is asked for a core voltage, unless PMBus has failed. -/
def askVolt (s : State) (v : Nat) : State :=
  if s.aff.pmbusFail ∨ s.power.mode ≠ .run then s
  else modAf (sendVout s (voltMv v)) fun a => { a with vWant := some v, attempts := 0 }

/-- Boot reads the regulator's VOUT_MODE: ULINEAR16 where bits [7:5] are 0, with the exponent in [4:0]; any other format fails (R275;
the two fields PRESUMED, log entry 111). -/
def readVoutMode (s : State) : State :=
  let ok := Config.voutMode % 256 < 32
  let s1 := modAf (send s (.pmbusMode (fld0 s .affDieCfg_pmbus_addr))) fun a => { a with
    vExp := if ok then some (sx 5 Config.voutMode) else none
    pmbusFail := a.pmbusFail || !decide ok }
  setC s1 796 s1.aff.pmbusFail 0

/-- Core voltage code commanded. -/
def voltOf (s : State) : Nat := s.aff.vWant.getD s.aff.vAck

/-- One step up and one step down; outside RUN voltage and bias hold (R274, Table 16-1). -/
def dieRaise (s : State) : State :=
  if s.power.mode ≠ .run then s
  else if s.aff.fbb < fbbMax s then modAf s fun a => { a with fbb := a.fbb + 1 }
  else if voltOf s < 30 then askVolt s (voltOf s + 1) else s
def dieLower (s : State) : State :=
  if s.power.mode ≠ .run then s
  else if 0 < voltOf s ∧ !s.aff.pmbusFail then askVolt s (voltOf s - 1)
  else if 0 < s.aff.fbb then modAf s fun a => { a with fbb := a.fbb - 1 } else s

/-- Headroom index H_d. -/
def headroom (s : State) : Int := (30 - (s.aff.vAck : Int)) + ((fbbMax s : Int) - (s.aff.fbb : Int))

/-- The fitted end of life in station seconds, 0 for none. -/
def eolOf (l : List (Nat × Word)) : Nat :=
  if l.length < 30 then 0
  else
    let d0 := (l.head?.map (·.1)).getD 0
    let n := f32Int (l.length : Int)
    let xs := l.map fun (d, _) => f32Int ((d : Int) - d0)
    let ys := l.map (·.2)
    let mx := f32Div (f32Sum xs) n
    let my := f32Div (f32Sum ys) n
    let dx := xs.map fun x => f32Sub x mx
    let sxy := f32Sum (List.zipWith f32Mul dx (ys.map fun y => f32Sub y my))
    let sxx := f32Sum (List.zipWith f32Mul dx dx)
    let a := f32Div sxy sxx
    if f32Lt a 0 then
      let x := f32Sub mx (f32Div my a)
      (f32Floor 0 (2 ^ 48) (f32Mul (f32Add x (f32Int d0)) (f32Int 86400))).toNat % 2 ^ 48
    else 0

/-- The die at an epoch: margin step, headroom history, end of life. -/
def dieEpoch (s : State) : State :=
  let tgt := marginTgt s
  let s1 := match s.aff.mLow with
    | some (m, _) =>
      if fld0 s .affDieCfg_die_en = 0 then s
      else if m + 5 < tgt then dieRaise s
      else if tgt + 15 < m then dieLower s else s
    | none => s
  let day := secsOf (nowQ s) / 86400
  let h := headroom s1
  let s2 := modAf s1 fun a =>
    let moved := a.hdDayNo ≠ day ∧ 0 < a.hdDay.2
    let means := if moved then a.hdMeans ++ [(a.hdDayNo, f32Rat a.hdDay.1 a.hdDay.2)] else a.hdMeans
    let (sum, n) := if moved then (0, 0) else a.hdDay
    { a with
      marginMin := match s.aff.mLow with | some (m, _) => m | none => a.marginMin
      worstMon := match s.aff.mLow with | some (_, q) => q | none => a.worstMon
      mLow := none
      hdDay := (sum + h, n + 1)
      hdDayNo := day
      hdMeans := (means.filter fun (d, _) => decide (day < d + 366)) }
  let e := eolOf s2.aff.hdMeans
  let s3 := modAf s2 fun a => { a with eol := e }
  setC s3 797 (decide (e ≠ 0) && decide (horizonOf s ≠ 0) && decide (e < horizonOf s)) 0

/-- The 1 ms check of the margin m in 0.1 %. -/
def dieCheck (s : State) (m mon : Nat) : State :=
  let s1 := modAf s fun a => { a with mLow := match a.mLow with
    | some (x, q) => if m < x then some (m, mon) else some (x, q)
    | none => some (m, mon) }
  let s2 := if m < 50 ∧ fld0 s .affDieCfg_die_en = 1 ∧ voltOf s < 30 then askVolt s1 (min 30 (voltOf s + 2)) else s1
  let s3 := setC s2 794 (decide (m < 50)) (BitVec.ofNat 32 m)
  setC s3 795 (decide (m < 30) && s.aff.vAck == 30 && s.power.mode == .run && s.aff.fbb == fbbMax s) (BitVec.ofNat 32 m)

/-! ### Epochs (R268, R273) -/

/-- The work of an epoch up to the targets. -/
def epochWork (s : State) : State :=
  let cs := affCells s
  let s1 := cs.foldl accrueCell s
  let s2 := modAf s1 fun a => { a with gains := (List.range 12).map fun i => BitVec.ofNat 16 (fld s .affUcoef_gain i) }
  let s3 := (presentBrs s2).foldl markBranch (cs.foldl planCell s2)
  let s4 := cs.foldl (fun t c =>
    let t1 := modPlan t c fun x => { x with thsSum := 0, thsN := 0 }
    (List.range 12).foldl (fun u sw => modWear u (12 * c + sw) fun w => { w with peak := 0xFF800000, stopped := false }) t1) s3
  modAf (dieEpoch s4) fun a => { a with
    busy := true
    deferred := false
    lastEpoch := nowQ s
    binsOld := s.cave.bins }

/-- An epoch starts; it waits while the Cellar sheds, and is ignored while one runs. A standby plans nothing (R273): at an epoch its own
die's margin loop alone acts (DEDUCED, log entry 113). -/
def startEpoch (s : State) : State :=
  if s.aff.busy then s
  else if s.cellar.mode = .shed then modAf s fun a => { a with deferred := true }
  else if standby s then dieEpoch (modAf s fun a => { a with deferred := false })
  else epochWork s

/-- The whole multiple of epoch_h hours, in hours, that lies within a frame of F(k), if one does (R268). -/
def epochDue (s : State) : Option Nat :=
  let unit := 3600 * 4000000000 * max 1 (fld0 s .affCfg_epoch_h)
  let m := (nowQ s + s.frame.ticks - 1) / unit
  if nowQ s < m * unit + s.frame.ticks then some (m * max 1 (fld0 s .affCfg_epoch_h)) else none

/-- Published targets become the targets: the latest plan is in force. -/
def takeTargets (s : State) : State :=
  modAf ((affCells s).foldl (fun t c => modPlan t c fun x => { x with
    tgtW := x.pubW
    tgtI := x.pubI
    tgtFo := x.pubFo
    tgtSpare := x.pubSpare
    tgtDt := x.pubDt }) s) fun a => { a with inForce := a.seq }

/-- The epoch of a whole hour, once. The application of that hour uses the targets in force before it (R273): in AUTO those of the plan
before are taken here. -/
def hourEpoch (s : State) : State :=
  match epochDue s with
  | none => s
  | some h =>
    if s.aff.epochHour = h + 1 then s
    else
      let s1 := if s.aff.pol = 0 ∨ fld0 s .affCfg_policy = 0 then takeTargets s else s
      startEpoch (modAf s1 fun a => { a with epochHour := h + 1 })

/-- Shedding has ended: work that it stopped goes on, and an epoch that waited runs. -/
def resumeEpoch (s : State) : State :=
  if s.aff.deferred ∧ s.cellar.mode ≠ .shed then
    if s.aff.busy then modAf s fun a => { a with deferred := false } else startEpoch s
  else s

/-- Shedding has begun: the epoch work in progress stops (Table 12-2) and is deferred. -/
def shedEpoch (s : State) : State :=
  if s.aff.busy ∧ s.cellar.mode = .shed then modAf s fun a => { a with deferred := true } else s

/-- Published targets of a cell (points 258–273). -/
def publishCell (s : State) (c : Nat) : State :=
  match (getPlan s c).pend with
  | none => s
  | some (w, i, f, p, d) =>
    let s1 := modPlan s c fun x => { x with pubW := w, pubI := i, pubFo := f, pubSpare := p, pubDt := d, pend := none }
    let pts : List (Nat × Int) := [(258, (w.toNat : Int)), (259, (i.toNat : Int)), (260, (f : Int)), (261, (b2n p : Int))] ++
      (List.range 12).map fun j => (262 + j, ((d.getD j 0 : Nat) : Int))
    pts.foldl (fun t (j, v) => affPut t c j v) s1

/-- Epoch work ends: the plan is published. While the Cellar sheds no epoch work goes on (R32). A primary sends a plan that completes ahead
of an application anew (R273). -/
def completeEpoch (s : State) : State :=
  if !s.aff.busy ∨ s.cellar.mode = .shed then s
  else
    let s1 := (affCells s).foldl publishCell s
    let prop := s.aff.pol == 1
    let s2 := modAf s1 fun a => { a with busy := false, seq := (a.seq + 1) % 2 ^ 32, proposed := prop, imgHour := 0 }
    postEvent s2 0x3001 (leB 4 s2.aff.seq ++ leB 1 (b2n prop))

/-- A plan that took longer than 600 s is discarded. -/
def discardPlan (s : State) : State :=
  if !s.aff.busy then s
  else
    let s1 := (affCells s).foldl (fun t c => modPlan t c fun x => { x with pend := none }) s
    raiseE (setFld (modAf s1 fun a => { a with busy := false }) .affSts_plan_late 0 1) 793 0

/-! ### What the store holds (R267, R356) -/

/-- The points of a cell whose values the store holds, as after a restart. -/
def affShow (s : State) (c : Nat) : State :=
  let p := getPlan s c
  let w := fun sw => getWear s (12 * c + sw)
  let x := getCtl s c
  let each := fun (o : Nat) (f : Nat → Int) => (List.range 12).map fun sw => (o + sw, f sw)
  let peaks := ((List.range 12).filter fun sw => f32Finite (w sw).peak).map fun sw => (228 + sw, tempCode s (w sw).peak)
  let days := match p.capAt with
    | some t => [(255, ((min 0xFFFF ((secsOf (nowQ s) - t) / 86400) : Nat) : Int))]
    | none => []
  let pts : List (Nat × Int) := each 192 (fun sw => (dmgCode (w sw).dmg : Nat)) ++ each 204 (fun sw => h2i (w sw).vonDr) ++
    each 216 (fun sw => f32Floor (-32768) 32767 (f32Mul (w sw).dOff (f32Int 16))) ++ peaks ++
    [(252, (p.capUf.toNat : Int)), (253, (p.capEsr.toNat : Int)), (254, (p.capRel.toNat : Int))] ++ days ++
    [(256, ((dmgCode (cellDmg s c) : Nat) : Int)), (257, (p.life : Int)), (258, (p.pubW.toNat : Int)), (259, (p.pubI.toNat : Int)),
      (260, (p.pubFo : Int)), (261, (b2n p.pubSpare : Int))] ++ each 262 (fun sw => ((p.pubDt.getD sw 0 : Nat) : Int)) ++
    each 274 (fun sw => ((x.trims.getD sw 0 : Nat) : Int)) ++ [(286, (x.fo : Int)), (287, (p.rfLost : Int))]
  affStsPoint (pts.foldl (fun t (i, v) => affPut t c i v) s) c

/-- The quantities applied to a cell. -/
def putApplied (s : State) (c : Nat) (a : Applied) : State :=
  modCtl s c fun y => { y with
    weight := a.weight
    ilim := a.ilim
    fo := a.fo
    trims := a.trims
    pref := a.pref }

/-- A boundary takes the applied quantities of a standby's image once they have all come, unless the policy is FROZEN (R31). -/
def imageApply (s : State) : State :=
  if s.aff.appReady ∧ fld0 s .affCfg_policy < 2 then
    let t := s.aff.appNext.foldl (fun t (c, a) => affShow (putApplied t c a) c) s
    modAf t fun a => { a with appNext := [], appReady := false }
  else s

/-! ### Applications (R271, R272) -/

/-- The proposed plan is accepted, or discarded. -/
def acceptPlan (s : State) : State := if s.aff.proposed then modAf (takeTargets s) fun a => { a with proposed := false, imgHour := 0 } else s
def rejectPlan (s : State) : State :=
  if s.aff.proposed then
    modAf ((affCells s).foldl (fun t c => modPlan t c fun x => { x with
      pubW := x.tgtW
      pubI := x.tgtI
      pubFo := x.tgtFo
      pubSpare := x.tgtSpare
      pubDt := x.tgtDt }) s) fun a => { a with proposed := false }
  else s

/-- The hour of a boundary and that of the one before it, whatever lay between them: a frame, a sleep, or a step of station time. -/
def hourBoundary (s : State) : State := modAf s fun a => { a with hourPrev := a.hourNow, hourNow := hourNo (nowQ s) }

/-- F(k) is the first boundary at or after a whole hour, whose application has not been made (R271). -/
def applyDue (s : State) : Bool :=
  s.aff.hourPrev != 0 && decide (s.aff.hourPrev < s.aff.hourNow) && s.aff.hourAt != s.aff.hourNow

/-- The hours since every quantity last changed go on by those since the application before, which a sleep may have left out (R401), and
by one at the first application after a start (DESIGN CHOICE, log entry 114). The policy of this hour is taken (R272); with it at AUTO a
plan that stood proposed is one to apply. -/
def hourTick (s : State) : State :=
  let now := s.aff.hourNow
  let n := if s.aff.hourAt = 0 then 1 else max 1 (now - s.aff.hourAt)
  let s1 := (affCells s).foldl (fun t c => modPlan t c fun x => { x with hrs := x.hrs.map fun h => min 24 (h + n) }) s
  modAf s1 fun a => { a with
    hourAt := now
    pol := fld0 s .affCfg_policy
    proposed := a.proposed && fld0 s .affCfg_policy != 0 }

/-- Every quantity of a cell moves within Table 10-3. -/
def applyCell (s : State) (c : Nat) : State :=
  let p := getPlan s c
  let x := getCtl s c
  let h := fun i => p.hrs.getD i 0
  let w := moveTo x.weight.toNat p.tgtW.toNat (x.weight.toNat * h 0 / 100)
  let l := moveTo x.ilim.toNat p.tgtI.toNat (x.ilim.toNat * h 1 / 100)
  let fo := foMove s c p.tgtFo (h 2)
  let dt := (List.range 12).map fun sw => moveTo (x.trims.getD sw 0) (p.tgtDt.getD sw 0) (h (3 + sw) * deadTime s c sw / 100)
  let same := [w == x.weight.toNat, l == x.ilim.toNat, fo == x.fo] ++ (List.range 12).map fun sw => dt.getD sw 0 == x.trims.getD sw 0
  let s1 := modCtl s c fun y => { y with
    weight := BitVec.ofNat 16 w
    ilim := BitVec.ofNat 16 l
    fo := fo
    trims := dt
    pref := p.tgtSpare }
  let s2 := modPlan s1 c fun y => { y with hrs := (List.range 15).map fun i => if same.getD i true then h i else 0 }
  let s3 := (List.range 12).foldl (fun t sw => affPut t c (274 + sw) (dt.getD sw 0 : Nat)) s2
  affPut s3 c 286 (fo : Nat)

/-- A plan application under the policy in force, with at most one exchange of spares in each branch. The targets of the epoch of this
very hour wait for a later one (R273). -/
def applyPlan (s : State) : State :=
  if 2 ≤ s.aff.pol then s
  else
    let s1 := if s.aff.pol = 0 ∧ s.aff.epochHour ≠ s.aff.hourAt then takeTargets s else s
    (presentBrs s1).foldl spareExchange ((affCells s1).foldl applyCell s1)

/-- Capacitor fits that start, or are tried again, at an application. -/
def startFits (s : State) : State :=
  let t := secsOf (nowQ s)
  let day := t / 86400 + 1
  let cs := (affCells s).filter fun c => (getCtl s c).role == .inserted
  if standby s ∨ s.cellar.mode = .shed then s
  else if min 23 (fld0 s .affCfg_cap_hour) ≤ t % 86400 / 3600 ∧ s.aff.capDay ≠ day then
    modAf (cs.foldl (fun u c => fitStart (modPlan u c fun x => { x with retries := 0 }) c) s) fun a => { a with capDay := day }
  else (cs.filter fun c => let p := getPlan s c; p.fit.isNone && decide (0 < p.retries) && decide (p.retries < 24)).foldl fitStart s

/-- An application boundary; during RIDE-THROUGH the quantities move at its exit (R248). -/
def applicationBoundary (s : State) : State :=
  let s1 := hourTick s
  startFits (if s.mode.rt then { s1 with mode := { s1.mode with planDue := true } } else applyPlan s1)

/-- The application that fell due during RIDE-THROUGH takes place at its exit. -/
def dueApplication (s : State) : State :=
  if s.mode.planDue ∧ !s.mode.rt then applyPlan { s with mode := { s.mode with planDue := false } } else s

/-! ### Commit (R278) -/

/-- Commit of block 9: refused for policy 3 or an epoch_h that does not divide 24; it applies at the write. -/
def commitAff (s : State) : State × Option Nat :=
  let e := sfld s .affCfg_epoch_h 0
  if sfld s .affCfg_policy 0 = 3 ∨ e = 0 ∨ 24 % e ≠ 0 then (setFld s .affCfg_refused 0 1, some 1)
  else (applyBlock (stageBlock s 9 fun _ _ => true) 9, none)

/-! ### Meanings -/

/-- R260: the Foster step. -/
def execFosterStep (s : State) : Host.Outcome State Fault Refusal := onCore s fosterStep

/-- R268: an epoch. -/
def execEpoch (s : State) : Host.Outcome State Fault Refusal := onCore s hourEpoch

/-- R268: the end of epoch work. -/
def execEpochComplete (s : State) : Host.Outcome State Fault Refusal := onCore s completeEpoch

/-- R268: a plan that missed its 600 s. -/
def execPlanLate (s : State) : Host.Outcome State Fault Refusal := onCore s discardPlan

/-- R266: a capacitor fit ends. -/
def execCapacitorFitComplete (cell : Cell) (s : State) : Host.Outcome State Fault Refusal := onCore s fun s => fitEnd s cell

/-- R274: the 1 ms margin check. -/
def execDieMarginCheck (margin : Nat) (monitor : Fin 64) (s : State) : Host.Outcome State Fault Refusal :=
  onCore s fun s => dieCheck s margin monitor

/-- R275: the regulator's answer to a VOUT_COMMAND. -/
def execPmbusWriteResult (acked : Bool) (s : State) : Host.Outcome State Fault Refusal :=
  onCore s fun s =>
    match s.aff.vWant with
    | none => s
    | some v =>
      if acked then modAf s fun a => { a with vAck := v, vWant := none, attempts := 0 }
      else if s.aff.attempts + 1 < 3 then modAf (sendVout s (voltMv v)) fun a => { a with attempts := a.attempts + 1 }
      else setC (modAf s fun a => { a with vWant := none, attempts := 0, pmbusFail := true }) 796 true 0

/-- R272: AFF_CTL.accept. -/
def execAffCtlAccept (s : State) : Host.Outcome State Fault Refusal := onCore s fun s => barWo s acceptPlan

/-- R272: AFF_CTL.reject. -/
def execAffCtlReject (s : State) : Host.Outcome State Fault Refusal := onCore s fun s => barWo s rejectPlan

/-- R268: AFF_CTL.epoch_now. -/
def execAffCtlEpochNow (s : State) : Host.Outcome State Fault Refusal := onCore s fun s => barWo s startEpoch

end Sys2Proof.Machine
end

