-- ==== Sys2Proof/Machine/AffImage.lean ====
section
/-!
DEFINITION. The plan and ageing image that a primary sends its standby (R223, R273). Table 08-5 gives the kind and the 116 bytes of a chunk
and no layout. The layout here is the model's own (DESIGN CHOICE, log entry 115): byte 0 the kind 0x03, bytes 1 to 3 the record number, then
112 bytes of the record. Record 0 is the head; then five for each cell, its plan with the applied quantities and its factory record up to
byte 423; then 33 for each switch, its wear in three and its bins, now and at the latest epoch, 18 to a record.
-/
namespace Sys2Proof.Machine

/-! ### Layout -/

/-- The number of records ahead of the switches', which are the ones sent ahead of a plan application, and of all. -/
def planRecords : Nat := 1 + 5 * 576
def allRecords : Nat := planRecords + 33 * 6912

/-- One byte each of the first n values of a list, and the n values at an offset. -/
def octets (n : Nat) (l : List Nat) : List Byte := (List.range n).map fun i => BitVec.ofNat 8 (l.getD i 0)
def natsAt (l : List Byte) (o n : Nat) : List Nat := (List.range n).map fun i => byteAt l (o + i)

/-- A value that may be absent: a byte that says whether it is there, then n bytes. -/
def optB (n : Nat) (x : Option Nat) : List Byte := leB 1 (b2n x.isSome) ++ leB n (x.getD 0)
def optAt (l : List Byte) (o n : Nat) : Option Nat := if byteAt l o = 0 then none else some (fieldAt l (o + 1) n)

/-- The quantities of a plan, 19 bytes. -/
def quantB (a : Applied) : List Byte :=
  leB 2 a.weight.toNat ++ leB 2 a.ilim.toNat ++ leB 2 a.fo ++ leB 1 (b2n a.pref) ++ octets 12 a.trims
def quantAt (l : List Byte) (o : Nat) : Applied :=
  { weight := BitVec.ofNat 16 (fieldAt l o 2)
    ilim := BitVec.ofNat 16 (fieldAt l (o + 2) 2)
    fo := fieldAt l (o + 4) 2
    pref := byteAt l (o + 6) != 0
    trims := natsAt l (o + 7) 12 }

/-- A cell's plan and the quantities applied to it, 110 bytes. -/
def planB (p : Plan) (a : Applied) : List Byte :=
  leB 4 p.rn.toNat ++ leB 4 p.life ++ quantB ⟨p.pubW, p.pubI, p.pubFo, p.pubDt, p.pubSpare⟩ ++
  quantB ⟨p.tgtW, p.tgtI, p.tgtFo, p.tgtDt, p.tgtSpare⟩ ++ quantB a ++ octets 15 p.hrs ++
  leB 1 (b2n p.unreach + 2 * b2n p.capLim + 4 * b2n p.capAt.isSome + 8 * b2n p.ths.isSome + 16 * p.missing) ++
  leB 1 p.retries ++ leB 2 p.rfLost ++ leB 6 (p.capAt.getD 0) ++ leB 8 (ux 64 p.thsSum) ++ leB 4 p.thsN ++
  leB 2 ((p.ths.map (·.toNat)).getD 0) ++ leB 2 p.capUf.toNat ++ leB 2 p.capEsr.toNat ++ leB 2 p.capRel.toNat
def planAt (l : List Byte) (p : Plan) : Plan :=
  let pub := quantAt l 8
  let tgt := quantAt l 27
  { p with
    rn := BitVec.ofNat 32 (fieldAt l 0 4)
    life := fieldAt l 4 4
    pubW := pub.weight
    pubI := pub.ilim
    pubFo := pub.fo
    pubSpare := pub.pref
    pubDt := pub.trims
    tgtW := tgt.weight
    tgtI := tgt.ilim
    tgtFo := tgt.fo
    tgtSpare := tgt.pref
    tgtDt := tgt.trims
    hrs := natsAt l 65 15
    unreach := bitAt (byteAt l 80) 0
    capLim := bitAt (byteAt l 80) 1
    missing := byteAt l 80 / 16
    retries := byteAt l 81
    rfLost := fieldAt l 82 2
    capAt := if bitAt (byteAt l 80) 2 then some (fieldAt l 84 6) else none
    thsSum := sx 64 (fieldAt l 90 8)
    thsN := fieldAt l 98 4
    ths := if bitAt (byteAt l 80) 3 then some (BitVec.ofNat 16 (fieldAt l 102 2)) else none
    capUf := BitVec.ofNat 16 (fieldAt l 104 2)
    capEsr := BitVec.ofNat 16 (fieldAt l 106 2)
    capRel := BitVec.ofNat 16 (fieldAt l 108 2) }

/-- A switch's wear: 94 bytes, then the first 28 values of its residue stack, then the other four and its queued cycles. -/
def wearB (w : Wear) : List Byte :=
  (List.range 4).flatMap (fun i => leB 4 (w.node.getD i 0).toNat) ++ leB 4 w.c.toNat ++ leB 4 w.tjModel.toNat ++ leB 4 w.p.toNat ++
  leB 4 w.dOff.toNat ++ leB 4 w.peak.toNat ++ leB 6 w.dmg ++ leB 6 w.dDmg ++ leB 1 (b2n w.stopped) ++ optB 2 (w.von.map (·.toNat)) ++
  leB 4 w.drN ++ leB 8 (ux 64 w.drVon) ++ leB 8 w.drToff ++ leB 8 (ux 64 w.drI) ++
  optB 4 (w.ext.map (·.1.toNat)) ++ leB 1 (match w.ext with | some (_, some true) => 2 | some (_, some false) => 1 | _ => 0) ++
  leB 1 w.stack.length ++ leB 1 w.queue.length ++ leB 4 w.tj.toNat ++ leB 2 w.vonDr.toNat
def stackB (w : Wear) (o n : Nat) : List Byte := (List.range n).flatMap fun i => leB 4 (w.stack.getD (o + i) 0).toNat
def queueB (w : Wear) : List Byte := w.queue.flatMap fun (i, j, full) => leB 1 i ++ leB 1 j ++ leB 1 (b2n full)
def wearAt (l : List Byte) (w : Wear) : Wear :=
  { w with
    node := (List.range 4).map fun i => BitVec.ofNat 32 (fieldAt l (4 * i) 4)
    c := BitVec.ofNat 32 (fieldAt l 16 4)
    tjModel := BitVec.ofNat 32 (fieldAt l 20 4)
    p := BitVec.ofNat 32 (fieldAt l 24 4)
    dOff := BitVec.ofNat 32 (fieldAt l 28 4)
    peak := BitVec.ofNat 32 (fieldAt l 32 4)
    dmg := fieldAt l 36 6
    dDmg := fieldAt l 42 6
    stopped := byteAt l 48 != 0
    von := (optAt l 49 2).map (BitVec.ofNat 16 ·)
    drN := fieldAt l 52 4
    drVon := sx 64 (fieldAt l 56 8)
    drToff := fieldAt l 64 8
    drI := sx 64 (fieldAt l 72 8)
    ext := (optAt l 80 4).map fun x => (BitVec.ofNat 32 x, match byteAt l 85 with | 2 => some true | 1 => some false | _ => none)
    stack := List.replicate (min 32 (byteAt l 86)) 0
    queue := List.replicate (min 16 (byteAt l 87)) (0, 0, false)
    tj := BitVec.ofNat 32 (fieldAt l 88 4)
    vonDr := BitVec.ofNat 16 (fieldAt l 92 2) }

/-- The stack's values from index o on, and the queue, into the lengths that the first record gave. -/
def stackAt (l : List Byte) (o n : Nat) (w : Wear) : Wear :=
  { w with stack := (List.range w.stack.length).map fun i =>
      if o ≤ i ∧ i < o + n then BitVec.ofNat 32 (fieldAt l (4 * (i - o)) 4) else w.stack.getD i 0 }
def queueAt (l : List Byte) (w : Wear) : Wear :=
  { w with queue := (List.range w.queue.length).map fun i => (byteAt l (16 + 3 * i), byteAt l (17 + 3 * i), byteAt l (18 + 3 * i) != 0) }

/-- 18 bins of a switch from bin o on, and their way back into a table. -/
def binsB (t : Tbl Nat) (i o : Nat) : List Byte := (List.range 18).flatMap fun j => if o + j < 256 then leB 6 (tget 0 t (256 * i + o + j)) else []
def binsAt (l : List Byte) (i o : Nat) (t : Tbl Nat) : Tbl Nat :=
  (List.range 18).foldl (fun u j => if o + j < 256 then tset 0 u (256 * i + o + j) (fieldAt l (6 * j) 6) else u) t

/-- The head: numbers of the latest plan and of the one in force, time of the latest epoch, day of the last fits, whether a plan stands proposed, the gains. -/
def headB (x : AffStore) : List Byte :=
  leB 4 x.planSeq ++ leB 4 x.planForce ++ leB 8 x.lastEpoch ++ leB 4 x.capDay ++ leB 1 (b2n x.proposed) ++
  (List.range 12).flatMap fun i => leB 2 (x.gains.getD i 0).toNat

/-! ### The primary sends (R223) -/

/-- The 112 bytes of record r. -/
def imageB (s : State) (x : AffStore) (r : Nat) : List Byte :=
  padB 112 (
    if r = 0 then headB x
    else if r < planRecords then
      let c := (r - 1) / 5
      match (r - 1) % 5 with
      | 0 => planB (tget Plan.zero x.plans c) (tget ⟨0x7FFF, 0x7FFF, 0, [], false⟩ x.applied c)
      | j + 1 => (((getLink s c).fact.getD []).drop (106 * j)).take 106
    else
      let i := (r - planRecords) / 33
      let w := tget Wear.zero x.wear i
      match (r - planRecords) % 33 with
      | 0 => wearB w
      | 1 => stackB w 0 28
      | 2 => stackB w 28 4 ++ queueB w
      | j + 3 => if j < 15 then binsB x.bins i (18 * j) else binsB x.binsOld i (18 * (j - 15)))

/-- Chunks of the image that a frame carries on each peer lane in its spare capacity (DESIGN CHOICE, log entry 115). -/
def imageRate : Nat := 8

/-- Chunks of the image being sent, in the spare capacity of a frame; none while the Peer mirror requester starves, which reads them from
the Cave (Table 14-6). -/
def sendImage (s : State) : State :=
  match s.aff.imgSend with
  | none => s
  | some (r, stop, x) =>
    let up := [false, true].filter (peerLive s)
    if s.twin.role ≠ .primary ∨ up.isEmpty ∨ vatStarving s 6 then s
    else
      let n := min (imageRate * up.length) (stop - r)
      let s1 := (List.range n).foldl (fun t j =>
        send t (.lane (26 + b2n (up.getD (j % up.length) false)) .first (leB 1 3 ++ leB 3 (r + j) ++ imageB s x (r + j)))) s
      modAf s1 fun a => { a with imgSend := if r + n < stop then some (r + n, stop, x) else none }

/-- The sending of an image begins. -/
def startImage (s : State) (stop : Nat) (x : AffStore) : State :=
  if s.twin.role = .primary then modAf s fun a => { a with imgSend := some (0, stop, x) } else s

/-! ### The standby holds it (R273) -/

/-- Part j of a cell's factory record; the last completes it, and the record is checked as one read at discovery is (R132). -/
def takeFact (s : State) (c j : Nat) (l : List Byte) : State :=
  let old := ((getLink s c).fact.getD []).take (106 * j)
  let s1 := modLink s c fun x => { x with fact := some (padB (106 * j) old ++ l.take 106) }
  let f := (getLink s1 c).fact.getD []
  if j = 3 then
    let bad := factFails f
    takeCoef (setC (modLink s1 c fun x => { x with factBad := bad }) (cellSrc c 13) bad (BitVec.ofNat 32 c)) c f
  else s1

/-- Record r of the primary's image. -/
def takeRecord (s : State) (r : Nat) (l : List Byte) : State :=
  if r = 0 then modAf s fun a => { a with
    seq := fieldAt l 0 4
    inForce := fieldAt l 4 4
    lastEpoch := fieldAt l 8 8
    capDay := fieldAt l 16 4
    proposed := byteAt l 20 != 0
    gains := (List.range 12).map fun i => BitVec.ofNat 16 (fieldAt l (21 + 2 * i) 2) }
  else if r < planRecords then
    let c := (r - 1) / 5
    let ready := fun (t : State) => if r + 1 = planRecords then modAf t fun a => { a with appReady := true } else t
    ready <| match (r - 1) % 5 with
    | 0 => affShow (modAf (modPlan s c (planAt l)) fun a => { a with appNext := tput a.appNext c (quantAt l 46) }) c
    | j + 1 => takeFact s c j l
  else if r < allRecords then
    let i := (r - planRecords) / 33
    match (r - planRecords) % 33 with
    | 0 => modWear s i (wearAt l)
    | 1 => modWear s i (stackAt l 0 28)
    | 2 => modWear s i fun w => queueAt l (stackAt l 28 4 w)
    | j + 3 =>
      if j < 15 then { s with cave := { s.cave with bins := binsAt l i (18 * j) s.cave.bins } }
      else modAf s fun a => { a with binsOld := binsAt l i (18 * (j - 15)) a.binsOld }
  else s

/-- A chunk of the image that a standby hears; none is written to the Cave while the Peer mirror requester starves. -/
def imageHeard (s : State) (l : List Byte) : State :=
  if s.twin.role ≠ .standby ∨ l.length ≠ 116 ∨ byteAt l 0 ≠ 3 ∨ vatStarving s 6 then s else takeRecord s (fieldAt l 1 3) (l.drop 4)

/-- R225, R273: a chunk of the plan and ageing image that a standby holds. -/
def execPlanAndAgeingImage (lane1 : Bool) (run : SlabRun) (s : State) : Host.Outcome State Fault Refusal :=
  onCore s fun s => onPeer s lane1 run .last fun t l => imageHeard t (l.take 116)

end Sys2Proof.Machine
end

