-- ==== Sys2Proof/Machine/Cellar.lean ====
section
/-!
DEFINITION. The Cellar (chapter 12): the thermal model, the diodes and their cross-check, the states of Table 12-2, and the shutdown.
Temperatures are in 1/16 °C; rises and the base are held with 16 further fraction bits.
-/
namespace Sys2Proof.Machine

def modCe (s : State) (f : Cellar → Cellar) : State := { s with cellar := f s.cellar }

/-- Nodes with a diode (Table 12-1). -/
def diodeNode (j : Nat) : Nat := [1, 4, 7, 12].getD j 0

/-- T_i of node i. -/
def nodeTemp (x : Cellar) (i : Nat) : Int := asr (x.base + x.rise.getD i 0) 16

/-- The node with the largest T_i, the lowest of equals. -/
def hotNode (x : Cellar) : Nat :=
  (List.range 16).foldl (fun h i => if nodeTemp x h < nodeTemp x i then i else h) 0

/-- The latest reading of diode j where it is valid: within its range, and with the diode enabled (R305). -/
def diodeRead (s : State) (j : Nat) : Option Int := if bitAt (fld0 s .cellarCfg_diode_en) j then s.cellar.diode.getD j none else none

/-- Valid readings: diode and value. -/
def validDiodes (s : State) : List (Nat × Int) := (List.range 4).filterMap fun j => (diodeRead s j).map fun v => (j, v)

/-! ### Model (R304) -/

/-- Power assigned to node i of the domains' powers in milliwatts. -/
def nodePower (powers : List Nat) (i : Nat) : Nat :=
  ((List.range powers.length).map fun d => powers.getD d 0 * Config.thermal 3 i d).sum / 2 ^ 32

/-- Rises after one update of 1 µs. -/
def eulerStep (rise : List Int) (power : List Nat) : List Int :=
  (List.range 16).map fun i =>
    let r := rise.getD i 0
    let flow := ((List.range 16).map fun j => (Config.thermal 0 i j : Int) * (r - rise.getD j 0)).sum
    r + asr ((power.getD i 0 : Int) * Config.thermal 2 i 0 - flow - r * Config.thermal 1 i 0) 32

/-- T_c, its node and the peak of the present nodes. -/
def takeTc (x : Cellar) : Cellar :=
  let h := hotNode x
  let t := nodeTemp x h
  { x with tC := t, hot := h, temp := (List.range 16).map (nodeTemp x), peak := max x.peak t }

/-! ### Shutdown (R311) -/

/-- The shutdown record. -/
def shutdownRecord (s : State) (temp : Int) (place : Nat) (byDiode : Bool) : State :=
  modCe s fun x => { x with
    sdLatch := true
    sdTemp := temp
    sdWhere := place
    sdDiode := byDiode
    sdCount := satInc 0x7FF x.sdCount
    sdTime := secsOf (nowQ s)
    sdTimeHi := BitVec.ofNat 16 (secsOf (nowQ s) / 2 ^ 32) }

/-- PARK with target 0x3F and reason 0x10 on lane n where it is UP, or in electrical idle under R85. -/
def shutdownParkLane (s : State) (n : Nat) : State :=
  let a := markB (laneCoding s n) (parkB 0x3F 0x10 s.frame.k false)
  match (getLane s n).mode with
  | .up | .degraded => send s (.lane n .park a)
  | .eidle => send (modLane (startAttempt s n false) n fun x => { x with parkPend := some a }) (.lane n .park a)
  | _ => s

/-- That on every cell lane and every peer lane. -/
def shutdownPark (s : State) : State :=
  (((presentBrs s).flatMap fun b => [2 * b, 2 * b + 1]) ++ [26, 27]).foldl shutdownParkLane s

/-- A shutdown: pairs off, TRIP_N, PARK, the core stops with the converter PARKED, the trace ring frozen. -/
def shutdown (s : State) (temp : Int) (place : Nat) (byDiode : Bool) : State :=
  let s1 := shutdownPark ((List.range 12).foldl forceOff (shutdownRecord s temp place byDiode))
  let s2 := (presentBrs s1).foldl disarm s1
  let s3 := match (traceTrigger s2 4).cave.mode, (traceTrigger s2 4).cave.trigK with
    | .post, some t => freezeRing (traceTrigger s2 4) t
    | _, _ => traceTrigger s2 4
  { s3 with
    cellar := { s3.cellar with mode := .shutdown }
    rind := { s3.rind with tripN := true, tripBoot := true }
    mode := { s3.mode with conv := if s3.mode.conv = .safe then .safe else .parked, formed := false } }

/-! ### States (R309, R314) -/

/-- State after an update, of Table 12-2 without its first row. -/
def cellarNext (m : CellarMode) (t : Int) : CellarMode :=
  match m with
  | .normal => if 2000 ≤ t then .shed else if 1840 ≤ t then .warn else .normal
  | .warn => if 2000 ≤ t then .shed else if t < 1792 then .normal else .warn
  | .shed => if t < 1792 then .normal else if t < 1920 then .warn else .shed
  | .shutdown => .shutdown

/-- F_CELLAR_WARN and F_CELLAR_SHED follow the state. -/
def cellarFaults (s : State) : State :=
  let m := s.cellar.mode
  let d : Word := BitVec.ofInt 32 s.cellar.tC
  setC (setC s 798 (m == .warn || m == .shed) d) 799 (m == .shed) d

/-- An update's transition. -/
def cellarUpdate (s : State) : State :=
  let x := s.cellar
  if x.mode = .shutdown then s
  else if 2240 ≤ x.tC then shutdown s x.tC x.hot false
  else
    let m := cellarNext x.mode x.tC
    if m = x.mode then s else resumeEpoch (shedEpoch (cellarFaults (modCe s fun x => { x with mode := m })))

/-! ### Diodes (R305 to R307) -/

/-- Median of the offsets D_j − R_n(j), with 16 further fraction bits; none without a valid diode. -/
def baseMedian (s : State) : Option Int :=
  let l := ((validDiodes s).map fun (j, v) => v * 65536 - s.cellar.rise.getD (diodeNode j) 0)
  let sorted := l.foldr (fun v acc => (acc.takeWhile fun u => decide (u < v)) ++ v :: (acc.dropWhile fun u => decide (u < v))) []
  let g := fun i => sorted.getD i 0
  match sorted.length with
  | 0 => none
  | 1 => some (g 0)
  | 2 => some (asr (g 0 + g 1) 1)
  | 3 => some (g 1)
  | _ => some (asr (g 1 + g 2) 1)

/-- The base, filtered every 1 ms. -/
def baseUpdate (s : State) : State :=
  match baseMedian s with
  | none => s
  | some m => modCe s fun x => { x with base := x.base + asr (m - x.base) 10, baseOk := true }

/-- The base starts at the median of the first valid readings, which are those of the first conversion of every diode (DEDUCED, log entry
148). -/
def baseStart (s : State) : State :=
  if s.cellar.baseOk then s
  else match baseMedian s with
    | some m => modCe s fun x => { x with base := m, baseOk := x.seen == 15 }
    | none => s

/-- F_CELLAR_MODEL (R306), once every diode has been converted. -/
def crossCheck (s : State) : State :=
  let x := s.cellar
  let v := validDiodes s
  let few := x.seen == 15 && decide (v.length < 2)
  let bad := v.any fun (j, _) => decide (10 ≤ x.missRun.getD j 0)
  let good := decide (2 ≤ v.length) && v.all fun (j, _) => decide (10 ≤ x.okRun.getD j 0)
  let live := if few || bad then true else if good then false else x.mismatch
  setC (modCe s fun y => { y with mismatch := live }) 800 live (BitVec.ofNat 32 v.length)

/-- A reading of diode j. -/
def diodeReading (s : State) (j : Nat) (r : Int) : State :=
  let en := bitAt (fld0 s .cellarCfg_diode_en) j
  let ok := en && decide (-880 ≤ r) && decide (r ≤ 2800)
  let t := nodeTemp s.cellar (diodeNode j)
  let d := absI (r - t)
  let run := fun (l : List Nat) (c : Bool) => l.set j (if ok && c then min 10 (l.getD j 0 + 1) else 0)
  let s1 := modCe s fun x => { x with
    diode := x.diode.set j (if ok then some r else none)
    seen := x.seen ||| BitVec.ofNat 4 (2 ^ j)
    diodeModel := x.diodeModel.set j t
    hiRun := run x.hiRun (decide (2320 ≤ r))
    missRun := run x.missRun (decide (128 < d))
    okRun := run x.okRun (decide (d ≤ 96)) }
  let s3 := crossCheck (baseStart s1)
  if s3.cellar.mode ≠ .shutdown ∧ 3 ≤ s3.cellar.hiRun.getD j 0 then shutdown s3 r j true
  else if s3.cellar.mode ≠ .shutdown ∧ 2240 ≤ s3.cellar.tC then shutdown s3 s3.cellar.tC s3.cellar.hot false
  else s3

/-- T_c and every valid diode stand below 100 °C. -/
def cooled (s : State) : Bool := decide (s.cellar.tC < 1600) && (validDiodes s).all fun (_, v) => decide (v < 1600)

/-! ### Commit and commands -/

/-- The Cellar has its clock and supply, and no reset is held: it runs in RUN, IDLE and SHUTDOWN. -/
def cellarRuns (s : State) : Bool :=
  s.power.mode != .cure && !s.boot.rstLow && !s.boot.porstLow && s.boot.aonUp

/-- A Cellar command: the rest of the core follows it while its clock runs. -/
def onCellar (s : State) (f : State → State) : Host.Outcome State Fault Refusal :=
  if cellarRuns s then
    let t := f s
    .next (if clocked t then settle t else updPins t)
  else .next s

/-- Commit of block 11 (R306, R315): it applies at the write. -/
def commitCellar (s : State) : State × Option Nat :=
  let en := sfld s .cellarCfg_diode_en 0
  if ((List.range 4).filter (bitAt en)).length < 2 then (setFld s .cellarCfg_refused 0 1, some 1)
  else (applyBlock (stageBlock s 11 fun _ _ => true) 11, none)

/-! ### Meanings -/

/-- R304, R309: an update with the power of every domain in milliwatts. -/
def execCellarModelUpdate (powers : List Nat) (s : State) : Host.Outcome State Fault Refusal :=
  onCellar s fun s =>
    let p := (List.range 16).map (nodePower powers)
    cellarUpdate (modCe s fun x => takeTc { x with power := p, rise := eulerStep x.rise p })

/-- R305 to R307: a diode reading. -/
def execCellarDiodeReading (diode : Fin 4) (reading : Int) (s : State) : Host.Outcome State Fault Refusal :=
  onCellar s fun s => diodeReading s diode reading

/-- R305: the base update. -/
def execCellarBaseUpdate (s : State) : Host.Outcome State Fault Refusal := onCellar s baseUpdate

/-- R311: the lanes repeat PARK while the core is stopped. -/
def execParkShutdownRepeat (s : State) : Host.Outcome State Fault Refusal :=
  onCellar s fun s => if s.cellar.mode = .shutdown then shutdownPark s else s

/-- R312, R315: CELLAR_STS.sd_latch is cleared. -/
def execCellarStsSdLatchClear (s : State) : Host.Outcome State Fault Refusal :=
  onCore s fun s => setC (modCe s fun x => { x with sdLatch := false }) 801 false 0

/-- R315: CELLAR_PEAK.clr. -/
def execCellarPeakClr (s : State) : Host.Outcome State Fault Refusal :=
  onCore s fun s => barWo s fun s => modCe s fun x => { x with peak := x.tC }

/-- R315: a read of CELLAR_SD_TIME_LO latches the high part. -/
def execCellarSdTimeLoRead (s : State) : Host.Outcome State Fault Refusal :=
  onCore s fun s =>
    let t := modCe s fun x => { x with sdTimeHi := BitVec.ofNat 16 (x.sdTime / 2 ^ 32) }
    { t with regs := { t.regs with readData := [BitVec.ofNat 32 s.cellar.sdTime] } }

end Sys2Proof.Machine
end

