-- ==== Sys2Proof/Machine/Cave.lean ====
section
/-!
DEFINITION. The Cave (chapter 14): trace ring, daily persistence of the Affinage store, and the Vat arbiters.
-/
namespace Sys2Proof.Machine

def modCv (s : State) (f : Cave → Cave) : State := { s with cave := f s.cave }

/-! ### Trace ring (R348 to R353) -/

/-- Slot size S and depth D for n points. -/
def slotSize (n : Nat) : Nat := cdiv (2 * n) 64 * 64
def traceDepth (n : Nat) : Nat := if n = 0 then 0 else min (12884901888 / slotSize n) 1048576

/-- Value of a point in the record of this frame: inputs and host points at their snapshot, others as they are now (R349). -/
def traceVal (s : State) (pa : Nat) : Half :=
  let w := writerOf pa
  if ptAbsent s pa then 0
  else if w = 1 ∨ w = 2 ∨ w = 3 ∨ w = 7 then (tget (pointInit pa) s.curd.snap pa).val
  else (seePt s pa).val

/-- The record of the current frame with its index entry, once; a gap where the Cellar sheds, or staging has no room for it (R349). -/
def traceRecord (s : State) : State :=
  let x := s.cave
  let k := s.frame.k
  let past : Bool := match x.trigK with | some t => x.mode == .post && decide (t + x.postLen < k) | none => false
  let twice : Bool := match x.ring.getLast? with | some r => r.k == k | none => false
  if (x.mode != .recording && x.mode != .post) || x.list.isEmpty || past || twice then s
  else
    let shed := s.cellar.mode == .shed
    let size := slotSize x.list.length + 16
    let starved := !stageRoom s size
    let vals := if shed || starved then [] else x.list.map (traceVal s)
    let r : TraceRec := ⟨k, shed || starved || x.gapNext, x.trigK == some k, x.firstRec, false, nowQ s, vals⟩
    let ring := x.ring ++ [r]
    let s1 := modCv s fun y => { y with
      ring := ring.drop (ring.length - traceDepth x.list.length)
      firstRec := false
      gapNext := false
      trcStage := if !vatStarving s 14 then 0 else if shed || starved then y.trcStage else y.trcStage + size }
    if starved && !shed then raiseE s1 944 0 else s1

/-- The Press spill ring takes this frame's state image while the trace ring is not frozen (Table 14-6). -/
def spillRecord (s : State) : State :=
  if s.cave.mode = .frozen then s
  else
    let l := s.cave.spill ++ [mirrorB s s.twin.rotPos]
    modCv (slotFresh s (0x381800000 + 9728 * (s.frame.k % 64)) 9728) fun x => { x with spill := l.drop (l.length - 64) }

/-- The ring freezes once the record of t + post is written (R352). -/
def traceFreeze (s : State) : State :=
  match s.cave.mode, s.cave.trigK with
  | .post, some t => if t + s.cave.postLen < s.frame.k then freezeRing s t else s
  | _, _ => s

/-- A list takes the place of the one in force (R348); a trigger that no longer fits is disarmed (R351). An empty list stops recording,
and a post period with it (DESIGN CHOICE, log entry 118). -/
def takeList (s : State) (l : List Nat) : State :=
  modCv s fun x =>
    let d := traceDepth l.length
    { x with
      list := l
      listNext := none
      firstRec := true
      ring := if slotSize l.length = slotSize x.list.length then x.ring else []
      trigK := if l.isEmpty then none else x.trigK
      src := if l.isEmpty then 0 else x.src
      mode := if l.isEmpty then .stopped else if x.mode = .stopped then .recording else x.mode
      arm := match x.arm with
        | some (p, v, e, pre, post) => if pre + post + 1 ≤ d then some (p, v, e, pre, post) else none
        | none => none }

/-- The trace ring at a frame boundary: it freezes, is rearmed, takes a new list. -/
def traceBoundary (s : State) : State :=
  let s1 := traceFreeze s
  let s2 := if s1.cave.rearmNext then
      modCv s1 fun x => if x.mode = .frozen then { x with
        rearmNext := false
        mode := if x.list.isEmpty then .stopped else .recording
        ring := []
        trigK := none
        src := 0 } else { x with rearmNext := false }
    else s1
  match s2.cave.listNext with
  | some l => if s2.cave.mode = .frozen then s2 else takeList s2 l
  | none => s2

/-- The point trigger at a snapshot (R351). -/
def pointTrigger (s : State) : State :=
  match s.cave.arm with
  | none => modCv s fun x => { x with lastVal := none }
  | some (pa, level, edge, _, _) =>
    let now := if ptValid s pa then some (seePt s pa).val else none
    let v := codeV (getDesc s (descIdx pa))
    let hit := match s.cave.lastVal, now with
      | some a, some b =>
        (bitAt edge 0 && decide (v a < v level) && decide (v level ≤ v b)) ||
        (bitAt edge 1 && decide (v level ≤ v a) && decide (v b < v level))
      | _, _ => false
    let s1 := modCv s fun x => { x with lastVal := now }
    if hit then traceTrigger s1 1 else s1

/-- An index entry (Table 14-3) and its slot. -/
def traceB (n : Nat) (trigK : Option Nat) (r : TraceRec) : List Byte :=
  leB 6 r.k ++ leB 2 (1 + 2 * b2n r.gap + 4 * b2n (trigK == some r.k) + 8 * b2n r.first + 16 * b2n r.bad) ++
  leB 4 (nsWord r.time % 2 ^ 30) ++ leB 4 (secsOf r.time % 2 ^ 32) ++ padB (slotSize n) (r.vals.flatMap fun v => leB 2 v.toNat)

/-! ### Persistence (R356) -/

/-- The newer valid copy of the Affinage store in flash, and the copy that the next persist writes. -/
def newerAff (s : State) : Option AffStore :=
  match s.boot.flash.aff.getD 0 none, s.boot.flash.aff.getD 1 none with
  | some a, some b => if a.seq < b.seq then some b else some a
  | some a, none => some a
  | none, b => b
def olderCopy (s : State) : Nat :=
  match s.boot.flash.aff.getD 0 none, s.boot.flash.aff.getD 1 none with
  | some a, some b => if a.seq < b.seq then 0 else 1
  | some _, none => 1
  | none, _ => 0

/-- The image of the store: switches whose burst was lost keep their last persisted values (Table 14-2). -/
def affImage (s : State) : AffStore :=
  let old := newerAff s
  let bad := s.cave.badSwitch
  let wear := bad.foldl (fun t i => tset Wear.zero t i (match old with | some o => tget Wear.zero o.wear i | none => Wear.zero)) s.aff.wear
  let keep := fun (now was : Tbl Nat) => bad.foldl (fun t i =>
    (List.range 256).foldl (fun u j => tset 0 u (256 * i + j) (tget 0 was (256 * i + j))) t) now
  let applied := (allCells s).map fun c =>
    let x := getCtl s c
    (c, Applied.mk x.weight x.ilim x.fo x.trims x.pref)
  { seq := s.cave.persSeq + 1
    wear := wear
    plans := s.aff.plans
    bins := keep s.cave.bins (match old with | some o => o.bins | none => [])
    binsOld := keep s.aff.binsOld (match old with | some o => o.binsOld | none => [])
    planSeq := s.aff.seq
    planForce := s.aff.inForce
    lastEpoch := s.aff.lastEpoch
    hdDay := s.aff.hdDay
    hdDayNo := s.aff.hdDayNo
    hdMeans := s.aff.hdMeans
    eol := s.aff.eol
    gains := s.aff.gains
    proposed := s.aff.proposed
    capDay := s.aff.capDay
    applied := applied }

/-- The plan goes to the standby one second ahead of each whole hour, whose boundary applies it (R223; the lead DESIGN CHOICE, log entry
115). -/
def planAhead (s : State) : State :=
  let h := hourNo (nowQ s + 4000000000)
  if h = hourNo (nowQ s) ∨ s.aff.imgHour = h ∨ s.twin.role ≠ .primary then s
  else modAf (startImage s planRecords (affImage s)) fun a => { a with imgHour := h }

/-- A persist starts, and the image goes to the standby; it waits while the Cellar sheds. -/
def startPersist (s : State) : State :=
  if s.cave.persist.isSome then s
  else if s.cellar.mode = .shed then modCv s fun x => { x with persDue := true }
  else
    let img := affImage s
    modCv (startImage s allRecords img) fun x => { x with
      persist := some (olderCopy s, nowQ s)
      persImg := some img
      persBad := s.cave.badSwitch.length
      persDue := false }

/-- How often it has been `hour` o'clock up to a whole hour that `hourNo` counts. -/
def oClocks (hour h : Nat) : Nat := (h + 23 - hour) / 24

/-- The day's persist falls due at an application boundary; after a sleep that left the hour out, at the first one (R401). The days since
the last success count on by those that have passed, asleep or not (R364). -/
def persistHour (s : State) : State :=
  let hour := min 23 (fld0 s .cavePersCfg_hour)
  let day := oClocks hour s.aff.hourNow
  if (hour ≤ (s.aff.hourNow - 1) % 24 ∧ s.cave.persDay ≠ day) ∨ oClocks hour s.aff.hourPrev < day then
    startPersist (modCv s fun x => { x with
      persDay := day
      persDays := min 0xFFFF (x.persDays + if x.persDay = 0 then 1 else max 1 (day - x.persDay)) })
  else s

/-- A persist that waited for the end of shedding. -/
def persistResume (s : State) : State :=
  if s.cave.persDue ∧ s.cellar.mode ≠ .shed then startPersist s else s

/-- A persist ends: log entry 0x9004, and on failure the flag and F_CAVE_PERSIST. -/
def persistEnd (s : State) (ok : Bool) : State :=
  match s.cave.persist with
  | none => s
  | some (copy, _) =>
    let img := if ok then s.cave.persImg else none
    let fl := { s.boot.flash with aff := s.boot.flash.aff.set copy img }
    let s1 := modCv { s with boot := { s.boot with flash := fl } } fun x => { x with
      persist := none
      persImg := none
      persCopy := copy
      persSeq := if ok then x.persSeq + 1 else x.persSeq
      persDays := if ok then 0 else x.persDays
      persBad := 0
      badSwitch := if ok then x.badSwitch.drop x.persBad else x.badSwitch }
    let (t, s2) := instant s1
    let s3 := logAndRing s2 0x9004 t false (leB 1 (b2n (!ok)) ++ leB 1 copy) []
    if ok then s3 else raiseE (setFld s3 .cavePersSts_fail 0 1) 945 (BitVec.ofNat 32 copy)

/-! ### Reads of the Cave (R347) -/

/-- Ring records that occupy slots of a set are bad: frame k occupies slot k mod D. -/
def badFrames (s : State) (hit : Nat → Bool) : State :=
  let d := max 1 (traceDepth s.cave.list.length)
  modCv s fun x => { x with ring := x.ring.map fun r => if hit (r.k % d) then { r with bad := true } else r }

/-- Effect of an uncorrectable burst by region (Table 14-2), but for the firmware region. The store's layout is not given: which switch
loses its data is a free value. -/
def badBurst (s : State) (burst : Nat) : State :=
  let a := 64 * burst
  let n := slotSize s.cave.list.length
  if a < 0x300000000 then badFrames s fun i => decide (i * n < a + 64) && decide (a < i * n + n)
  else if a < 0x340000000 then
    let slot := (a - 0x300000000) / 64
    modCv s fun x => { x with log := x.log.map fun e => if e.index.toNat % 2 ^ 24 = slot then { e with bad := true } else e }
  else if a < 0x380000000 then
    let (v, s1) := drawBelow s 6912
    modCv s1 fun x => { x with badSwitch := x.badSwitch ++ [v] }
  else if a < 0x381000000 then badFrames s fun i => i / 4 == (a - 0x380000000) / 64
  else if a < 0x381A00000 then modCv s fun x => { x with badSlots := x.badSlots ++ [burst] }
  else if a < 0x382A00000 then persistEnd s false
  else s

/-- The burst lies in the firmware region. -/
def fwBurst (burst : Nat) : Bool := decide (0x382A00000 ≤ 64 * burst)

/-- A patrol read of channel c. -/
def patrolRead (s : State) (c burst : Nat) (bad corrected : Bool) : State :=
  let n := tget 0 s.cave.sbe c
  let s1 := if corrected then
      let t := modCv s fun x => { x with sbe := tset 0 x.sbe c (satInc 0xFFFF n) }
      if 0xFFFE ≤ n then setFld t .caveEccSts_sbe_ovf c 1 else t
    else s
  if bad then
    let s2 := modCv s1 fun x => { x with dbe := tset 0 x.dbe c (burst % 2 ^ 28) }
    badBurst (raiseE s2 (941 + c) (BitVec.ofNat 32 burst)) burst
  else s1

/-! ### The Vat arbiters (R357 to R361) -/

def getVat (s : State) (c code : Nat) : VatReq := tget VatReq.zero s.cave.vat (16 * c + code)
def modVat (s : State) (c code : Nat) (f : VatReq → VatReq) : State :=
  modCv s fun x => { x with vat := tmod VatReq.zero x.vat (16 * c + code) f }

/-- Requester on input i of channel c, and the input of a requester. -/
def vatReqAt (s : State) (c i : Nat) : Nat := fld s .vatMap_req (16 * c + i)
def vatInput (s : State) (c code : Nat) : Nat := ((List.range 16).find? fun i => vatReqAt s c i == code).getD 0

/-- F_VAT_STARVE and VAT_STS.starve follow a requester. -/
def starveCheck (s : State) (c code : Nat) : State :=
  let x := getVat s c code
  let i := vatInput s c code
  let now := decide (64 ≤ x.loss) || decide (20000 < x.wait) || x.starving
  let s1 := if now ∧ !x.starving then
      modVat (setFld s .vatSts_starve c (fld s .vatSts_starve c ||| 2 ^ i)) c code fun y => { y with starving := true }
    else s
  setC s1 (909 + 16 * c + i) now (BitVec.ofNat 32 code)

/-- The grant to a requester; the eye-scan dump writes the maps that wait for it (R79). -/
def vatGrant (s : State) (c code : Nat) : State :=
  let i := vatInput s c code
  let w := min 0xFFFF ((getVat s c code).wait / 16)
  let s1 := modCv s fun x => { x with
    waitMax := tset 0 x.waitMax (16 * c + i) (max w (tget 0 x.waitMax (16 * c + i)))
    grants := tset 0 x.grants (16 * c + i) (satInc (2 ^ 32 - 1) (tget 0 x.grants (16 * c + i))) }
  let s2 := setC (modVat s1 c code fun _ => VatReq.zero) (909 + 16 * c + i) false 0
  if code = 3 then dumpEyes s2
  else modCv s2 fun x => { x with
    trcStage := if code = 14 then x.trcStage - 64 else x.trcStage
    logStage := if code = 11 then x.logStage - 64 else x.logStage }

/-- A requester loses a decision. -/
def vatLose (s : State) (c code : Nat) : State :=
  let s1 := modVat s c code fun x =>
    let n := satInc 0xFFFF x.loss
    { x with loss := n, backoff := 4 * 2 ^ min n 10 }
  starveCheck s1 c code

/-- A decision on channel c, `elapsed` nanoseconds after the one before: waits and back-offs run on, the highest contending input is
granted, every other contender loses; time in self-refresh is in neither (R359). `present`: the requesters with a burst, each with the nanoseconds since it first presented it, which
are its wait until it first loses. -/
def vatDecide (s : State) (c : Nat) (present : List (Nat × Nat)) (elapsed : Nat) : State :=
  let s0 := (List.range 16).foldl (fun t q => modVat t c q fun x => { x with
    wait := if 0 < x.loss then x.wait + elapsed else x.wait
    backoff := x.backoff - elapsed }) s
  let s1 := present.foldl (fun t (q, w) => modVat t c q fun x => { x with wait := if x.loss = 0 then w else x.wait }) s0
  let cont := (List.range 16).filter fun q => (present.any fun (p, _) => p == q) && (getVat s1 c q).backoff == 0
  match ((List.range 16).reverse).find? fun i => cont.contains (vatReqAt s1 c i) with
  | none => (List.range 16).foldl (fun t q => if 0 < (getVat t c q).loss then starveCheck t c q else t) s1
  | some i =>
    let win := vatReqAt s1 c i
    let s2 := (cont.filter (· ≠ win)).foldl (fun t q => vatLose t c q) (vatGrant s1 c win)
    (List.range 16).foldl (fun t q => if 0 < (getVat t c q).loss then starveCheck t c q else t) s2

/-- VAT_CTL.commit (R360): refused unless each channel's codes form a permutation; loss counts stay with their requesters. -/
def commitVat (s : State) : State :=
  let code := fun i => sfld s .vatMap_req i
  let perm := [0, 16].all fun o => (List.range 16).all fun q => (List.range 16).any fun i => code (o + i) == q
  if !perm then setFld s .vatCtl_map_refused 0 1
  else
    let s1 := (List.range 32).foldl (fun t i => applyWord t (RegName.addr .vatMap i) (BitVec.ofNat 32 (shadowWord t .vatMap i))) s
    [0, 1].foldl (fun t c => (List.range 16).foldl (fun u i => setC u (909 + 16 * c + i) (getVat u c (vatReqAt u c i)).starving 0) t) s1

/-! ### Meanings -/

/-- R358, R359, R361: a decision. -/
def execVatDecision (chan : Fin 2) (present : List (Nat × Nat)) (elapsed : Nat) (s : State) : Host.Outcome State Fault Refusal :=
  onCore s fun s => vatDecide s chan present elapsed

/-- R361: a requester's wait passes 20 µs. -/
def execVatWaitLimit (chan : Fin 2) (code : Fin 16) (s : State) : Host.Outcome State Fault Refusal :=
  onCore s fun s => starveCheck (modVat s chan code fun x => { x with wait := max 20001 x.wait }) chan code

/-- R352: the ring freezes. -/
def execTraceFreeze (s : State) : Host.Outcome State Fault Refusal := onCore s traceFreeze

/-- The persist in progress began 15 min ago or more (R356). -/
def persistLate (s : State) : Bool :=
  match s.cave.persist with | some (_, start) => decide (start + 3600000000000 ≤ nowQ s) | none => false

/-- R356: a persist ends: within its 15 min, or as a failure. -/
def execPersistComplete (ok : Bool) (s : State) : Host.Outcome State Fault Refusal :=
  onCore s fun s => persistEnd s (ok && !persistLate s)

/-- R356: the 15 min of a persist are over. -/
def execPersistTimeout (s : State) : Host.Outcome State Fault Refusal :=
  onCore s fun s => if persistLate s then persistEnd s false else s

/-- R271, R356: an application boundary, with the daily persist. -/
def execApplicationBoundary (s : State) : Host.Outcome State Fault Refusal :=
  onCore s fun s => if applyDue s then persistHour (applicationBoundary s) else s

/-- R360: VAT_CTL.commit. -/
def execVatCtlCommit (s : State) : Host.Outcome State Fault Refusal := onCore s fun s => barWo s commitVat

/-- R364: VAT_CNT_CLR. -/
def execVatCntClr (mask : BitVec 2) (s : State) : Host.Outcome State Fault Refusal :=
  onCore s fun s => barWo s fun s =>
    modCv s fun x =>
      let keep := fun (t : Tbl Nat) => t.filter fun (i, _) => !mask.getLsbD (i / 16)
      { x with waitMax := keep x.waitMax, grants := keep x.grants }

end Sys2Proof.Machine
end

