-- ==== Sys2Proof/Machine/Rind.lean ====
section
/-!
DEFINITION. Rind's own commands (chapter 11): the commit of classes, injection, clearing, integrity, TRIP_N's least time and the host
watchdog.
-/
namespace Sys2Proof.Machine

/-! ### Classes (R288, R289) -/

/-- A device source has no class-2 scope. -/
def noScope (n : Nat) : Bool :=
  match deviceScope n with
  | .none => true
  | .sram r => r == 5 || r == 7
  | _ => false

/-- Pending class fields. -/
def pendingCls (s : State) (n : Nat) : Nat := bitsAt (shadowWord s .rindCls (n / 8)) (4 * (n % 8)) 3
def pendingCellCls (s : State) (i : Nat) : Nat := bitsAt (shadowWord s .rindCellCls (i / 8)) (4 * (i % 8)) 3

/-- R288 refuses the pending classes. -/
def classesBad (s : State) : Bool :=
  s.rind.lockout ||
  ((List.range 946).any fun n =>
    let c := pendingCls s n
    decide (4 < c) || decide (c < deviceFloor n) || (c == 2 && noScope n)) ||
  (List.range 32).any fun i => let c := pendingCellCls s i; decide (4 < c) || decide (c < cellFloor i)

/-- A live source whose new class exceeds its applied class takes the new reaction: the interrupt, the converter effect and the pins of
Table 11-3 (R289). -/
def reclass (s : State) (n : Nat) : State :=
  let x := getSrc s n
  let a := appliedOf s n x.detail
  if x.live ∧ x.applied < a then
    let s1 := modSrc s n fun y => { takeLatch s n a x.detail y with applied := a }
    react (setBit s1 .rindIntSts 0 (min a 4) true) n a x.detail
  else s

/-- Commit of block 10: it applies at the write, and external inputs are looked at anew. -/
def commitRind (s : State) : State × Option Nat :=
  if classesBad s then (setFld s .rindSts_refused 0 1, some 1)
  else
    let s1 := applyBlock (stageBlock s 10 fun _ _ => true) 10
    let s2 := (s1.rind.src.map (·.1)).foldl reclass s1
    ((List.range 16).foldl extInput s2, none)

/-! ### Injection (R291) -/

/-- Sources by falling applied class, then rising index: the order in which simultaneous rises count (R283). -/
def bySeverity (s : State) (l : List Nat) : List Nat :=
  sortBy (fun a b => lexLt [-(appliedOf s a 0 : Int), a] [-(appliedOf s b 0 : Int), b]) l

/-- A force bit is written: nothing without inj_en; a class-4 source needs DBG_PERMIT. Answers whether it was taken. -/
def forceSrc (s : State) (n : Nat) (v : Bool) : State × Bool :=
  if fld0 s .rindCfg_inj_en = 0 then (s, false)
  else if v && classOf s n == 4 && !s.harp.permit then (s, false)
  else (setForce s n v, true)

/-- inj_en is written: 0 clears every force bit. -/
def writeInj (s : State) (en : Bool) : State :=
  let s1 := setFld s .rindCfg_inj_en 0 (b2n en)
  if en then s1
  else ((s.rind.src.filter fun (_, x) => x.force).map (·.1)).foldl (fun t n => setForce t n false) s1

/-- A write of `RIND_FORCE[w]`: the bits that change, the more severe class first. -/
def forceWord (s : State) (w v : Nat) : State :=
  let all := (List.range 32).map (32 * w + ·)
  (bySeverity s (all.filter fun n => decide (n < 946) && (getSrc s n).force != bitAt v (n % 32))).foldl
    (fun t n => (forceSrc t n (bitAt v (n % 32))).1) s

/-- A W1C write of `RIND_STICKY[w]` (R292). -/
def stickyWord (s : State) (w v : Nat) : State :=
  let (t, skip) := clearMany s (((below 32 (bitAt v)).map (32 * w + ·)).filter fun n => decide (n < 946))
  if skip then setFld t .rindSts_clr_refused 0 1 else t

/-- A write of `RIND_HOSTWD_KICK` (R300). -/
def hostKick (s : State) (v : Nat) : State :=
  if v = 0xA5 then { s with rind := { s.rind with wdK := s.frame.k } } else raiseE s 2 0

/-! ### Meanings -/

/-- R286: trip_hold ms have passed since the latest assertion. -/
def execTripHoldExpiry (s : State) : Host.Outcome State Fault Refusal :=
  onCore s fun s =>
    if msFrames s (max 1 (fld0 s .rindCfg_trip_hold)) ≤ s.frame.k - s.rind.tripK then
      { s with rind := { s.rind with holding := false } }
    else s

/-- R300: a period of the host watchdog expires. -/
def execHostWatchdogExpiry (s : State) : Host.Outcome State Fault Refusal :=
  onCore s fun s =>
    let p := fld0 s .rindHostwdCfg_period
    if p ≠ 0 ∧ msFrames s p ≤ s.frame.k - s.rind.wdK then
      raiseE { s with rind := { s.rind with wdK := s.frame.k } } 2 0
    else s

/-- R294: the direct path of Rind's integrity: the record, the lockout latch and the rank-2 reaction. -/
def integrity (s : State) (n : Nat) (detail : Word) : State :=
  let t := raiseE s n detail
  if t.rind.lockout then t else lockoutBy t n

/-- The global branch that owns an SRAM word, 15 where none does (R34). -/
def sramBranch (region addr : Nat) : Nat :=
  if region = 0 then
    if addr < 294912 then addr / 512 / 48
    else if 296704 ≤ addr ∧ addr < 299008 then (addr - 296704) / 192 else 15
  else if region = 1 ∨ region = 4 then (if addr < 576 then addr / 48 else 15)
  else 15

/-- The entry that an uncorrectable error destroys in the command rings cache or in the staging buffers (Table 01-6): which entry the
word held is open. -/
def sramDiscard (s : State) (region : Nat) : State :=
  if region = 5 then
    let (v, t) := drawBelow s 40
    if v < 32 then modQ t v fun x => { x with ready := x.ready.drop 1 }
    else modRing t (v - 32) fun r => { r with dropped := satInc 0xFFFFF r.dropped }
  else if region = 7 then
    let (v, t) := drawBelow s 2
    if v = 0 then { t with cave := { t.cave with gapNext := true } }
    else later { t with cave := { t.cave with logLost := satInc (2 ^ 32 - 1) t.cave.logLost } } 943 0
  else s

/-- R34: a corrected error counts in its region; an uncorrectable one raises F_SRAM_DBE, and in the Rind records also the direct path
of R294. -/
def sramError (s : State) (e : SramErr) : State :=
  let r := e.region.val
  if e.corrected then
    let n := satInc 0xFFFF (tget 0 s.rind.sbe r)
    setC { s with rind := { s.rind with sbe := tset 0 s.rind.sbe r n } } (28 + r) (n == 0xFFFF) (BitVec.ofNat 32 r)
  else
    let s1 := if r = 6 then integrity s 1 0 else s
    sramDiscard (raiseE s1 (19 + r) (BitVec.ofNat 32 (e.addr % 2 ^ 20 + 2 ^ 20 * sramBranch r e.addr))) r

/-- R294: a scrub pass, with the source of a pair that differs and the errors that the ECC of the SRAM has met (R34). -/
def execRindScrub (pass : ScrubPass) (s : State) : Host.Outcome State Fault Refusal :=
  onCore s fun s =>
    let t := pass.errors.foldl sramError s
    match pass.mismatch with
    | some n => integrity t 1 (BitVec.ofNat 32 n)
    | none => t

/-- R294: a copy pair that differs, or a parity error. -/
def execRindIntegrityError (parity : Bool) (s : State) : Host.Outcome State Fault Refusal :=
  onCore s fun s => integrity s (if parity then 0 else 1) 0

/-- R300: a write to RIND_HOSTWD_KICK. -/
def execRindHostwdKick (value : Byte) (s : State) : Host.Outcome State Fault Refusal := onCore s fun s => hostKick s value.toNat

/-- R291: RIND_CFG.inj_en. -/
def execRindCfgInjEn (en : Bool) (s : State) : Host.Outcome State Fault Refusal := onCore s fun s => writeInj s en

/-- R291: a write to RIND_FORCE. -/
def execRindForceWrite (w : Fin 36) (value : Word) (s : State) : Host.Outcome State Fault Refusal :=
  onCore s fun s => forceWord s w value.toNat

/-- R292: a W1C of RIND_STICKY. -/
def execRindStickyClear (w : Fin 36) (value : Word) (s : State) : Host.Outcome State Fault Refusal :=
  onCore s fun s => stickyWord s w value.toNat

end Sys2Proof.Machine
end

