-- ==== Sys2Proof/Machine/Clocks.lean ====
section
/-!
DEFINITION. The Starter and station time (chapter 15 but for PTP): references and their faults, the main PLL and its relock, the
divider word that the frame slew of R57 and R224 asks for, clock outputs, the advance of station time, steps, pulses and captures.
-/
namespace Sys2Proof.Machine

def modCk (s : State) (f : Clock → Clock) : State := { s with clk := f s.clk }
def modSt (s : State) (f : Stu → Stu) : State := { s with stu := f s.stu }

/-! ### References (R366) -/

/-- Reference i (0–1 `REFCLK`, 2–4 `LREFCLK`) is enabled. -/
def refEnabled (s : State) (i : Nat) : Bool :=
  if i < 2 then bitAt (fld0 s .strCfg_ref_en) i else bitAt (fld0 s .strCfg_lref_en) (i - 2)

/-- F_CLK_REF and F_CLK_LREF follow their conditions. -/
def refFaults (s : State) : State :=
  (List.range 5).foldl (fun t i => setC t (803 + i)
    (refEnabled t i && (t.clk.absent.getLsbD i || t.clk.offFreq.getLsbD i)) (BitVec.ofNat 32 i)) s

/-- The `LREFCLK` (0–2) of a lane (Table 03-1). -/
def laneRef (n : Nat) : Nat := if n < 12 then 0 else if n < 24 then 1 else 2

/-- A reference is lost: a lane group without its reference goes DOWN, and the Cellar keeps running from its own oscillator once both
100 MHz references are gone (R308). -/
def refLost (s : State) (i : Nat) : State :=
  let b : BitVec 5 := BitVec.ofNat 5 (2 ^ i)
  let s1 := modCk s fun x => { x with absent := x.absent ||| b, offFreq := x.offFreq ||| b, goodWin := x.goodWin &&& ~~~b }
  let s2 := if i < 2 then s1 else
    ((below 28 fun n => laneRef n + 2 == i).filter (lanePresent s1)).foldl laneDown s1
  let both := s2.clk.absent.getLsbD 0 && s2.clk.absent.getLsbD 1
  refFaults { s2 with cellar := { s2.cellar with clkFb := s2.cellar.clkFb || both } }

/-- A reference is back; its fault stays live until a whole good window. -/
def refBack (s : State) (i : Nat) : State :=
  let b : BitVec 5 := BitVec.ofNat 5 (2 ^ i)
  let s1 := modCk s fun x => { x with absent := x.absent &&& ~~~b }
  refFaults { s1 with cellar := { s1.cellar with clkFb := s1.cellar.clkFb && decide (2 ≤ i) } }

/-- The end of a 1 s Wax window; `offsets` are the measured frequency offsets in ppm, reference by reference. -/
def refWindow (s : State) (offsets : List Int) : State :=
  let bad := fun i => decide (300 < absI (offsets.getD i 0))
  let s1 := (List.range 5).foldl (fun t i =>
    let b : BitVec 5 := BitVec.ofNat 5 (2 ^ i)
    let gone := t.clk.absent.getLsbD i
    let whole := t.clk.goodWin.getLsbD i
    modCk t fun x => { x with
      offFreq := if gone || bad i then x.offFreq ||| b else if whole then x.offFreq &&& ~~~b else x.offFreq
      goodWin := if gone then x.goodWin &&& ~~~b else x.goodWin ||| b }) s
  refFaults s1

/-! ### The divider word (R57, R224, R371) -/

/-- 200 ppm in 2^−40. -/
def slewMax : Int := 219902325

/-- The frame phase error e of R57 in quarter nanoseconds: station time of F(k) against the nearest multiple of T_F within its second,
wrapped into [−T_F/2, T_F/2). -/
def phaseTicks (s : State) : Int :=
  let m := nowQ s % 4000000000 % tF s
  if 2 * m < tF s then m else (m : Int) - tF s

/-- θ of R224 in quarter nanoseconds. -/
def thetaTicks (s : State) : Int := s.twin.theta / 16

/-- The word NW that the STU wants: on a standby the word at the last lock, slewed against θ (R224); otherwise the rate of station time,
slewed by e within 200 ppm (R57). -/
def wantedNw (s : State) : Int :=
  let T : Int := tF s
  if standby s then
    let r := clampI (-slewMax) slewMax (rnd (-s.twin.theta * 2 ^ 40) (16 * T))
    rnd (s.clk.nwLock * (2 ^ 40 + r)) (2 ^ 40)
  else
    let r := clampI (-slewMax) slewMax (rnd (phaseTicks s * 2 ^ 40) T)
    rnd (671088640 * (2 ^ 40 + s.stu.y) * (2 ^ 40 + r)) (2 ^ 80)

/-- The Starter follows a change of NW, clamped to the limits of R371; `follow_lim` says that it clamped. -/
def followNw (s : State) : State :=
  if s.clk.onSafe then s
  else
    let want := wantedNw s
    let lock : Int := s.clk.nwLock
    let cur : Int := s.clk.nw
    let v := clampI (lock - 1342177) (lock + 1342177) (clampI (cur - 671089) (cur + 671089) want)
    let s1 := modCk s fun x => { x with nw := v.toNat }
    if v = want then s1 else setFld s1 .strSts_follow_lim 0 1

/-! ### Station time (R378, R379) -/

/-- inc per core clock cycle of 1 ns on the main PLL. -/
def incPll (s : State) : Nat := (rnd (2 ^ 34 * (2 ^ 40 + s.stu.y) * 671088640) (2 ^ 40 * (max 1 s.clk.nw : Nat))).toNat

/-- inc per cycle of 4 ns on the safe clock. -/
def incSafe (s : State) : Nat := (rnd (2 ^ 36 * (2 ^ 40 + s.stu.y)) (2 ^ 40)).toNat

/-- What station time advances over n ticks at the rate in force. -/
def timeOver (s : State) (n : Nat) : Nat := if s.clk.onSafe then incSafe s * n / 16 else incPll s * n / 4

/-- The rate changes within the frame, at a free instant of it: what has passed so far passed at the rate in force until now. -/
def rateCut (s : State) : State :=
  let (n, s1) := drawBelow s (s.frame.ticks - s.stu.cut.1 + 1)
  modSt s1 fun x => { x with cut := (x.cut.1 + n, x.cut.2 + timeOver s n) }

/-- Station time advances over the frame that ends. Times wrap at 2^48 seconds. -/
def advance (s : State) : State :=
  let d := s.stu.cut.2 + timeOver s (s.frame.ticks - s.stu.cut.1)
  modSt s fun x => { x with time := (x.time + d) % (2 ^ 48 * 4000000000 * 2 ^ 32), cut := (0, 0) }

/-! ### Relock (R368, R372–R375) -/

/-- The band table entry for the Cellar temperature: the lowest-numbered valid one whose t_max is at or above T_c. -/
def bandEntry (s : State) : Option Nat :=
  (List.range 16).find? fun e => flag s .strBand_valid e && decide (s.cellar.tC ≤ 16 * sx 8 (fld s .strBand_t_max e))

/-- Loads the band of a relock; where no entry matches, the entry field has no stated value. -/
def loadBand (s : State) : State :=
  match bandEntry s with
  | some e => modCk s fun x => { x with entry := e, band := fld s .strBand_band e }
  | none =>
    let (v, s1) := drawBelow s 16
    modCk s1 fun x => { x with entry := v, band := 63 }

/-- The sources R374 holds at live 0 while time may be lost. -/
def holdTimes (s : State) : State :=
  let s1 := modCk s fun x => { x with holdTime := true }
  (allCells s1).foldl (fun t c => holdLow (holdLow t (cellSrc c 3)) (cellSrc c 4)) s1

/-- A relock starts on a reference: safe clock, PLL reset with its band and the word the STU wants, unclamped (DEDUCED, log entry 119). -/
def startRelock (s : State) (ref : Bool) : State :=
  holdTimes (loadBand (modCk s fun x => { x with
    relock := .locking
    nw := (wantedNw s).toNat
    locked := false
    onSafe := true
    refUse := ref
    relockNext := none }))

/-- A relock due at this boundary starts. -/
def relockBoundary (s : State) : State :=
  match s.clk.relockNext with
  | some r => startRelock s r
  | none => s

/-- Whether the tuning voltage stands near a rail is not fixed by the spec: `vtune_warn` is a free value at each boundary on the main PLL
(R368, log entry 119). -/
def vtuneBoundary (s : State) : State :=
  if s.clk.onSafe then modCk s fun x => { x with vtune := false }
  else
    let (v, s1) := drawBelow s 2
    modCk s1 fun x => { x with vtune := v == 1 }

/-- At the first boundary after the hold the core returns to the PLL. -/
def coreReturn (s : State) : State :=
  if s.clk.relock = .ready then
    setC (modCk s fun x => { x with relock := .idle, onSafe := false, nwLock := x.nw }) 802 false 0
  else s

/-- The hold of R374 ends once the core is back and every node is time-locked again. -/
def holdTimeEnd (s : State) : State :=
  if s.clk.holdTime ∧ s.clk.relock = .idle ∧ allLocked s then modCk s fun x => { x with holdTime := false } else s

/-- Loss of lock while the PLL is in use (R375), or during a hold (the hold restarts). -/
def lossOfLock (s : State) : State :=
  if !s.clk.onSafe then
    let s1 := modCk (rateCut s) fun x => { x with locked := false, onSafe := true, relockNext := some x.refUse }
    setC ((List.range 12).foldl forceOff s1) 802 true 0
  else if s.clk.relock = .holding ∨ s.clk.relock = .ready then
    modCk s fun x => { x with locked := false, relock := .locking }
  else s

/-- A relock runs (`STR_STS.relocking`). -/
def relocking (s : State) : Bool :=
  s.clk.relock == .locking || s.clk.relock == .holding || s.clk.relock == .ready

/-- F_CLK_REF of reference r is live. -/
def refLive (s : State) (r : Bool) : Bool := (getSrc s (803 + b2n r)).live

/-! ### The Starter and STU time commit -/

/-- Source frequency over divider of output n, against its format's limit in MHz (R376): refused. -/
def clkoutBad (s : State) (n : Nat) : Bool :=
  let src := sfld s .strClkoutCfg_src n
  let fmt := sfld s .strClkoutCfg_fmt n
  let div := sfld s .strClkoutCfg_div_m1 n + 1
  let mhz := [1000, 100, 250, 0].getD src 0
  src == 3 || (fmt == 3 && decide (125 * div < mhz)) || ((fmt == 1 || fmt == 2) && decide (250 * div < mhz))

/-- The pending words ask for a relock (R372). -/
def relockAsked (s : State) : Bool := sfld s .strCfg_ref_sel 0 != fld0 s .strCfg_ref_sel || sfld s .strCtl_relock 0 == 1

/-- The refusal code of R372 and R376. -/
def strRefusal (s : State) : Option Nat :=
  if relockAsked s ∧ s.mode.conv ≠ .parked ∧ s.mode.conv ≠ .safe then some 1
  else if relockAsked s ∧ refLive s (sfld s .strCfg_ref_sel 0 == 1) then some 2
  else if (List.range 4).any (clkoutBad s) then some 3
  else none

/-! ### Steps of station time (R380) -/

/-- Rewrites the frame epoch so that R56 gives station time q for F(k). -/
def setEpoch (s : State) (q : Int) : State :=
  { s with frame := { s.frame with epoch := q - (s.frame.k * tF s : Nat) } }

/-- The first scheduled edge of a pulse output at or after q. -/
def pulseFrom (p : Pulse) (q : Nat) : Nat :=
  if q ≤ p.start ∨ p.period = 0 then p.start else p.start + cdiv (q - p.start) p.period * p.period

/-- A pulse output after a step to q (R386): a once-only edge that has not fired stays where it is. -/
def pulseStep (q : Nat) (p : Pulse) : Pulse :=
  { p with
    next := match p.next with
      | none => none
      | some _ => if p.period = 0 then (if q ≤ p.start then some p.start else none) else some (pulseFrom p q)
    till := p.till.filter fun e => decide (e ≤ q + p.width) && decide (q < e) }

/-- What counts from an instant keeps its age over a step by d: the persist, the Rind snapshot, the locks, the hold-bus restarts. -/
def stepAges (s : State) (d : Int) : State :=
  let go := fun t : Nat => ((t : Int) + d).toNat
  { s with
    cave := { s.cave with persist := s.cave.persist.map fun (c, t) => (c, go t), snapTime := s.cave.snapTime.map go }
    cmd := { s.cmd with locks := s.cmd.locks.map fun l => { l with since := go l.since } }
    boot := { s.boot with hbStarts := s.boot.hbStarts.map go } }

/-- A waiting step applies at a boundary at which every cell is PARKED and no start takes effect; the epoch follows. -/
def applyStep (start : Bool) (s : State) : State :=
  match s.stu.step with
  | some (d, _) =>
    if allParked s && !start then
      let q := ((nowQ s : Int) + d).toNat
      let s1 := modSt (stepAges s d) fun x => { x with
        step := none
        time := ((x.time : Int) + d * 2 ^ 32).toNat % (2 ^ 48 * 4000000000 * 2 ^ 32)
        lostAt := ((x.lostAt : Int) + d).toNat
        lastStamp := x.lastStamp.map fun t => ((t : Int) + d).toNat
        lastOff := x.lastOff.map fun t => ((t : Int) + d).toNat
        pulses := x.pulses.map (pulseStep q) }
      setEpoch s1 ((nowQ s1 : Int) - phaseTicks s1)
    else s
  | none => s

/-! ### Pulses and captures (R386, R387) -/

/-- The words of pulse output n as a schedule in quarter nanoseconds. -/
def pulseOf (s : State) (n : Nat) : Pulse :=
  let sec := rword s .stuTpStartSLo n + 2 ^ 32 * fld s .stuTpStartSHi_start_s_hi n
  ⟨4000000000 * sec + 4 * fld s .stuTpStartNs_start_ns n, 4 * rword s .stuTpPeriod n, 4 * rword s .stuTpWidth n, none, none⟩

/-- Arms pulse output n; the flag says that it was refused. -/
def armPulse (s : State) (n : Nat) : State × Bool :=
  let (t, s1) := instant s
  let p := pulseOf s1 n
  let bad := decide (p.width < 32) || (decide (p.period ≠ 0) && decide (p.period ≤ p.width)) ||
    (decide (p.period = 0) && decide (p.start < t + 4000))
  if bad then (setFld s1 .stuTpCfg_refused n 1, true)
  else
    let e := if p.period = 0 ∨ t ≤ p.start then p.start else pulseFrom p (t + 4000)
    (modSt s1 fun x => { x with pulses := lset x.pulses n { p with next := some e } }, false)

/-- A scheduled edge of output n that lies before the end of this frame falls. -/
def pulseEdge (s : State) (n : Nat) : State :=
  let p := s.stu.pulses.getD n ⟨0, 0, 0, none, none⟩
  match p.next with
  | some e =>
    if e < nowQ s + s.frame.ticks then
      let q : Pulse := { p with
        next := if p.period = 0 then none else some (e + p.period)
        till := if flag s .stuTpCfg_enable n then some (e + p.width) else none }
      modSt s fun x => { x with pulses := lset x.pulses n q }
    else s
  | none => s

/-- An active pulse of output n that ends before the end of this frame ends. -/
def pulseEnd (s : State) (n : Nat) : State :=
  let p := s.stu.pulses.getD n ⟨0, 0, 0, none, none⟩
  match p.till with
  | some e =>
    if e < nowQ s + s.frame.ticks then modSt s fun x => { x with pulses := lset x.pulses n { p with till := none } } else s
  | none => s

/-- An edge on `TIME_IN_i`, `offset` quarter nanoseconds after F(k) with the filter delay removed, is captured when selected. -/
def capture (s : State) (i : Nat) (rising : Bool) (offset : Nat) : State :=
  if flag s .stuCapCfg_enable i && (flag s .stuCapCfg_edge i == !rising) then
    let (_, n, seen, _, valid) := s.stu.caps.getD i (0, 0, false, false, false)
    let s1 := if valid && !seen then setFld s .stuCapCfg_ovr i 1 else s
    modSt s1 fun x => { x with caps := lset x.caps i (nowQ s + offset, (n + 1) % 65536, false, s.clk.onSafe, true) }
  else s

/-- Words a register read returns. -/
def readsOut (s : State) (l : List Word) : State := { s with regs := { s.regs with readData := l } }

/-- The capture registers of input i: S_LO, S_HI with the count, NS. -/
def capWords (s : State) (i : Nat) : Word × Word × Word :=
  let (t, n, _) := s.stu.caps.getD i (0, 0, false, false, false)
  (BitVec.ofNat 32 (secsOf t), BitVec.ofNat 32 (secsOf t / 2 ^ 32 % 65536 + 65536 * n), BitVec.ofNat 32 (nsWord t))

/-- A read of `STU_CAP_S_LO[i]`: latches the rest, and marks the capture read. -/
def capRead (s : State) (i : Nat) : Word × State :=
  let (lo, hi, ns) := capWords s i
  let (t, n, _, coarse, valid) := s.stu.caps.getD i (0, 0, false, false, false)
  (lo, modSt s fun x => { x with
    caps := lset x.caps i (t, n, true, coarse, valid)
    capLatch := lset x.capLatch i (hi, ns) })

/-- A read of `STU_TIME_S_LO`: the seconds, with the rest latched from the same instant. -/
def timeRead (s : State) : Word × State :=
  let (t, s1) := instant s
  (BitVec.ofNat 32 (secsOf t), modSt s1 fun x => { x with
    timeLatch := (BitVec.ofNat 16 (secsOf t / 2 ^ 32), BitVec.ofNat 32 (nsWord t)) })

/-- A read of `STU_FRM_CNT_LO`: latches the high half of k (Table 02-10). -/
def frmCntRead (s : State) : Word × State :=
  (BitVec.ofNat 32 s.frame.k, { s with frame := { s.frame with cntHi := BitVec.ofNat 16 (s.frame.k / 2 ^ 32) } })

/-- A read of `STU_FRM_EPOCH_S`: latches the rest of E (Table 02-11). -/
def frmEpochRead (s : State) : Word × State :=
  let sec := s.frame.epoch / 4000000000
  let ns := (s.frame.epoch % 4000000000).toNat / 4
  (BitVec.ofInt 32 sec, { s with frame := { s.frame with
    epochSHi := BitVec.ofInt 16 (sec / 2 ^ 32)
    epochNs := ns } })

/-! ### Meanings -/

/-- R366: no edge of a reference for 100 ns. -/
def execReferenceAbsent (ref : Fin 5) (s : State) : Host.Outcome State Fault Refusal := onCellar s fun s => refLost s ref

/-- R366: the end of a 1 s window. -/
def execReferenceFrequencyWindow (offsets : List Int) (s : State) : Host.Outcome State Fault Refusal :=
  onCellar s fun s => refWindow s offsets

/-- R369: the PLL is declared locked; a band search ends with the band it found. -/
def execPllLockDeclared (band : Fin 63) (s : State) : Host.Outcome State Fault Refusal :=
  onCore s fun s =>
    if s.clk.relock = .locking then
      modCk s fun x => { x with
        locked := true
        relock := .holding
        band := if x.band = 63 then band else x.band }
    else s

/-- R373: lock has held for 50 µs. -/
def execPllHoldComplete (s : State) : Host.Outcome State Fault Refusal :=
  onCore s fun s => if s.clk.relock = .holding then modCk s fun x => { x with relock := .ready } else s

/-- R373: the core returns to the PLL at the boundary after the hold. -/
def execCoreReturnToPll (s : State) : Host.Outcome State Fault Refusal := onCore s coreReturn

/-- R369, R375: the detector declares the PLL unlocked. -/
def execPllLossOfLock (s : State) : Host.Outcome State Fault Refusal := onCore s lossOfLock

/-- R373: 2 ms have passed since a relock started. -/
def execRelockDeadline (s : State) : Host.Outcome State Fault Refusal :=
  onCore s fun s =>
    if relocking s then
      setC (setFld (modCk s fun x => { x with relock := .failed, locked := false }) .strSts_relock_fail 0 1) 802 true 0
    else s

/-- R373: 100 ms after a failed attempt a new one starts, on the other reference where auto_sw allows it. -/
def execRelockRetry (s : State) : Host.Outcome State Fault Refusal :=
  onCore s fun s =>
    if s.clk.relock = .failed then
      let sel := flag s .strCfg_ref_sel 0
      startRelock s (if flag s .strCfg_auto_sw 0 && refLive s sel then !sel else sel)
    else s

/-- R377: a rising edge of `SYNC_IN`. -/
def execSyncInEdge (s : State) : Host.Outcome State Fault Refusal :=
  onCore s fun s => (List.range 4).foldl (fun t n =>
    if !flag t .strClkoutCfg_sync_en n then t
    else if fld t .strClkoutCfg_src n = 0 ∧ t.clk.onSafe then setFld t .strSts_sync_missed 0 1
    else modCk t fun x => { x with sync := lset x.sync n (some 16) }) s

/-- R380: a waiting step applies at a boundary. The row stands for the cycle of F(k) of the frame in which it comes, so it does so only
before the frame's snapshot, and not where a start took effect at F(k) (log entry 157). -/
def execTimeStepApply (s : State) : Host.Outcome State Fault Refusal :=
  onCore s fun s => applyStep (s.frame.snapped || s.mode.conv == .precharge) s

/-- R386: an edge of output n falls. -/
def execTimePulseEdge (out : Fin 4) (s : State) : Host.Outcome State Fault Refusal := onCore s fun s => pulseEdge s out

/-- R386: a pulse of output n ends. -/
def execTimePulseEnd (out : Fin 4) (s : State) : Host.Outcome State Fault Refusal := onCore s fun s => pulseEnd s out

/-- R387: an edge on `TIME_IN_i`. -/
def execTimeCapture (input : Fin 2) (rising : Bool) (offset : Nat) (s : State) : Host.Outcome State Fault Refusal :=
  onCore s fun s => capture s input rising offset

/-- Table 15-10: the read that latches the rest of station time. -/
def execStuTimeSLoRead (s : State) : Host.Outcome State Fault Refusal :=
  onCore s fun s => let (w, t) := timeRead s; readsOut t [w]

/-- Table 15-13: the read that latches the rest of a capture. -/
def execStuCapSLoRead (input : Fin 2) (s : State) : Host.Outcome State Fault Refusal :=
  onCore s fun s => let (w, t) := capRead s input; readsOut t [w]

/-- Table 02-10: the read that latches the high half of k. -/
def execStuFrmCntLoRead (s : State) : Host.Outcome State Fault Refusal :=
  onCore s fun s => let (w, t) := frmCntRead s; readsOut t [w]

/-- Table 02-11: the read that latches the rest of the epoch. -/
def execStuFrmEpochSRead (s : State) : Host.Outcome State Fault Refusal :=
  onCore s fun s => let (w, t) := frmEpochRead s; readsOut t [w]

/-- R386: a write of arm. -/
def execStuTpCfgArm (out : Fin 4) (s : State) : Host.Outcome State Fault Refusal :=
  onCore s fun s => barWo s fun s => (armPulse s out).1

end Sys2Proof.Machine
end

