-- ==== Sys2Proof/Machine/Ptp.lean ====
section
/-!
DEFINITION. The PTP time receiver (R381–R385): stamps, the messages of IEEE 1588-2019 that Table 15-3 supports, the choice of the
best master, path delay, the servo and the time quality. A row brings an Ethernet frame, and what leaves is one; the message's layout, which the spec takes from IEEE 1588-2019, is PRESUMED.
-/
namespace Sys2Proof.Machine

/-! ### Messages -/

/-- A number of n bytes, most significant first. -/
def beN (l : List Byte) : Nat := leN l.reverse
def beB (n v : Nat) : List Byte := (leB n v).reverse
/-- The n-byte big-endian field at an offset. -/
def beAt (l : List Byte) (o n : Nat) : Nat := beN ((l.drop o).take n)

/-! ### Frames of the Ethernet ports (Tables 13-9 and 15-3); the layouts are those of their standards -/

/-- The MAC address of port p as its six bytes, first byte first. -/
def macB (s : State) (p : Nat) : List Byte :=
  (leB 6 (rword s .cmdEthMacLo p + 2 ^ 32 * (rword s .cmdEthMacHi p % 65536))).reverse

/-- A number as n bytes, most significant first. -/
def netB (n v : Nat) : List Byte := beB n v

/-- The internet checksum of a byte list of even length. -/
def inetSum (l : List Byte) : Nat :=
  let t := (List.range (l.length / 2)).foldl (fun a i => a + beAt l (2 * i) 2) 0
  let u := t % 65536 + t / 65536
  let v := u % 65536 + u / 65536
  65535 - v

/-- The Ethernet header of an answer on port p, with the port's VLAN tag, and its length. -/
def ethB (s : State) (p : Nat) (dst : List Byte) (typ : Nat) : List Byte :=
  dst ++ macB s p ++ (if flag s .cmdUdpCfg_vlan_en 0 then netB 2 0x8100 ++ netB 2 (fld0 s .cmdUdpCfg_vlan) else []) ++ netB 2 typ

/-- The payload of a frame for port p of an ethertype: untagged, or with the port's tag. -/
def ethPayload (s : State) (typ : Nat) (l : List Byte) : Option (List Byte) :=
  let tag := flag s .cmdUdpCfg_vlan_en 0
  let h := if tag then 16 else 12
  if beAt l h 2 = typ ∧ (!tag ∨ (beAt l 12 2 = 0x8100 ∧ beAt l 14 2 % 4096 = fld0 s .cmdUdpCfg_vlan)) then some (l.drop (h + 2)) else none

/-- An IPv4 header without options and a UDP header, and what follows: no fragment, lengths that agree, checksums that are right (the
UDP one may be 0). -/
def udpOk (h l : List Byte) : Bool :=
  let n := beAt h 24 2
  let pseudo := (h.drop 12).take 8 ++ netB 2 17 ++ netB 2 n
  let body := h.drop 20 ++ l.take (n - 8)
  h.length == 28 && byteAt h 0 == 0x45 && inetSum (h.take 20) == 0 && beAt h 6 2 % 0x4000 == 0 && byteAt h 9 == 17 &&
  beAt h 2 2 == 20 + n && decide (8 ≤ n) && decide (n ≤ 8 + l.length) &&
  (beAt h 26 2 == 0 || inetSum (pseudo ++ body ++ if n % 2 = 0 then [] else [0]) == 0)

/-! ### The transport of PTP (Table 15-3); addresses and ethertype are those of IEEE 1588 (PRESUMED, log entry 156) -/

/-- The UDP port of a message type: event messages on 319, general ones on 320. -/
def ptpUdpPort (typ : Nat) : Nat := if typ < 8 then 319 else 320

/-- Multicast addresses: of peer delay messages, and of the others. -/
def ptpMac (peer : Bool) : List Byte := if peer then [0x01, 0x80, 0xC2, 0, 0, 0x0E] else [0x01, 0x1B, 0x19, 0, 0, 0]
def ptpIp (peer : Bool) : Nat := if peer then 0xE000006B else 0xE0000181

/-- The PTP message in a frame of port p: IEEE 802.3 under profile 0, UDP over IPv4 under profile 1; none in any other frame. -/
def ptpFrameIn (s : State) (p : Nat) (l : List Byte) : Option (List Byte) :=
  if fld0 s .stuPtpCfg_profile = 0 then
    if [ptpMac true, ptpMac false, macB s p].contains (l.take 6) then ethPayload s 0x88F7 l else none
  else match ethPayload s 0x0800 l with
    | none => none
    | some d =>
      let m := (d.drop 28).take (beAt d 24 2 - 8)
      if udpOk (d.take 28) (d.drop 28) && [ptpIp true, ptpIp false, fld s .cmdEthIp_ip p].contains (beAt d 16 4) &&
          beAt d 22 2 == ptpUdpPort (byteAt m 0 % 16) then some m
      else none

/-- A PTP message leaves on port p in a frame of its profile; without an IPv4 address none does under profile 1. Identification and time
to live are free. -/
def ptpSend (s : State) (p : Nat) (m : List Byte) : State :=
  let typ := byteAt m 0 % 16
  let peer := typ == 2 || typ == 3 || typ == 0xA
  let out := fun (t : State) (f : List Byte) => send t (.eth p (padB (max 60 f.length) f))
  if fld0 s .stuPtpCfg_profile = 0 then out s (ethB s p (ptpMac peer) 0x88F7 ++ m)
  else if fld s .cmdEthIp_ip p = 0 then s
  else
    let (id, s1) := drawBelow s 65536
    let (ttl, s2) := drawBelow s1 256
    let n := 8 + m.length
    let addrs := netB 4 (fld s .cmdEthIp_ip p) ++ netB 4 (ptpIp peer)
    let head := fun c => netB 1 0x45 ++ netB 1 0 ++ netB 2 (20 + n) ++ netB 2 id ++ netB 2 0 ++ netB 1 ttl ++ netB 1 17 ++ netB 2 c ++ addrs
    let udp := fun c => netB 2 (ptpUdpPort typ) ++ netB 2 (ptpUdpPort typ) ++ netB 2 n ++ netB 2 c ++ m
    let sum := inetSum (addrs ++ netB 2 17 ++ netB 2 n ++ udp 0 ++ if n % 2 = 0 then [] else [0])
    let dst := [0x01, 0x00, 0x5E] ++ netB 3 (ptpIp peer % 2 ^ 23)
    out s2 (ethB s p dst 0x0800 ++ head (inetSum (head 0)) ++ udp (if sum = 0 then 65535 else sum))

/-! ### Fields of a message -/

/-- correctionField in quarter nanoseconds. -/
def corrOf (l : List Byte) : Int := sx 64 (beAt l 8 8) / 2 ^ 14
/-- A timestamp (seconds, nanoseconds) in quarter nanoseconds. -/
def stampAt (l : List Byte) (o : Nat) : Int := (4000000000 * beAt l o 6 + 4 * beAt l (o + 6) 4 : Nat)
def stampB (q : Int) : List Byte := beB 6 (q.toNat / 4000000000) ++ beB 4 (q.toNat % 4000000000 / 4)
def ptpSeq (l : List Byte) : Half := BitVec.ofNat 16 (beAt l 30 2)
def ptpSender (l : List Byte) : List Byte := (l.drop 20).take 10
def ptpInterval (l : List Byte) : Int := sx 8 (byteAt l 33)
def twoStep (l : List Byte) : Bool := bitAt (byteAt l 6) 1

/-- The station's clockIdentity: the EUI-64 of `EP_0`'s MAC. -/
def clockId (s : State) : List Byte :=
  let m := beB 6 (rword s .cmdEthMacLo 0 + 2 ^ 32 * rword s .cmdEthMacHi 0)
  m.take 3 ++ [0xFF, 0xFE] ++ m.drop 3

/-- The port identity of port p. -/
def portId (s : State) (p : Nat) : List Byte := clockId s ++ beB 2 (p + 1)

/-- A message of this station: type, flags, correction (quarter ns), sequenceId, control field, body. -/
def ptpB (s : State) (p typ flags : Nat) (corr : Int) (seq : Half) (ctl : Nat) (body : List Byte) : List Byte :=
  leB 1 typ ++ leB 1 0x12 ++ beB 2 (34 + body.length) ++ leB 1 (fld0 s .stuPtpCfg_domain) ++ leB 1 0 ++ beB 2 flags ++
  beB 8 (ux 64 (corr * 2 ^ 14)) ++ zeroB 4 ++ portId s p ++ beB 2 seq.toNat ++ leB 1 ctl ++ leB 1 0x7F ++ body

/-! ### Ports and masters -/

/-- PTP runs on port p. -/
def ptpPortOn (s : State) (p : Nat) : Bool := flag s .stuPtpCfg_enable 0 && bitAt (fld0 s .stuPtpCfg_port_en) p

def ptpState (s : State) (p : Nat) : PtpPort := s.stu.ports.getD p .disabled

/-- A message of a type is taken on port p: long enough, version 2, the domain, not unicast. -/
def ptpTakes (s : State) (p typ n : Nat) (l : List Byte) : Bool :=
  ptpPortOn s p && decide (n ≤ l.length) && byteAt l 0 % 16 == typ && byteAt l 1 % 16 == 2 &&
  byteAt l 4 == fld0 s .stuPtpCfg_domain && !bitAt (byteAt l 6) 2

/-- The order of masters: the data sets of IEEE 1588, then the sender, then the receiving port. -/
def masterKey (p : Nat) (m : Master) : List Int := (m.rank ++ [p]).map fun v => (v : Int)

/-- The port on which the best master is heard. -/
def bestPort (s : State) : Option Nat :=
  match s.stu.masters.getD 0 none, s.stu.masters.getD 1 none with
  | some a, some b => if lexLt (masterKey 1 b) (masterKey 0 a) then some 1 else some 0
  | some _, none => some 0
  | none, some _ => some 1
  | none, none => none

/-- The slave port. -/
def slavePort (s : State) : Option Nat := (List.range 2).find? fun p => ptpState s p == .slave

/-- F_STU_HOLDOVER and F_STU_PTP follow their conditions (R385). -/
def ptpFaults (s : State) : State :=
  let on := flag s .stuPtpCfg_enable 0
  let off := decide (10 * fld0 s .stuServoCfg1_off_alarm * 4 < (absI s.stu.offset).toNat)
  let s1 := setC s 809 (s.stu.quality == .holdover) 0
  setC s1 808 (on && (s.stu.alarm || off)) 0

/-- A change of the time quality. -/
def setQuality (s : State) (q : Quality) : State :=
  if s.stu.quality = q then s
  else
    let was := s.stu.quality
    modSt s fun x => { x with
      quality := q
      okRun := 0
      lostAt := if was = .locked then nowQ s else x.lostAt
      alarm := x.alarm && (q == .acquiring || q == .free) }

/-- The ports take the states of the best master algorithm: one SLAVE, the other PASSIVE or LISTENING. Without a slave port a LOCKED
station goes into HOLDOVER, with y held at I. -/
def bmca (s : State) : State :=
  let best := bestPort s
  let st := (List.range 2).map fun p =>
    if !ptpPortOn s p then PtpPort.disabled
    else if best = some p then .slave
    else if (s.stu.masters.getD p none).isSome then .passive
    else .listening
  let moved := slavePort s != best
  let s1 := modSt s fun x => { x with
    ports := st
    dlyHist := if moved then [] else x.dlyHist
    discards := if moved then 0 else x.discards
    syncDiff := if moved then none else x.syncDiff }
  if best.isNone ∧ s1.stu.quality = .locked then
    ptpFaults (modSt (rateCut (setQuality s1 .holdover)) fun x => { x with y := x.i })
  else s1

/-- The master an Announce names. -/
def masterOf (l : List Byte) : Master :=
  { sender := ptpSender l
    grandmaster := (l.drop 53).take 8
    cls := byteAt l 48
    steps := min 255 (beAt l 61 2)
    rank := [byteAt l 47, byteAt l 48, byteAt l 49, beAt l 50 2, byteAt l 52, beAt l 53 8, beAt l 61 2, beN (ptpSender l)]
    utc := BitVec.ofNat 16 (beAt l 44 2)
    utcValid := bitAt (byteAt l 7) 2 }

/-- An Announce: the port's master when it comes from it or names a better one. -/
def announce (s : State) (p : Nat) (l : List Byte) : State :=
  if ptpTakes s p 0xB 64 l ∧ beAt l 61 2 < 255 then
    let m := masterOf l
    let take := match s.stu.masters.getD p none with
      | some x => x.sender == m.sender || lexLt (masterKey p m) (masterKey p x)
      | none => true
    if take then bmca (modSt s fun x => { x with masters := lset x.masters p (some m), lastMaster := some m }) else s
  else s

/-- The effects of a commit that changes the PTP settings (Table 15-4); `was` and `prof` are enable and profile before it. -/
def ptpCommit (s : State) (was : Bool) (prof dom : Nat) : State :=
  let on := flag s .stuPtpCfg_enable 0
  let fresh := was != on || prof != fld0 s .stuPtpCfg_profile || dom != fld0 s .stuPtpCfg_domain
  let s1 := if fresh then modSt s fun x => { x with
      masters := [none, none], sync2 := [none, none], req := [none, none], dlyHist := [], discards := 0 }
    else modSt s fun x => { x with masters := (List.range 2).map fun p => if ptpPortOn s p then x.masters.getD p none else none }
  let s2 := if on && !was then
      modSt (setQuality s1 .acquiring) fun x => { x with i := 0, lostAt := nowQ s, alarm := false }
    else if was && !on then modSt (setQuality s1 .free) fun x => { x with alarm := false }
    else s1
  ptpFaults (bmca s2)

/-! ### Stamps (R382) -/

/-- The stamp of a reading: less the latency of the port and direction. -/
def stampOf (s : State) (p : Nat) (out : Bool) (reading : Nat) : Int :=
  (reading : Int) - (Config.latency p out : Int) -
    4 * sx 16 (if out then fld s .stuLatTrim_tx p else fld s .stuLatTrim_rx p)

/-- An event message of this station leaves; its send stamp is to come. -/
def ptpSendEvent (s : State) (x : Sent) (l : List Byte) : State :=
  ptpSend (modSt s fun y => { y with sentQ := y.sentQ ++ [x] }) x.port l

/-- The send stamp of the oldest event message of port p: a response gets its follow-up, a request keeps it. Without a stamp the
message is not used for timing. -/
def sentStamp (s : State) (p : Nat) (t : Option Int) : State :=
  match s.stu.sentQ.find? (·.port = p) with
  | none => s
  | some x =>
    let s1 := modSt s fun y => { y with sentQ := y.sentQ.erase x }
    match t with
    | none => s1
    | some t =>
      if x.resp then ptpSend s1 p (ptpB s1 p 0xA 0 x.corr x.seq 5 (stampB t ++ x.who))
      else modSt s1 fun y => { y with req := y.req.mapIdx fun i r =>
        match r with
        | some (q, _, z) => if i = p ∧ q = x.seq then some (q, some t, z) else r
        | none => none }

/-- A start-of-frame delimiter: stamped, unless it comes within 200 ns of the one before. -/
def timestamp (s : State) (p : Nat) (out : Bool) (reading : Nat) : State :=
  let close := match s.stu.lastStamp with
    | some u => decide (reading < u + 800) && decide (u < reading + 800)
    | none => false
  let t : Option Int := if close then none else some (stampOf s p out reading)
  let s1 := modSt s fun x => { x with
    lastStamp := if close then x.lastStamp else some reading
    unstamped := if close then satInc 0x1FF x.unstamped else x.unstamped }
  if out then sentStamp s1 p t else modSt s1 fun x => { x with rxStamps := lset x.rxStamps p t }

/-- The receive stamp of the event message just received on port p. -/
def takeStamp (s : State) (p : Nat) : Option Int × State :=
  (s.stu.rxStamps.getD p none, modSt s fun x => { x with rxStamps := lset x.rxStamps p none })

/-! ### Path delay (R383) -/

/-- The mean of path delay samples in quarter nanoseconds. -/
def dlyMean (l : List Int) : Int := if l.isEmpty then 0 else rnd (l.foldl (· + ·) 0) l.length

/-- A path delay sample in quarter nanoseconds. The filtered delay stands until the ninth sample after eight discards restarts it. -/
def delaySample (s : State) (d : Int) : State :=
  let l := s.stu.dlyHist
  let bad := !l.isEmpty && decide ((4 * fld0 s .stuServoCfg1_dly_gate : Nat) < absI (d - dlyMean l))
  if bad && decide (s.stu.discards < 8) then modSt s fun x => { x with discards := x.discards + 1 }
  else
    let m := if 8 ≤ s.stu.discards then [d] else (d :: l).take 8
    modSt s fun x => { x with dlyHist := m, discards := 0, dly := dlyMean m }

/-! ### Offset and servo (R383, R384) -/

/-- The largest rate in 2^−40: 500 ppm while every cell is PARKED, else 200 ppm. -/
def rateMax (s : State) : Int := if allParked s then 549755813 else slewMax

/-- o × 1e−9 / T_sync × 2^−sh in 2^−40, for o in quarter nanoseconds and T_sync = 2^logI seconds. -/
def servoTerm (o logI : Int) (sh : Nat) : Int := rnd (o * 2 ^ 44) (4000000000 * 2 ^ (logI + sh + 4).toNat)

/-- An accepted offset o in quarter nanoseconds: step request, servo, quality. -/
def takeOffset (s : State) (o logI : Int) : State :=
  let thr := max 1 (fld0 s .stuServoCfg0_step_thr) * 4000
  let m := rateMax s
  let step := decide ((thr : Int) ≤ absI o) && s.stu.quality != .set
  let i := clampI (-m) m (s.stu.i - servoTerm o logI (fld0 s .stuPtpCfg_ki_sh))
  let y := clampI (-m) m (i - servoTerm o logI (fld0 s .stuPtpCfg_kp_sh))
  let lock : Int := 4 * fld0 s .stuServoCfg0_lock_thr
  let s1 := modSt (if y = s.stu.y then s else rateCut s) fun x => { x with
    offset := o
    lastOff := some (nowQ s)
    step := if step then some (-o, false) else x.step
    i := i
    y := y
    okRun := if absI o ≤ lock then min 16 (x.okRun + 1) else 0 }
  let s2 := if (s1.stu.quality = .acquiring ∨ s1.stu.quality = .holdover) ∧ 16 ≤ s1.stu.okRun then setQuality s1 .locked
    else if s1.stu.quality = .locked ∧ 4 * lock < absI o then setQuality s1 .acquiring
    else s1
  ptpFaults s2

/-- A Sync complete with its origin time: `diff` is its receipt stamp less origin time and corrections. There is no offset before the
first path delay sample of the port (DEDUCED, log entry 119). -/
def syncDone (s : State) (diff logI : Int) : State :=
  let s1 := modSt s fun x => { x with syncDiff := some diff }
  if s.stu.dlyHist.isEmpty then s1 else takeOffset s1 (diff - s.stu.dly) logI

/-- Messages of the master of the slave port p. -/
def fromMaster (s : State) (p : Nat) (l : List Byte) : Bool :=
  ptpState s p == .slave && (match s.stu.masters.getD p none with | some m => m.sender == ptpSender l | none => false)

/-- A Sync. -/
def ptpSyncIn (s : State) (p : Nat) (l : List Byte) : State :=
  let (t, s1) := takeStamp s p
  match t with
  | none => s1
  | some t =>
    let logI := ptpInterval l
    if ptpTakes s1 p 0 44 l && fromMaster s1 p l && decide (-4 ≤ logI) && decide (logI ≤ 1) then
      if twoStep l then modSt s1 fun x => { x with sync2 := lset x.sync2 p (some (ptpSeq l, t, corrOf l, logI)) }
      else syncDone (modSt s1 fun x => { x with sync2 := lset x.sync2 p none }) (t - stampAt l 34 - corrOf l) logI
    else s1

/-- A Follow_Up. -/
def ptpFollowIn (s : State) (p : Nat) (l : List Byte) : State :=
  if ptpTakes s p 8 44 l && fromMaster s p l then
    match s.stu.sync2.getD p none with
    | some (seq, t, c, logI) =>
      if seq = ptpSeq l then
        syncDone (modSt s fun x => { x with sync2 := lset x.sync2 p none }) (t - stampAt l 34 - c - corrOf l) logI
      else s
    | none => s
  else s

/-- A peer delay request is answered on every enabled port with a two-step response. -/
def pdelayReqIn (s : State) (p : Nat) (l : List Byte) : State :=
  let (t, s1) := takeStamp s p
  match t with
  | none => s1
  | some t =>
    if ptpTakes s1 p 2 54 l then
      ptpSendEvent s1 ⟨p, true, ptpSeq l, ptpSender l, corrOf l⟩
        (ptpB s1 p 3 0x0200 0 (ptpSeq l) 5 (stampB t ++ ptpSender l))
    else s1

/-- The request of port p that a response with this message's requesting identity and sequenceId answers. -/
def reqFor (s : State) (p : Nat) (l : List Byte) : Option (Option Int × Option (Int × Int)) :=
  match s.stu.req.getD p none with
  | some (q, t1, z) => if q = ptpSeq l ∧ (l.drop 44).take 10 = portId s p then some (t1, z) else none
  | none => none

/-- A peer delay sample counts on the slave port. -/
def pdelaySample (s : State) (p : Nat) (d : Int) : State :=
  let s1 := modSt s fun x => { x with req := lset x.req p none }
  if ptpState s1 p = .slave then delaySample s1 d else s1

/-- A peer delay response: complete when one-step, else kept for its follow-up. -/
def pdelayRespIn (s : State) (p : Nat) (l : List Byte) : State :=
  let (t, s1) := takeStamp s p
  match t with
  | none => s1
  | some t4 =>
    if ptpTakes s1 p 3 54 l && fld0 s1 .stuPtpCfg_profile == 0 then
      match reqFor s1 p l with
      | some (t1, _) =>
        if twoStep l then modSt s1 fun x => { x with
          req := lset x.req p (some (ptpSeq l, t1, some (t4, stampAt l 34 - corrOf l))) }
        else match t1 with
          | some t1 => pdelaySample s1 p ((t4 - t1 - corrOf l) / 2)
          | none => s1
      | none => s1
    else s1

/-- A peer delay response follow-up. -/
def pdelayFollowIn (s : State) (p : Nat) (l : List Byte) : State :=
  if ptpTakes s p 0xA 54 l && fld0 s .stuPtpCfg_profile == 0 then
    match reqFor s p l with
    | some (some t1, some (t4, t2)) => pdelaySample s p ((t4 - t1 - (stampAt l 34 - t2) - corrOf l) / 2)
    | _ => s
  else s

/-- A delay response (profile 1). -/
def delayRespIn (s : State) (p : Nat) (l : List Byte) : State :=
  if ptpTakes s p 9 54 l && fld0 s .stuPtpCfg_profile == 1 && fromMaster s p l then
    match reqFor s p l, s.stu.syncDiff with
    | some (some t3, _), some d => pdelaySample s p ((d + (stampAt l 34 - t3 - corrOf l)) / 2)
    | _, _ => s
  else s

/-- The receiver's own delay request: peer delay on every enabled port under profile 0, to the master of the slave port under 1. -/
def delayReqOut (s : State) (p : Nat) : State :=
  let prof := fld0 s .stuPtpCfg_profile
  if ptpPortOn s p && (prof == 0 || ptpState s p == .slave) then
    let seq := s.stu.seqId
    let s1 := modSt s fun x => { x with seqId := x.seqId + 1, req := lset x.req p (some (seq, none, none)) }
    let body := zeroB 10 ++ (if prof = 0 then zeroB 10 else [])
    ptpSendEvent s1 ⟨p, false, seq, [], 0⟩ (ptpB s1 p (if prof = 0 then 2 else 1) 0 0 seq (if prof = 0 then 5 else 1) body)
  else s

/-- 60 s in ACQUIRING or FREE have passed. -/
def ptpLate (s : State) : State :=
  let q := s.stu.quality
  if flag s .stuPtpCfg_enable 0 && (q == .acquiring || q == .free) then ptpFaults (modSt s fun x => { x with alarm := true }) else s

/-- At a frame boundary: the 60 s of F_STU_PTP. -/
def ptpBoundary (s : State) : State := if s.stu.lostAt + 240000000000 ≤ nowQ s then ptpLate s else s

/-! ### Meanings -/

/-- A frame received on port p: f takes the PTP message in it. -/
def onPtp (p : Nat) (l : List Byte) (f : State → List Byte → State) (s : State) : Host.Outcome State Fault Refusal :=
  onCore s fun s => match ptpFrameIn s p l with | some m => f s m | none => s

/-- R382: the MAC's start-of-frame interrupt; `reading` is station time at the entry sequence's fixed instruction, in quarter ns. -/
def execTimestampInterrupt (port : Fin 2) (send : Bool) (reading : Nat) (s : State) : Host.Outcome State Fault Refusal :=
  onCore s fun s => timestamp s port send reading

/-- R381, R383: a Sync is received. -/
def execPtpSync (port : Fin 2) (bytes : List Byte) (s : State) : Host.Outcome State Fault Refusal :=
  onPtp port bytes (fun s m => ptpSyncIn s port m) s

/-- R381, R383: a Follow_Up is received. -/
def execPtpFollowUp (port : Fin 2) (bytes : List Byte) (s : State) : Host.Outcome State Fault Refusal :=
  onPtp port bytes (fun s m => ptpFollowIn s port m) s

/-- R381: an Announce is received. -/
def execPtpAnnounce (port : Fin 2) (bytes : List Byte) (s : State) : Host.Outcome State Fault Refusal :=
  onPtp port bytes (fun s m => announce s port m) s

/-- R381: a peer delay request is received. -/
def execPtpPdelayReq (port : Fin 2) (bytes : List Byte) (s : State) : Host.Outcome State Fault Refusal :=
  onPtp port bytes (fun s m => pdelayReqIn s port m) s

/-- R383: a peer delay response is received. -/
def execPtpPdelayResp (port : Fin 2) (bytes : List Byte) (s : State) : Host.Outcome State Fault Refusal :=
  onPtp port bytes (fun s m => pdelayRespIn s port m) s

/-- R383: a peer delay response follow-up is received. -/
def execPtpPdelayRespFollowUp (port : Fin 2) (bytes : List Byte) (s : State) : Host.Outcome State Fault Refusal :=
  onPtp port bytes (fun s m => pdelayFollowIn s port m) s

/-- R383: a delay response is received. -/
def execPtpDelayResp (port : Fin 2) (bytes : List Byte) (s : State) : Host.Outcome State Fault Refusal :=
  onPtp port bytes (fun s m => delayRespIn s port m) s

/-- R383: the receiver sends its own request. -/
def execPtpDelayRequestSend (port : Fin 2) (s : State) : Host.Outcome State Fault Refusal :=
  onCore s fun s => delayReqOut s port

/-- R385: no Announce on a port for ann_to intervals. -/
def execAnnounceReceiptTimeout (port : Fin 2) (s : State) : Host.Outcome State Fault Refusal :=
  onCore s fun s => bmca (modSt s fun x => { x with masters := lset x.masters port none })

/-- R385: 60 s in ACQUIRING or FREE. -/
def execPtpAcquireTimeout (s : State) : Host.Outcome State Fault Refusal := onCore s ptpLate

end Sys2Proof.Machine
end

