-- ==== Sys2Proof/Machine/Stu.lean ====
section
/-!
DEFINITION. The Station Time Unit's frame (chapter 02): T_snap and the budget check, frame length changes, realignment frames, the
frame epoch, and the STU commit.
-/
namespace Sys2Proof.Machine

def modFr (s : State) (f : Frame → Frame) : State := { s with frame := f s.frame }

/-! ### Announcing (R102, R460) -/

/-- The largest chain of the station, in nodes. -/
def longest (s : State) : Nat := maxOf ((presentBrs s).map fun b => (getBr s b).nb)

/-- ANNOUNCE to every chain that has nodes: kind, code, k_eff, length in ticks. -/
def announceAll (s : State) (kind code k len : Nat) : State :=
  ((presentBrs s).filter fun b => (getBr s b).nb ≠ 0).foldl (fun t b =>
    sendBoth t b .link (linkB 6 0x80 (leB 1 kind ++ leB 1 code ++ leB 2 k ++ leB 4 len))) s

/-! ### T_snap and the budget (R43, R53) -/

/-- T_snap of the frame, from the served cells. -/
def tsnapOf (s : State) : Nat :=
  max 2500 (500 + maxOf ((servedCells s).map fun c => hopBound s * hopsOf s c + relayOf s c))

/-- The instant and hop figures of the frame (Table 02-8). -/
def snapFigures (s : State) : State :=
  modFr s fun x => { x with
    tsnap := tsnapOf s
    hMax := maxOf ((servedCells s).map (hopsOf s))
    relayActive := (presentBrs s).any fun b => (getBr s b).relay && (servedCells s).any fun c => c / 48 == b && relayedCell s c }

/-- Arrival of the list of each served cell under R53, in ns from F(k). -/
def arrivals (s : State) : List (Nat × Nat) :=
  let l := byDelivery s
  (List.range l.length).map fun j => (l.getD j 0, tsnapOf s + 1000 + 6 * (j + 1) + tDel s (l.getD j 0))

/-- The check of R53: branches that fail are parked with F_FRM_BUDGET, and leave the order from the next frame. A branch that a later check
passes is in the order again from the frame after that check, and STU_FRM_STS.budget_fail follows the order, also while the F_FRM_BUDGET
latch still holds the branch parked (DESIGN CHOICE, log entry 139). -/
def budgetCheck (s0 : State) : State :=
  let s := modFr s0 fun x => { x with budgetFail := x.budgetNext }
  if !s.frame.checkDue then s
  else
    let ns := tF s / 4
    let a := arrivals s
    let late := decide (ns ≤ tsnapOf s + 4500)
    let bad := below 12 fun b => a.any fun (c, t) => c / 48 == b && (late || decide (ns < t + 200))
    let s1 := modFr s fun x => { x with
      checkDue := false
      worstArrival := maxOf (a.map (·.2))
      budgetNext := BitVec.ofNat 12 ((bad.map (2 ^ ·)).sum) }
    (presentBrs s1).foldl (fun t b => setC t (49 + b) (bad.contains b) (BitVec.ofNat 32 b)) s1

/-- F_FRM_HOP falls at a boundary at which no measured latency exceeds its bound (R42). -/
def hopBoundary (s : State) : State :=
  (presentBrs s).foldl (fun t b => if hopExceeded t b then t else setC t (37 + b) false (BitVec.ofNat 32 b)) s

/-! ### Frame length (R37) -/

/-- Nominal station time of F(k) in quarter nanoseconds (R56). -/
def nominalQ (s : State) : Int := s.frame.epoch + (s.frame.k * tF s : Nat)

/-- F(k) falls on a whole second. -/
def wholeSecond (s : State) : Bool := nominalQ s % 4000000000 == 0

/-- Frames from F(k) to the next whole second. -/
def framesToSecond (s : State) : Nat := ((4000000000 - nominalQ s % 4000000000) / (tF s : Int)).toNat

/-- ANNOUNCE of a pending length in the present frame, once its boundary is within the reach of the 16 bits of k_eff. -/
def announceLength (s : State) : State :=
  match s.frame.lenPending with
  | some l => if framesToSecond s ≤ 32767 then announceAll s 0 l.val (s.frame.k + framesToSecond s) 0 else s
  | none => s

/-- A pending length takes effect at a whole second: E is rewritten, profiles that no longer fit are marked, the budget is checked. -/
def applyLength (s : State) : State :=
  match s.frame.lenPending with
  | some l =>
    if wholeSecond s then
      let t := nominalQ s
      let s1 := modFr s fun x => { x with
        len := l
        lenPending := none
        checkDue := true
        ticks := frameTicks l.val
        epoch := t - (x.k * frameTicks l.val : Nat) }
      harpLength (applyBlock s1 1)
    else s
  | none => s

/-- The STU commit (block 1): a new length is accepted only while every cell is PARKED; hop_bound applies with the block. A commit of
the running length withdraws a pending one (log entry 91). -/
def commitStu (s : State) : State × Option Nat :=
  let len := sfld s .stuFrmCfg_frame_len 0
  if len = s.frame.len.val then
    (modFr (stageBlock s 1 fun _ _ => true) fun x => { x with lenPending := none }, none)
  else if allParked s then
    let s1 := modFr (stageBlock s 1 fun _ _ => true) fun x => { x with lenPending := some ⟨len % 4, Nat.mod_lt _ (by decide)⟩ }
    (announceLength s1, none)
  else
    let w := shadowWord s .stuFrmCfg 0
    let keep := putBits w 0 2 s.frame.len.val
    let s1 := stageBlock (putShadow s .stuFrmCfg 0 keep none) 1 fun _ _ => true
    (setFld (putShadow s1 .stuFrmCfg 0 w none) .stuFrmSts_len_refused 0 1, none)

/-- The committed hop bound applies at the boundary; a pending length keeps its staged word. -/
def applyStu (s : State) : State :=
  if !applyingBlock s 1 then s
  else
    let h := nextFld s .stuFrmCfg_hop_bound 0
    let s1 := if h = fld0 s .stuFrmCfg_hop_bound then s else modFr s fun x => { x with checkDue := true }
    if s.frame.lenPending.isSome then setFld s1 .stuFrmCfg_hop_bound 0 h else applyBlock s1 1

/-! ### Realignment (R57, R224) -/

/-- The error that a realignment frame removes, in quarter nanoseconds: e, or on a standby −θ. -/
def alignError (s : State) : Int := if standby s then -thetaTicks s else phaseTicks s

/-- A realignment frame is announced while every cell is PARKED and the error exceeds 1 µs, and none while a frame length waits for its
second (log entry 95). -/
def planRealign (s : State) : State :=
  let e := alignError s
  if allParked s && decide (4000 < absI e) && s.frame.realignAt.isNone && !s.frame.realign && s.frame.lenPending.isNone &&
      !s.clk.onSafe then
    let (k, s1) := reachBoundary s (longest s)
    modFr s1 fun x => { x with realignAt := some (k, ((tF s : Int) - e).toNat) }
  else s

/-- ANNOUNCE of a planned realignment frame in every frame until W(k_eff − 1). -/
def announceRealign (s : State) : State :=
  match s.frame.realignAt with
  | some (k, n) => if s.frame.k < k then announceAll s 2 0 k n else s
  | none => s

/-- A planned realignment frame is called off when a cell is not PARKED any more: the error is then left to the slew (R57). The nodes hear the
ordinary length for that window instead (DEDUCED, log entry 140). -/
def dropRealign (s : State) : State :=
  match s.frame.realignAt with
  | some (k, _) =>
    if allParked s then s
    else
      let s1 := modFr s fun x => { x with realignAt := none }
      if s.frame.k < k then announceAll s1 2 0 k (tF s) else s1
  | none => s

/-- The realignment frame begins: its length, the epoch after it, the log entry 0x9001. -/
def startRealign (s : State) : State :=
  match s.frame.realignAt with
  | some (k, n) =>
    if k ≤ s.frame.k ∧ allParked s then
      let q := (nowQ s + n) / tF s * tF s
      let near := if 2 * ((nowQ s + n) % tF s) < tF s then q else q + tF s
      let s1 := modFr s fun x => { x with
        realignAt := none
        realign := true
        ticks := n
        epoch := (near : Int) - ((x.k + 1) * tF s : Nat) }
      logAndRing s1 0x9001 (nowQ s1) false (leB 4 n) []
    else s
  | none => s

/-! ### The count (R55) -/

/-- A boundary: station time advances over the frame that ends and k by one. Before F(0) station time has only started to count once
the core has first run on the main PLL (R417); F(0) falls on the first whole second after it. -/
def nextFrame (s : State) : State :=
  if s.frame.running then
    let s1 := advance s
    modFr s1 fun x => { x with
      k := (x.k + 1) % 2 ^ 48
      snapped := false
      ticks := tF s
      realignPrev := x.realign
      realign := false
      lateTails := x.lateNow
      lateNow := 0 }
  else
    let q := (nowQ s / 4000000000 + 1) * 4000000000
    modFr (modSt s fun x => { x with time := q * 2 ^ 32 }) fun x => { x with
      running := true
      k := 0
      epoch := q
      snapped := false
      checkDue := true
      ticks := tF s }

/-- What the STU does at a boundary with time, epoch and rate: a waiting step, a frame length, a realignment frame, the error of R57 and
the slew; `start`: a start takes effect here. -/
def stuBoundary (start : Bool) (s : State) : State :=
  let s1 := startRealign (applyLength (applyStep start s))
  let s2 := announceRealign (planRealign (announceLength s1))
  followNw (modFr s2 fun x => { x with phaseErr := rnd (phaseTicks s2) 4 })

end Sys2Proof.Machine
end

