-- ==== Sys2Proof/Machine/Commit.lean ====
section
/-!
DEFINITION. Block commits (R432 to R434): the Starter and command blocks, the refusals of HOLD-BUS (R424), the commit of any block,
and the loading of a configuration image (R435).
-/
namespace Sys2Proof.Machine

/-! ### Block 12, Starter and STU time (R372, R376) -/

/-- The pending words of block 12 take effect: relock reads 0 again, reference faults and PTP follow the new settings. -/
def applyStr (s : State) : State :=
  let was := flag s .stuPtpCfg_enable 0
  let prof := fld0 s .stuPtpCfg_profile
  let dom := fld0 s .stuPtpCfg_domain
  let t := applyBlock s 12
  ptpCommit (refFaults (setFld t .strCtl_relock 0 0)) was prof dom

/-- A relock commit takes effect at the boundary at which its relock starts. -/
def strBoundary (s : State) : State := if applyingBlock s 12 then applyStr s else s

/-- Commit of block 12: a commit that changes no relock field applies its other fields with no relock. -/
def commitStr (s : State) : State × Option Nat :=
  match strRefusal s with
  | some c => (modCk (setFld s .strSts_refused 0 1) fun x => { x with refuseCode := c }, some c)
  | none =>
    let r := sfld s .strCfg_ref_sel 0 == 1
    let ask := relockAsked s
    let s1 := stageBlock s 12 fun _ _ => true
    if ask then (modCk (setSfld s1 .strCtl_relock 0 0 none) fun x => { x with relockNext := some r }, none)
    else (applyStr (modCk s1 fun x => { x with relockNext := x.relockNext.map fun _ => r }), none)

/-! ### Block 13, transports (R343, R419) -/

/-- The binding of the status queue made by boot ends. -/
def endStatusQueue (s : State) : State :=
  if s.boot.statusQueue then
    let s1 := modQ s 30 fun _ => Queue.zero
    putWord { s1 with boot := { s1.boot with statusQueue := false } } .cmdQCfg 30 (RegName.resetWord .cmdQCfg 30)
  else s

/-- Commit of block 13. -/
def commitCmd (s : State) : State × Option Nat :=
  (endStatusQueue (applyBlock (stageBlock s 13 fun _ _ => true) 13), none)

/-! ### Any block (R424, R432, R433) -/

/-- HOLD-BUS refuses a commit of blocks 5 to 9 with the block's own flag. -/
def holdBusFlag (s : State) (n : Nat) : State :=
  match n with
  | 5 => setFld s .harpProfSts_refused 0 1
  | 6 => setFld s .pressSts_cfg_refused 0 1
  | 7 => setFld s .chedCfg_refused 0 1
  | 8 => setFld s .modeSts_refused 0 1
  | 9 => setFld s .affCfg_refused 0 1
  | _ => s

/-- The commit of block n under its own checks; a refusal carries its code. -/
def tryCommit (s : State) (n : Nat) : State × Option Nat :=
  match n with
  | 1 => commitStu s
  | 2 => (commitLanes s, none)
  | 3 => commitWhey s
  | 4 => commitCurd s
  | 5 => commitHarp s
  | 6 => commitPress s
  | 7 => commitChed s
  | 8 => commitMode s
  | 9 => commitAff s
  | 10 => commitRind s
  | 11 => commitCellar s
  | 12 => commitStr s
  | 13 => commitCmd s
  | _ => (s, none)

/-- HOLD-BUS forbids a commit of block n. -/
def holdBusBlock (s : State) (n : Nat) : Bool := s.boot.holdBus && decide (5 ≤ n) && decide (n ≤ 9)

/-- The commit write of block n (R432, R433): none, or the refusal code. -/
def commitBlock (s : State) (n : Nat) : State × Option Nat :=
  if holdBusBlock s n then (refuseCommit (holdBusFlag s n) n, some 0)
  else
    match tryCommit s n with
    | (t, none) => (t, none)
    | (t, some c) => (refuseCommit t n, some c)

/-- A write of SYS_COMMIT: the named blocks in ascending order. -/
def commitMask (s : State) (mask : Nat) : State :=
  (List.range 13).foldl (fun t i => if bitAt mask (i + 1) then (commitBlock t (i + 1)).1 else t) s

/-- The commits due at a frame boundary take effect together (R27). -/
def applyCommits (s : State) : State :=
  let s1 := applyHarp (applyCurd (applyWhey (applyStu s)))
  let s2 := applyMode (applyChed (applyPress s1))
  bankSwap (applyDescs (strBoundary s2))

/-! ### Loading an image (R435) -/

/-- The pairs of an image go to the shadows; `owner` is the queue that loads it. -/
def loadPairs (s : State) (l : List Byte) (owner : Option Nat) : State :=
  (List.range (fieldAt l 8 4)).foldl (fun t i =>
    match regAt (fieldAt l (32 + 8 * i) 4) with
    | some (r, x) => putShadow t r x (fieldAt l (36 + 8 * i) 4) owner
    | none => t) s

/-- One loop record: the descriptor to the shadow, the words to the inactive bank. -/
def loadLoop (s : State) (l : List Byte) (owner : Option Nat) : State :=
  let n := fieldAt l 0 2
  let d := loopDescOf ((l.drop 4).take 48)
  let s1 := putLoop s n d owner
  let ws := loopWords d
  (List.range (fieldAt l 2 2)).foldl (fun t i => putIdleBy t n (ws.getD i i) (fieldAt l (52 + 4 * i) 4) owner) s1

/-- The loop records of an image, at most n. -/
def loadLoops : Nat → List Byte → Option Nat → State → State
  | 0, _, _, s => s
  | n + 1, l, owner, s => loadLoops n (l.drop (52 + 4 * fieldAt l 2 2)) owner (loadLoop s l owner)

/-- An image of Table 18-4 goes to the shadows, the point descriptors of the next boundary, and the inactive bank. Instances the image
does not name have kind 0 in it. -/
def loadImage (s : State) (l : List Byte) (owner : Option Nat) : State :=
  let s1 := loadPairs s l owner
  let at_ := 32 + 8 * fieldAt l 8 4
  let descs := (List.range 4608).map fun i => (i, pointDescOf ((l.drop (at_ + 16 * i)).take 16))
  let changed := descs.filter fun (i, d) => getDesc s1 i != d
  let s2 := { s1 with curd := { s1.curd with descNext := s1.curd.descNext ++ changed } }
  let none_ := (loopNums s2).foldl (fun t n => putLoop t n LoopDesc.zero owner) s2
  loadLoops (fieldAt l 12 2) (l.drop (at_ + 73728)) owner none_

/-- The blocks whose shadows differ from the values in force (SYS_CFG_PENDING). -/
def pendingBlocks (s : State) : Nat :=
  ((below 14 fun n => !(blockShadows s n).isEmpty || (n == 6 && !s.press.loopShadow.isEmpty)).map (2 ^ ·)).sum

/-! ### Meanings -/

/-- A commit write of one block through BAR0 or SPI. -/
def commitWrite (s : State) (n : Nat) : Host.Outcome State Fault Refusal :=
  onCore s fun s => barWo s fun s => (commitBlock s n).1

/-- R37: block 1. -/
def execStuCommit (s : State) : Host.Outcome State Fault Refusal := commitWrite s 1

/-- R136, R143: block 4. -/
def execCurdCommit (s : State) : Host.Outcome State Fault Refusal := commitWrite s 4

/-- R153: block 5. -/
def execHarpCommit (s : State) : Host.Outcome State Fault Refusal := commitWrite s 5

/-- R178: block 6, by its alias. -/
def execPressCtlCfgCommit (s : State) : Host.Outcome State Fault Refusal := commitWrite s 6

/-- R232, R234: block 7. -/
def execCheddaringCommit (s : State) : Host.Outcome State Fault Refusal := commitWrite s 7

/-- R235: block 8, by its alias. -/
def execModeCtlCommit (s : State) : Host.Outcome State Fault Refusal := commitWrite s 8

/-- R278: block 9. -/
def execAffinageCommit (s : State) : Host.Outcome State Fault Refusal := commitWrite s 9

/-- R288, R289: block 10. -/
def execRindCommit (s : State) : Host.Outcome State Fault Refusal := commitWrite s 10

/-- R306: block 11. -/
def execCellarCommit (s : State) : Host.Outcome State Fault Refusal := commitWrite s 11

/-- R372, R376: block 12. -/
def execStarterStuTimeCommit (s : State) : Host.Outcome State Fault Refusal := commitWrite s 12

/-- R343: block 13. -/
def execCommandBlockCommit (s : State) : Host.Outcome State Fault Refusal := commitWrite s 13

end Sys2Proof.Machine
end

