-- ==== Sys2Proof/Machine/Reset.lean ====
section
/-!
DEFINITION. Reset scopes (R407, R408, R312) and the straps (R410).
-/
namespace Sys2Proof.Machine

def modBo (s : State) (f : Boot → Boot) : State := { s with boot := f s.boot }

/-- Bits of a register that the factory programmed (ROF). -/
def rofMask (r : RegName) : Nat := r.mask (· == .rof)

/-- Words in force after a reset: factory fields, and with `keepEq` the equaliser words. -/
def keptWords (s : State) (keepEq : Bool) : Tbl Word :=
  s.regs.vals.filterMap fun (a, w) =>
    match regAt a with
    | some (r, i) =>
      if keepEq && r == .laneEq then some (a, w)
      else if rofMask r = 0 then none
      else
        let v := BitVec.ofNat 32 (blend (rofMask r) w.toNat (r.resetWord i))
        if v = BitVec.ofNat 32 (r.resetWord i) then none else some (a, v)
    | none => none

/-- What R312 keeps of the Affinage store held in the Cave. -/
def keptAff (s : State) : Aff :=
  let r := State.reset.aff
  { r with
    wear := s.aff.wear
    plans := s.aff.plans
    seq := s.aff.seq
    inForce := s.aff.inForce
    lastEpoch := s.aff.lastEpoch
    binsOld := s.aff.binsOld
    hdDay := s.aff.hdDay
    hdDayNo := s.aff.hdDayNo
    hdMeans := s.aff.hdMeans
    eol := s.aff.eol
    capDay := s.aff.capDay
    gains := s.aff.gains
    proposed := s.aff.proposed }

/-- The control state of a cell with only its applied Affinage quantities. -/
def appliedOnly (x : CellCtl) : CellCtl :=
  { CellCtl.zero with weight := x.weight, ilim := x.ilim, fo := x.fo, trims := x.trims, pref := x.pref }

/-- The Cave through a Cellar restart: its contents, without work in progress. -/
def keptCave (s : State) : Cave :=
  { s.cave with
    arm := none
    lastVal := none
    listNext := none
    rearmNext := false
    persist := none
    persImg := none
    persDue := false
    vat := []
    waitMax := []
    grants := [] }

/-- A reset of all digital logic: reset values everywhere but in the Wax domain, the flash, the pins, what lies outside the device, and
what `keepEq` (Table 17-1) and `keepCave` (R312) keep. -/
def resetCore (s : State) (keepEq keepCave : Bool) : State :=
  let r := State.reset
  let c := s.cellar
  let p := s.power
  { r with
    regs := { r.regs with vals := keptWords s keepEq }
    nodes := s.nodes
    harp := { r.harp with permit := s.harp.permit, tripRaw := s.harp.tripRaw }
    ctls := if keepCave then s.ctls.filterMap fun (n, x) =>
        (let y := appliedOnly x; if y = CellCtl.zero then none else some (n, y)) else []
    mode := { r.mode with conv := if s.rind.lockout then .safe else .parked }
    aff := if keepCave then keptAff s else r.aff
    cellar := { r.cellar with
      sdLatch := c.sdLatch
      sdTemp := c.sdTemp
      sdWhere := c.sdWhere
      sdDiode := c.sdDiode
      sdCount := c.sdCount
      sdTime := c.sdTime
      sdTimeHi := c.sdTimeHi
      clkFb := c.clkFb }
    cave := if keepCave then keptCave s else r.cave
    clk := { r.clk with absent := s.clk.absent, offFreq := s.clk.absent }
    rind := { r.rind with lockout := s.rind.lockout, lockRec := s.rind.lockRec }
    power := { r.power with
      lastSrc := p.lastSrc
      wakeFail := p.wakeFail
      cellarHold := p.cellarHold
      railUv := p.railUv
      caveLost := p.caveLost
      retLost := p.retLost
      srcMask := p.srcMask
      attempts := p.attempts
      waxCal := p.waxCal
      waxCnt := p.waxCnt
      cntHi := p.cntHi
      fW := p.fW
      cureUv := p.cureUv
      ovCure := p.ovCure
      wakeNSeen := p.wakeNSeen
      uv := p.uv
      ov := p.ov }
    boot := { r.boot with
      straps := s.boot.straps
      sampling := false
      rstSts := s.boot.rstSts
      rstLow := s.boot.rstLow
      porstLow := s.boot.porstLow
      aonUp := s.boot.aonUp
      serial := s.boot.serial
      flash := s.boot.flash }
    tx := s.tx
    fresh := s.fresh
    pending := s.pending }

/-- Sets bit i of SYS_RST_STS. -/
def markReset (s : State) (i : Nat) : State := modBo s fun x => { x with rstSts := x.rstSts ||| BitVec.ofNat 6 (2 ^ i) }

/-! ### Straps (R410, Table 17-2) -/

def strapF (s : State) (lo w : Nat) : Nat := bitsAt s.boot.straps.toNat lo w
/-- Boot source; the reserved code is taken as 0. -/
def bootSrc (s : State) : Nat := let v := strapF s 0 2; if v = 3 then 0 else v

/-- The straps stand: reserved codes raise F_BOOT_STRAP, and frame_len is loaded (R37). -/
def strapsTaken (s : State) : State :=
  let s1 := if strapF s 0 2 = 3 ∨ 2 ≤ strapF s 2 2 then raiseE s 831 (s.boot.straps.setWidth 32) else s
  let l := strapF s 10 2
  modFr (setFld s1 .stuFrmCfg_frame_len 0 l) fun x => { x with len := ⟨l % 4, Nat.mod_lt _ (by decide)⟩, ticks := frameTicks l }

/-- Rails that crossed in CURE raise their sources after the wake (R404), which then follow the rail again. -/
def railConds (s : State) : State :=
  let t := (List.range 9).foldl (fun t r =>
    let d : Word := BitVec.ofNat 32 r
    let t1 := if s.power.cureUv.getLsbD r then setC t (810 + r) true d else t
    let t2 := if s.power.ovCure.getLsbD r then setC t1 (819 + r) true d else t1
    setC (setC t2 (810 + r) (s.power.uv.getLsbD r) d) (819 + r) (s.power.ov.getLsbD r) d) s
  { t with power := { t.power with cureUv := 0, ovCure := 0 } }

/-- Conditions that stand at a reset or a wake are judged again: the PCIe link, the shutdown latch, a failed wake, references and rails. -/
def standingConds (s : State) : State :=
  let s1 := setC (setC (setC s 908 (!s.cmd.link) 0) 801 s.cellar.sdLatch 0) 828 s.power.wakeFail 0
  refFaults (railConds s1)

/-- The boot ROM leaves stage 0 once its reference is there (R450): the PLL takes its first lock, and the image is awaited. -/
def bootGo (s : State) : State :=
  if s.boot.stage = 0 ∧ !s.boot.sampling ∧ (!s.clk.absent.getLsbD 0 ∨ s.boot.refFallback) then
    let t := modBo s fun x => { x with stage := 2 }
    loadBand (modCk t fun x => { x with refUse := s.boot.refFallback, relock := .locking })
  else s

/-- The end of an internal reset: the straps of the last release stand. -/
def restart (s : State) : State := bootGo (standingConds (strapsTaken s))

/-- An internal reset with the scope of `RST_N`; without effect while a reset pin is low. -/
def internalReset (s : State) (bit : Nat) (keepCave : Bool) : State :=
  if s.boot.rstLow || s.boot.porstLow then s
  else
    let t := resetCore s true keepCave
    markReset (restart ((t.aff.plans.map (·.1)).foldl affShow (modBo t fun x => { x with watch := keepCave }))) bit

/-- Both reset pins are high: the straps are sampled for the first time. -/
def released (s : State) (straps : BitVec 12) : State :=
  if s.boot.rstLow || s.boot.porstLow || !s.boot.aonUp then s
  else modBo s fun x => { x with straps := straps, sample := straps, sampling := true }

/-! ### Meanings -/

/-- The end of a row that acts without the core clock: the pins follow. -/
def pinned (s : State) : Host.Outcome State Fault Refusal := .next (updPins s)

/-- R408: `RST_N` low for 1 µs; absorbed while `PORST_N` is low. -/
def execRstNAssert (s : State) : Host.Outcome State Fault Refusal :=
  pinned <|
    if s.boot.rstLow then s
    else if s.boot.porstLow then modBo s fun x => { x with rstLow := true }
    else modBo (markReset (resetCore s true false) 2) fun x => { x with rstLow := true }

/-- R408, R410: `RST_N` high. -/
def execRstNRelease (straps : BitVec 12) (s : State) : Host.Outcome State Fault Refusal :=
  pinned <| if s.boot.rstLow then released (modBo s fun x => { x with rstLow := false }) straps else s

/-- R407: `PORST_N` low for 1 µs. -/
def execPorstNAssert (s : State) : Host.Outcome State Fault Refusal :=
  pinned <| if s.boot.porstLow then s else modBo (markReset (resetCore s false false) 1) fun x => { x with porstLow := true }

/-- R407, R410: `PORST_N` high. -/
def execPorstNRelease (straps : BitVec 12) (s : State) : Host.Outcome State Fault Refusal :=
  pinned <| if s.boot.porstLow then released (modBo s fun x => { x with porstLow := false }) straps else s

/-- R407, R449: the always-on supply falls: everything but the flash and what lies outside resets, the lockout latch included. The
reset pins are low until their release steps (R450). -/
def execAonPowerOnReset (s : State) : Host.Outcome State Fault Refusal :=
  let t := resetCore s false false
  let r := State.reset
  pinned { t with
    rind := r.rind
    cellar := { r.cellar with clkFb := t.clk.absent.getLsbD 0 && t.clk.absent.getLsbD 1 }
    power := r.power
    mode := r.mode
    boot := { t.boot with
      straps := 0
      rstSts := 0
      rstLow := true
      porstLow := true
      aonUp := false } }

/-- R426, R449: the always-on supply is up: `por` is set and every other bit of SYS_RST_STS is 0. -/
def execAonSupplyUp (s : State) : Host.Outcome State Fault Refusal :=
  pinned <| if s.boot.aonUp then s else modBo s fun x => { x with aonUp := true, rstSts := 1 }

/-- R410: the second sample: a strap that differs takes 0 with F_BOOT_STRAP. -/
def execStrapResample (straps : BitVec 12) (s : State) : Host.Outcome State Fault Refusal :=
  onCore s fun s =>
    if !s.boot.sampling then s
    else
      let bad := s.boot.sample ^^^ straps
      let s1 := modBo s fun x => { x with straps := x.sample &&& ~~~bad, sampling := false }
      restart (if bad = 0 then s1 else raiseE s1 831 (bad.setWidth 32))

/-- R366, R450: an absent reference is back, and a boot that waited for it proceeds. -/
def execReferenceReturn (ref : Fin 5) (s : State) : Host.Outcome State Fault Refusal :=
  onCellar s fun s => bootGo (refBack s ref)

/-- R450: `REFCLK_0` has been absent for 1 ms. -/
def execBootRefclkFallback (s : State) : Host.Outcome State Fault Refusal :=
  onCore s fun s =>
    if s.boot.stage = 0 ∧ !s.boot.sampling ∧ s.clk.absent.getLsbD 0 then
      refFaults (bootGo (modBo s fun x => { x with refFallback := true }))
    else s

/-- R312: 10 ms below 100 °C after a shutdown: an internal reset into WATCH that keeps the Cave. -/
def execCellarRestart (s : State) : Host.Outcome State Fault Refusal :=
  if s.cellar.mode = .shutdown ∧ cooled s ∧ cellarRuns s then done (internalReset s 4 true) else .next s

end Sys2Proof.Machine
end

