-- ==== Sys2Proof/Machine/Boot.lean ====
section
/-!
DEFINITION. Boot (chapter 17): the firmware image, persisted state, recovery, WATCH and HOLD-BUS.
-/
namespace Sys2Proof.Machine

/-! ### Flash (R412, R413) -/

/-- Bytes of the external flash that are held byte by byte; erased bytes read 0xFF. -/
def flashBytes (s : State) (off n : Nat) : List Byte := (List.range n).map fun i => tget 0xFF s.boot.flash.raw (off + i)

/-- Programs bytes of the external flash. -/
def flashPut (s : State) (off : Nat) (l : List Byte) : State :=
  let raw := (List.range l.length).foldl (fun t i => tset 0xFF t (off + i) (l.getD i 0)) s.boot.flash.raw
  modBo s fun x => { x with flash := { x.flash with raw := raw } }

/-- Bytes of the boot window (R428). -/
def windowBytes (s : State) (off n : Nat) : List Byte := (List.range n).map fun i => tget 0 s.boot.window (off + i)

/-- The check of an image (R413): its version and the CRC of its body. -/
def imageCheck (s : State) (read : Nat → Nat → List Byte) : Option (Word × Nat) :=
  let h := read 0 64
  let n := fieldAt h 8 4
  if fieldAt h 0 4 = 0xB5760001 ∧ n ≤ 8388544 ∧ (crc32 (h.take 60)).toNat = fieldAt h 60 4 ∧
      fieldAt h 16 2 ≤ fld0 s .sysId_rom_ver ∧ (crc32 (read 64 n)).toNat = fieldAt h 12 4 then
    some (BitVec.ofNat 32 (fieldAt h 4 4), fieldAt h 12 4)
  else none

/-- Offset of a firmware slot. -/
def slotBase (n : Nat) : Nat := 0x100000 + 0x800000 * n

/-- The image in a firmware slot. -/
def slotImage (s : State) (n : Nat) : Option (Word × Nat) := imageCheck s fun o l => flashBytes s (slotBase n + o) l

/-- A valid boot record: sequence number, slot, CRC of the image body. -/
def bootRecord (s : State) (i : Nat) : Option (Nat × Nat × Nat) :=
  let r := flashBytes s (0x1000 * i) 16
  if (crc32 (r.take 12)).toNat = fieldAt r 12 4 ∧ byteAt r 4 ≤ 1 then some (fieldAt r 0 4, byteAt r 4, fieldAt r 8 4) else none

/-- The newer valid boot record, and the place of the older one. -/
def newerRecord (s : State) : Option (Nat × Nat × Nat) × Nat :=
  match bootRecord s 0, bootRecord s 1 with
  | some a, some b => if a.1 < b.1 then (some b, 0) else (some a, 1)
  | some a, none => (some a, 1)
  | none, b => (b, 0)

/-- The slot that boot loads (R414): version, slot, fallback. -/
def chooseSlot (s : State) : Option (Word × Nat × Bool) :=
  let named := match (newerRecord s).1 with
    | some (_, n, crc) => (match slotImage s n with
      | some (v, c) => if c = crc then some (v, n) else none
      | none => none)
    | none => none
  match named with
  | some (v, n) => some (v, n, false)
  | none =>
    let order := match (newerRecord s).1 with | some (_, n, _) => [1 - n] | none => [0, 1]
    order.findSome? fun n => (slotImage s n).map fun x => (x.1, n, true)

/-! ### Saved images -/

/-- Every register element that holds RWU fields. -/
def rwuRegs : List (RegName × Nat) :=
  (allRegs.filter fun r => r.mask (· == .rwu) != 0).flatMap fun r =>
    ((List.range r.place.count).map (r.place.first + ·)).map fun i => (r, i)

/-- Key of the user calibration of a point in the RWU region. -/
def calKey (pa : Nat) : Nat := 2 ^ 25 + pa

/-- The RWU words of the registers, and of the user calibration. -/
def rwuNow (s : State) : Tbl Word :=
  rwuRegs.foldl (fun t (r, i) => tput t (r.addr i) (BitVec.ofNat 32 (rword s r i &&& r.mask (· == .rwu)))) []
def calNow (s : State) : Tbl Word :=
  s.curd.ucal.map fun (pa, g, o) => (calKey pa, BitVec.ofNat 32 (g.toNat + 2 ^ 16 * o.toNat))

/-- Words of the newest image of a region. -/
def newestWords (l : List (Option Image)) : Tbl Word := match newest l with | some i => i.words | none => []

/-- An image is written to the older copy of its region with the next sequence number. -/
def saveImage (l : List (Option Image)) (words : Tbl Word) : List (Option Image) :=
  let a := l.getD 0 none
  let b := l.getD 1 none
  let seq := match newest l with | some i => i.seq + 1 | none => 1
  let toB := match a, b with
    | some x, some y => decide (y.seq < x.seq)
    | some _, none => true
    | none, _ => false
  if toB then [a, some ⟨seq, words⟩] else [some ⟨seq, words⟩, b]

/-- RWU fields and user calibration are loaded (R19). -/
def loadRwu (s : State) (i : Image) : State :=
  i.words.foldl (fun t (a, w) =>
    if a < 2 ^ 25 then
      match regAt a with
      | some (r, x) => putWord t r x (blend (r.mask (· == .rwu)) w.toNat (rword t r x))
      | none => t
    else
      let g : Half := BitVec.ofNat 16 w.toNat
      let o : Half := BitVec.ofNat 16 (w.toNat / 2 ^ 16)
      { t with curd := { t.curd with ucal := tset (0x4000, 0) t.curd.ucal (a - 2 ^ 25) (g, o) } }) s

/-- The newest saved configuration. -/
def newestCfg (s : State) : Option (List Byte) :=
  match s.boot.flash.cfg.getD 0 none, s.boot.flash.cfg.getD 1 none with
  | some (a, x), some (b, y) => some (if a < b then y else x)
  | some (_, x), none => some x
  | none, some (_, y) => some y
  | none, none => none

/-- The Affinage store is loaded (R356), and the points of Table 10-2 show it. -/
def loadAff (s : State) (x : AffStore) : State :=
  let s1 := { s with
    aff := { s.aff with
      wear := x.wear
      plans := x.plans
      seq := x.planSeq
      inForce := x.planForce
      lastEpoch := x.lastEpoch
      binsOld := x.binsOld
      hdDay := x.hdDay
      hdDayNo := x.hdDayNo
      hdMeans := x.hdMeans
      eol := x.eol
      gains := x.gains
      proposed := x.proposed
      capDay := x.capDay }
    cave := { s.cave with bins := x.bins, persSeq := x.seq } }
  let s2 := x.applied.foldl (fun t (c, a) => putApplied t c a) s1
  (x.plans.map (·.1)).foldl affShow s2

/-! ### HOLD-BUS set (R420, R421) -/

/-- Level, kind, order and n_u of the instances of Table 07-7, in its order. -/
def holdBusLoops : List (Nat × Nat × Nat × Nat) :=
  List.replicate 15 (4, 1, 1, 0) ++ List.replicate 12 (4, 3, 1, 0) ++ List.replicate 3 (4, 4, 1, 0) ++ [(4, 5, 4, 2)] ++
  List.replicate 3 (3, 2, 3, 0) ++ List.replicate 6 (3, 1, 1, 0) ++ List.replicate 3 (3, 7, 4, 0) ++ List.replicate 3 (3, 5, 2, 1) ++
  [(3, 7, 3, 0)] ++ List.replicate 12 (2, 1, 1, 0) ++ List.replicate 12 (2, 2, 2, 0) ++ List.replicate 24 (2, 1, 1, 0)

/-- An item of the set that only the firmware image holds. -/
def hbItem (s : State) (i : Nat) : Nat := Config.holdBus s.boot.version.toNat s.boot.straps.toNat i

/-- Descriptor of instance n of the set. -/
def holdBusLoop (s : State) (n : Nat) (x : Nat × Nat × Nat × Nat) : LoopDesc :=
  let g := fun i w => hbItem s (4096 * n + i) % 2 ^ w
  { kind := x.2.1
    level := x.1
    scope := BitVec.ofNat 16 (g 0 16)
    order := x.2.2.1
    nu := x.2.2.2
    in0 := g 1 20
    in1 := g 2 20
    in2 := g 3 20
    in3 := g 4 20
    out := g 5 20
    loPt := g 6 20
    hiPt := g 7 20
    loC := BitVec.ofNat 16 (g 8 16)
    hiC := BitVec.ofNat 16 (g 9 16)
    obs := g 10 15
    grid := g 11 1 == 1
    critical := g 12 1 == 1
    group := g 13 8
    modeMask := BitVec.ofNat 32 (g 14 32)
    slew := g 15 31
    hold := 1 + g 16 6
    tHand := 1 + hbItem s (4096 * n + 17) % 1000 }

/-- The loops of the set with their factory coefficients. -/
def holdBusPress (s : State) : State :=
  let ls := (List.range holdBusLoops.length).map fun n => (n, holdBusLoop s n (holdBusLoops.getD n (2, 1, 1, 0)))
  let s1 := ls.foldl (fun t (n, d) =>
    (loopWords d).foldl (fun u w => putIdle u n w (hbItem u (4096 * n + 1024 + w) % 2 ^ 32))
      { t with press := { t.press with loopStaged := tput t.press.loopStaged n d } }) s
  let ds := ls.map (·.2)
  let s2 := stageBlock s1 6 fun _ _ => true
  { s2 with press := { s2.press with
      swapPending := true
      costMax := checkCost ds
      prepLoad := prepLoadOf s2 ds } }

/-- V_LL × 1.25 × √(2/3) in volts (Table 17-3), and the LV set-point as a code of 1,875 V. -/
def gridBase (s : State) : Nat := [6736, 11227, 14085, 20412, 22454, 33680, 35211, 46949].getD (strapF s 6 3) 0
def busCode (s : State) : Nat := [800, 1000, 1250, 1500].getD (strapF s 4 2) 0 * 32768 / 1875

/-- Base class of sigma-delta input i (Table 17-6). -/
def sdClass (i : Nat) : Nat := if i < 3 then 4 else if i < 6 then 6 else if i < 18 then 3 else if i < 30 then 6 else 0

/-- The Curd part of the set: bases, clocks, inputs, descriptors. -/
def holdBusCurd (s : State) : State :=
  let s1 := setSfld (setSfld s .curdBase_base 3 1875000 none) .curdBase_base 4 (1000 * gridBase s) none
  let s2 := (List.range 4).foldl (fun t m => setSfld (setSfld t .curdSdClk_rate m 0 none) .curdSdClk_enable m 1 none) s1
  let s3 := (List.range 30).foldl (fun t i => setSfld (setSfld t .curdSdCfg_osr i 1 none) .curdSdCfg_enable i 1 none) s2
  let fs := fun j => if j = 3 then 1875000 else if j = 4 then 1000 * gridBase s else baseOf s j
  let ds := (List.range 30).map fun i => (512 + i, { getDesc s (512 + i) with base := sdClass i, fs := fs (sdClass i) })
  { stageBlock s3 4 (fun _ _ => true) with curd := { s3.curd with descNext := s3.curd.descNext ++ ds } }

/-- The HOLD-BUS set takes effect at the first boundary. -/
def holdBusSet (s : State) : State :=
  let s1 := holdBusPress (holdBusCurd s)
  let s2 := (presentBrs s1).foldl (fun t b => setSfld t .chedBrCfg_k b 2 none) s1
  let s3 := stageBlock s2 7 fun _ _ => true
  let set := [(Fld.modeReq_grid, 0), (.modeReq_flow, 2), (.modeReq_svc, 0), (.modeReq_rt_en, 1), (.modeRtCfg0_v_lo, 0x51EB),
    (.modeRtCfg0_v_hi, 0x70A3), (.modePrechgCfg_t_pre, 10000)]
  let s4 := set.foldl (fun t (f, v) => setSfld t f 0 v none) s3
  let s5 := [0, 1].foldl (fun t i => setSfld t .modeRtSrc_pa i (stPa (hbItem t (2 ^ 24 + i) % 1792)) none) s4
  let s6 := stageBlock (setSfld (stageBlock s5 8 fun _ _ => true) .affCfg_policy 0 2 none) 9 fun _ _ => true
  let sp := fun (t : State) n v => putPt t ((tget LoopDesc.zero t.press.loopStaged n).in1) (BitVec.ofNat 16 v)
  modBo ((List.range 12).foldl (fun t g => sp t (3 + g) (busCode t)) (sp s6 2 0)) fun x => { x with holdBus := true }

/-! ### Restoring the persisted state (R415) -/

/-- A region that cannot be loaded, or a block refused at boot. -/
def bootCal (s : State) (detail : Nat) : State := raiseE s 832 (BitVec.ofNat 32 detail)

/-- Returns the shadows of a block to the values in force, loop descriptors included. -/
def discardAll (s : State) (n : Nat) : State :=
  let t := discardBlock s n
  if n = 6 then { t with press := { t.press with loopShadow := [] } } else t

/-- The peer is seen: a peer lane carries traffic. R232 names no refusal for a peer that is not; R415 has boot meet one (log entry
160). -/
def peerSeen (s : State) : Bool := [26, 27].any fun n => let m := (getLane s n).mode; m == .up || m == .degraded

/-- One block of the saved configuration is committed; a twin block that nothing but an unseen peer stands against is tried again
later. -/
def bootCommit (s : State) (n : Nat) : State :=
  let l := strapF s 10 2
  let s0 := if n = 1 ∧ sfld s .stuFrmCfg_frame_len 0 ≠ l then
      raiseE (setSfld s .stuFrmCfg_frame_len 0 l none) 831 (BitVec.ofNat 32 (sfld s .stuFrmCfg_frame_len 0))
    else s
  match commitBlock s0 n with
  | (t, none) =>
    if n = 7 ∧ sfld s .twinCfg_enable 0 = 1 ∧ !peerSeen s then
      let ws := (blockShadows s0 7).map fun (r, i, x) => (r.addr i, x.val)
      modBo (discardAll s0 7) fun x => { x with twinRetry := 100, twinWords := ws }
    else t
  | (t, some _) => bootCal (discardAll t n) n

/-- The saved configuration is loaded and committed in the order of Table 13-24. -/
def restoreCfg (s : State) (flashOk : Bool) : State :=
  match if flashOk then newestCfg s else none with
  | none => bootCal s 0x1200000
  | some l =>
    let s1 := (List.range 13).foldl (fun t i => bootCommit t (i + 1)) (loadImage s l none)
    modBo (bankCommit s1).1 fun x => { x with cfgLoaded := true }

/-- Boot binds queue 30 as the status queue, on the ports that have an address (R419). -/
def bindStatus (s : State) : State :=
  if s.boot.cfgLoaded || (fld s .cmdEthIp_ip 0 = 0 && fld s .cmdEthIp_ip 1 = 0) then s
  else
    let s1 := setFld (setFld (setFld s .cmdQCfg_transport 30 1) .cmdQCfg_size 30 64) .cmdQCfg_enable 30 1
    let on := fun p => b2n (fld s .cmdEthIp_ip p != 0)
    let s2 := setFld (setFld s1 .cmdUdpCfg_en_p0 0 (on 0)) .cmdUdpCfg_en_p1 0 (on 1)
    modBo (modQ s2 30 fun _ => { Queue.zero with mode := .active }) fun x => { x with statusQueue := true }

/-- The firmware starts and restores the persisted state, up to ready. -/
def firmwareStart (s : State) (version : Word) (slot : Nat) (fallback flashOk : Bool) (ms : Nat) : State :=
  let s0 := modBo { s with rind := { s.rind with tripBoot := false } } fun x => { x with
    stage := 4
    firmware := true
    version := version
    slot := slot == 1
    fallback := fallback }
  let s1 := if fallback ∨ !flashOk then raiseE s0 829 0 else s0
  let s2 := match if flashOk then newest s1.boot.flash.rwu else none with
    | some i => modBo (loadRwu s1 i) fun x => { x with rwuLoaded := true }
    | none => bootCal s1 0x1100000
  let s3 := if flashOk ∧ (newest s2.boot.flash.map).isSome then modBo s2 fun x => { x with mapLoaded := true }
    else bootCal s2 0x1400000
  let s4 := if strapF s3 2 2 ≠ 1 then restoreCfg s3 flashOk else if s3.boot.watch then s3 else holdBusSet s3
  let s5 := if s4.boot.watch then s4 else match if flashOk then newerAff s4 else none with
    | some x => loadAff s4 x
    | none => bootCal s4 0x1800000
  let s6 := modBo (bindStatus (readVoutMode s5)) fun x => { x with stage := 5, ready := true, readyMs := min 0xFFFF ms }
  let (t, s7) := instant s6
  logAndRing s7 0x9003 t false [] []

/-- No valid image can be loaded: no frame runs any more (R416). -/
def enterRecovery (s : State) : State :=
  raiseE (modFr (modBo s fun x => { x with stage := 3, recovery := true }) fun x => { x with running := false, snapped := false }) 830 0

/-- A firmware image has been read and checked, or none could be (R414). -/
def imageLoaded (s : State) (otpOk flashOk : Bool) (ms : Nat) : State :=
  if s.boot.stage ≠ 2 ∨ (bootSrc s ≠ 0 ∧ !s.boot.go) then s
  else if !otpOk then enterRecovery s
  else if bootSrc s = 0 then
    if !flashOk then enterRecovery (raiseE s 829 0)
    else match chooseSlot s with
      | some (v, n, fb) => firmwareStart s v n fb true ms
      | none => enterRecovery s
  else match imageCheck s (windowBytes s) with
    | some (v, _) => firmwareStart s v 0 false flashOk ms
    | none => enterRecovery s

/-! ### Default modes (R417 to R424) -/

/-- The default trace list (R419). -/
def defaultTrace (s : State) : State :=
  if s.boot.cfgLoaded || !s.cave.list.isEmpty || s.cave.listNext.isSome then s
  else { s with cave := { s.cave with
    listNext := some ((allCells s).map (fun c => cellPa c 0) ++ (List.range 32).map stPa) } }

/-- The default mode is entered once discovery has ended on every present branch; a standby discovers none (R222). -/
def bootBoundary (s : State) : State :=
  if s.boot.stage = 5 ∧ (standby s || (presentBrs s).all fun b => let d := (getBr s b).disc; d == .done || d == .failed) then
    defaultTrace (modBo s fun x => { x with stage := if x.holdBus then 7 else 6 })
  else s

/-- PT_ARM. -/
def armKey (s : State) : Bool := s.curd.pins.getLsbD 16

/-- Automatic starts of the preceding hour. -/
def recentStarts (s : State) : List Nat := s.boot.hbStarts.filter fun t => decide (nowQ s < t + 3600 * 4000000000)

/-- The conditions of R422. -/
def autoStartOk (s : State) : Bool :=
  s.boot.holdBus && s.boot.hbCycle == 0 && armKey s && s.boot.ready && s.mode.conv == .parked && !s.mode.startReq &&
  decide (standing s ≤ 1) && startOk s && !standby s && decide ((recentStarts s).length < 3)

/-- The station starts itself. -/
def autoStart (s : State) : State :=
  if autoStartOk s then
    modBo (convStart s).1 fun x => { x with hbStarts := recentStarts s ++ [nowQ s] }
  else s

/-- The arming cycle of R423, frame by frame. -/
def armCycle (s : State) : State :=
  let s1 := modBo s fun x => { x with hbLow := if armKey s then 0 else x.hbLow + 1 }
  if s.boot.hbCycle = 1 ∧ msFrames s 1000 ≤ s1.boot.hbLow then modBo s1 fun x => { x with hbCycle := 2 }
  else if s.boot.hbCycle = 2 ∧ armKey s then
    let s2 := (clearMany s1 (s1.rind.src.map (·.1))).1
    modBo s2 fun x => { x with hbCycle := 0 }
  else s1

/-- HOLD-BUS before the converter transition of a boundary: the arming cycle, a start, a stop with the key off. -/
def holdBusBefore (s : State) : State :=
  if !s.boot.holdBus then s
  else
    let s1 := autoStart (armCycle s)
    let runs := s1.mode.conv == .precharge || s1.mode.conv == .run || s1.mode.conv == .rampDown
    if runs && !armKey s1 && !s1.mode.stopReq && !standby s1 then modBo (convStop s1).1 fun x => { x with hbOwn := true } else s1

/-- The arming cycle of R423 is asked for; the second with PT_ARM at 0 counts from here. -/
def askCycle (s : State) : State := modBo s fun x => { x with hbCycle := 1, hbLow := 0 }

/-- HOLD-BUS after it: the stage follows; a move to PARKED that the TB576 did not command asks for the arming cycle, and so does a
class-2 latch that rises while the station is live, whose branch stays parked until it (R423, log entry 120). -/
def holdBusAfter (s : State) : State :=
  if !s.boot.holdBus then s
  else if s.mode.conv = .parked ∨ s.mode.conv = .safe then
    if s.boot.stage = 8 then
      modBo (if s.boot.hbOwn then s else askCycle s) fun x => { x with stage := 7, hbOwn := false }
    else s
  else modBo (if 2 ≤ standing s ∧ s.boot.hbCycle = 0 then askCycle s else s) fun x => { x with stage := 8 }

/-! ### Meanings -/

/-- R414 to R416: an image has been read and checked; `ms` is the time from release to ready. -/
def execImageLoadComplete (otpOk : Bool) (flashOk : Bool) (ms : Nat) (s : State) : Host.Outcome State Fault Refusal :=
  onCore s fun s => imageLoaded s otpOk flashOk ms

/-- R415: 100 ms after the last attempt the twin block is tried again. -/
def execTwinBlockRetry (s : State) : Host.Outcome State Fault Refusal :=
  onCore s fun s =>
    if s.boot.twinRetry = 0 then s
    else
      let s1 := s.boot.twinWords.foldl (fun t (a, w) =>
        match regAt a with | some (r, i) => putShadow t r i w.toNat none | none => t) s
      let fail := fun t => bootCal (modBo (discardAll t 7) fun x => { x with twinRetry := 0, twinWords := [] }) 7
      if !peerSeen s1 then
        if s.boot.twinRetry = 1 then fail s1 else modBo (discardAll s1 7) fun x => { x with twinRetry := x.twinRetry - 1 }
      else match commitBlock s1 7 with
        | (t, none) => modBo t fun x => { x with twinRetry := 0, twinWords := [] }
        | (t, some _) => fail t

/-- R422: the conditions of an automatic start hold. -/
def execHoldBusAutostart (s : State) : Host.Outcome State Fault Refusal := onCore s autoStart

/-- R414: SYS_BOOT_CTL.go starts the check of a host-loaded image. -/
def execSysBootCtlGo (s : State) : Host.Outcome State Fault Refusal :=
  onCore s fun s => barWo s fun s =>
    if s.boot.stage = 2 ∧ bootSrc s ≠ 0 then modBo s fun x => { x with go := true } else s

/-- R428: a word written to the boot window. -/
def bootWindow (s : State) (offset : Nat) (value : Nat) : State :=
  if s.boot.stage = 2 ∧ bootSrc s ≠ 0 ∧ !s.boot.go then
    modBo s fun x => { x with
      window := (List.range 4).foldl (fun t i => tset 0 t (4 * offset + i) (BitVec.ofNat 8 (value / 2 ^ (8 * i)))) x.window }
  else setFld s .sysErr_boot_win 0 1

/-- R428: a write to the boot window; `offset` counts words. -/
def execBootWindowWrite (offset : Fin 2097152) (value : Word) (s : State) : Host.Outcome State Fault Refusal :=
  onCore s fun s => bootWindow s offset value.toNat

end Sys2Proof.Machine
end

