-- ==== Sys2Proof/Machine/Local.lean ====
section
/-!
DEFINITION. The 24 local outputs (R158 to R160), trip inputs (R161 to R164) and the debug halt (R167 to R170).
-/
namespace Sys2Proof.Machine

/-! ### Local pairs -/

/-- A period as applied: at least 400 ticks. -/
def lpPeriod (p : Nat) : Nat := max 400 p

/-- Ideal on-interval of A in sixteenths of a tick for a period and an on-time (R158). A half sixteenth in centre-aligned mode is rounded
down (DESIGN CHOICE, log entry 136). -/
def lpIdeal (centre : Bool) (per on16 : Nat) : Nat × Nat :=
  let p := 16 * per
  let d := min on16 p
  if centre then ((p - d) / 2, (p + d) / 2) else (0, d)

/-- Period and on-time of the next carrier period (R159). -/
def lpNext (x : LPair) : Nat × Nat :=
  match x.next with
  | some (some p, d) => (p, d)
  | some (none, d) => (x.per, d)
  | none => (x.per, x.on16)

/-- Dead time of a pair in ticks. -/
def lpDt (s : State) (j : Nat) : Nat := max 80 (fld s .harpLpCfg_dt j)

/-- The instants of a carrier period at which the ideal output changes, the start of the period first: time in sixteenths, to B (R158). -/
def lpEvents (centre : Bool) (per on16 : Nat) : List (Nat × Bool) :=
  let (a0, a1) := lpIdeal centre per on16
  (0, !(a0 = 0 ∧ a0 < a1)) :: (if 0 < a0 ∧ a0 < a1 then [(a0, false)] else []) ++
    (if a0 < a1 ∧ a1 < 16 * per then [(a1, true)] else [])

/-- One edge of an output at a time in sixteenths delayed by `dt` ticks, dithered (R157). While a higher rank holds the outputs, a turn-on
is discarded (R29, R226). -/
def lpEdge (held isB on : Bool) (t : Int) (dt : Nat) (x : LPair) : LPair :=
  let i := 2 * b2n isB + b2n (!on)
  let m := x.dith.getD i 0
  let late := b2n (decide (((bitrev4 m : Nat) : Int) < t % 16))
  { x with
    dith := x.dith.set i ((m + 1) % 16)
    edge := some (t / 16 + dt + late, isB, on)
    aOn := if isB then x.aOn else on && !held
    bOn := if isB then on && !held else x.bOn }

/-- The pending turn-on falls due before the next instant, or before the end of the carrier period. -/
def lpDue (dt : Nat) (x : LPair) : Option (Bool × Int) :=
  match x.pendOn with
  | some (b, t) =>
    let lim : Int := match x.sched with | (u, _) :: _ => u | [] => 16 * x.per
    if t + 16 * dt < lim then some (b, t) else none
  | none => none

/-- The ideal output changes to B, or to A, at u: a turn-on of the other output that is still pending goes with its turn-off (R158). A trip
keeps A off, and the turn-on of B that it cancelled waits for the next one (R162). -/
def lpTurn (x : LPair) (u : Nat) (isB : Bool) : LPair :=
  let kept := match x.pendOn with | some (c, _) => c == isB | none => false
  let on := if isB then x.bOn else x.aOn
  let barred := if isB then decide (u = 0) && x.cancelB else x.tripHold
  { x with
    pendOn := if kept then x.pendOn else if on || barred then none else some (isB, (u : Int))
    cancelB := x.cancelB && isB && barred }

/-- The next edge of a pair in its carrier period; none is left: no change. Instants at which no output changes pass. -/
def lpFire (held : Bool) (dt : Nat) : Nat → LPair → LPair
  | 0, x => x
  | n + 1, x =>
    match lpDue dt x with
    | some (b, t) => lpEdge held b true t dt { x with pendOn := none }
    | none =>
      match x.sched with
      | [] => x
      | (u, b) :: rest =>
        let y := lpTurn { x with sched := rest } u b
        if (if b then x.aOn else x.bOn) then lpEdge held (!b) false u 0 y else lpFire held dt n y

/-- Every edge that is left in the carrier period. -/
def lpFlush (held : Bool) (dt : Nat) (x : LPair) : LPair := (List.range 6).foldl (fun y _ => lpFire held dt 4 y) x

/-- A carrier period begins with the values that were pending; a turn-on that is delayed past its start stays pending (R158, R159). -/
def lpPeriodStart (centre : Bool) (x : LPair) : LPair :=
  let (p, d) := lpNext x
  { x with
    per := p
    on16 := d
    next := none
    tripHold := false
    pendOn := x.pendOn.map fun (b, t) => (b, t - 16 * x.per)
    sched := lpEvents centre p d
    resume := false }

/-- A carrier boundary of pair j (R158, R159, R163): what is left of the old period takes place, the pending values take effect, A is free
again, a pair that nothing holds off runs. -/
def lpBoundary (s : State) (j : Nat) : State :=
  let held := pairHeld s j
  modPair s j fun x =>
    let y := lpPeriodStart (flag s .harpLpCfg_centre j) (lpFlush (outputsHeld s) (lpDt s j) x)
    if held then { y with forced := true, sched := [], pendOn := none, cancelB := false, aOn := false, bOn := false }
    else { y with forced := false }

/-- The pin gate suppresses the outputs at rank 7. A debug halt, which is rank 6, keeps the gate as it stood when the halt began (R29, R167). -/
def lpGate (s : State) : Bool := if s.harp.halted then s.harp.gateAtHalt else outputsHeld s

/-- The levels of A and B behind the pin gate: both off while it suppresses them (R29, R226). -/
def lpOut (s : State) (j : Nat) : Bool × Bool :=
  let x := getPair s j
  (x.aOn && !lpGate s, x.bOn && !lpGate s)

/-- The edge clock runs for the local pairs: no debug halt, and the core is on the main PLL (R36, R167). -/
def lpRuns (s : State) : Bool := !s.harp.halted && !s.clk.onSafe

/-- Pair j is stopped: both outputs off, no carrier. -/
def lpStop (s : State) (j : Nat) : State :=
  modPair s j fun x => { x with
    running := false
    aOn := false
    bOn := false
    sched := []
    pendOn := none
    cancelB := false
    tripHold := false }

/-- What pairs do at a frame boundary: an enabled pair starts its first carrier period; a halt that ends restarts them (R158, R170). -/
def lpFrame (s : State) (j : Nat) : State :=
  if !lpRuns s then s
  else
    let x := getPair s j
    if flag s .harpLpCfg_enable j ∧ (!x.running ∨ x.resume) then
      let y := if x.per = 0 then { x with per := lpPeriod (RegName.resetWord .harpLpPer j) } else x
      lpBoundary (modPair s j fun _ => { y with
        running := true
        sched := []
        pendOn := none
        cancelB := false
        aOn := x.resume && x.aOn
        bOn := x.resume && x.bOn }) j
    else s

/-! ### Trip inputs -/

/-- A filtered assertion ends the active pulse of a pair, or cancels the turn-on that is pending in dead time (R162). -/
def lpTrip (x : LPair) : LPair :=
  let toB := match x.pendOn with | some (b, _) => b && !x.aOn && !x.bOn | none => false
  { x with
    aOn := false
    tripHold := true
    pendOn := if x.aOn || x.bOn then x.pendOn else none
    cancelB := x.cancelB || toB }

/-- Channel i latches (R163). -/
def tripLatch (s : State) (i : Nat) : State :=
  let s1 := setBit s .harpTripSts 0 i true
  let s2 := (below 12 fun j => bitAt (fld s1 .harpTripBind_pairs i) j).foldl forceOff s1
  setC s2 (658 + i) true (BitVec.ofNat 32 i)

/-- A filtered assertion on trip input i (R161 to R163); the level counts for a wake also while the channel is not enabled (R399). -/
def tripAssert (s0 : State) (i : Nat) : State :=
  let s := { s0 with harp := { s0.harp with tripRaw := s0.harp.tripRaw ||| BitVec.ofNat 12 (2 ^ i) } }
  if !flag s .harpTripCfg_enable i || s.harp.tripLive.getLsbD i then s
  else
    let s1 := { s with harp := { s.harp with
      tripLive := s.harp.tripLive ||| BitVec.ofNat 12 (2 ^ i)
      tripCount := tmod 0 s.harp.tripCount i (· + 1) } }
    let s2 := (below 12 fun j => bitAt (fld s1 .harpTripBind_pairs i) j).foldl (fun t j => modPair t j lpTrip) s1
    let s3 := setC s2 (646 + i) true (BitVec.ofNat 32 i)
    if max 1 (fld s3 .harpTripCfg_n_trip i) ≤ tget 0 s3.harp.tripCount i then tripLatch s3 i else s3

/-- The filtered input goes inactive: the condition of F_HARP_TRIPIN ends (R280, Table 11-5). -/
def tripRelease (s : State) (i : Nat) : State :=
  setC { s with harp := { s.harp with tripLive := s.harp.tripLive &&& ~~~(BitVec.ofNat 12 (2 ^ i)) } } (646 + i) false 0

/-- Asserted inputs that are no longer enabled are ignored from this boundary on (R161). -/
def tripDisabled (s : State) : State :=
  (below 12 fun i => s.harp.tripLive.getLsbD i && !flag s .harpTripCfg_enable i).foldl tripRelease s

/-- Clears the latch of trip channel i (R164); refused while the input is active. -/
def tripClear (s : State) (i : Nat) : State × Bool :=
  if !bitAt (fld0 s .harpTripSts_latched) i then (s, true)
  else if s.harp.tripLive.getLsbD i then (s, false)
  else (setC (setBit s .harpTripSts 0 i false) (658 + i) false 0, true)

/-- A W1C write of `latched` (R164). -/
def tripClearMask (s : State) (mask : Nat) : State :=
  (below 12 (bitAt mask)).foldl (fun t i =>
    let (u, ok) := tripClear t i
    if ok then u else setFld u .harpTripSts_clr_refused 0 1) s

/-- Trip windows that start at this boundary, local and cell-side (R163, R166). -/
def tripWindowsStart (s : State) : State :=
  let k := s.frame.k
  let tc := s.harp.tripCount.filter fun (i, _) => k % max 1 (fld s .harpTripCfg_win i) ≠ 0
  let cc := s.harp.ctripCount.filter fun (i, _) => k % max 1 (fld s .harpCtripCfg_win (i % 3)) ≠ 0
  { s with harp := { s.harp with tripCount := tc, ctripCount := cc } }

/-! ### Debug halt -/

/-- A halt request (R167); without permit it has no effect and is reported. -/
def harpHalt (s : State) : State × Bool :=
  if !s.harp.permit then (setFld s .harpDbgSts_refused 0 1, false)
  else
    let s1 := { s with harp := { s.harp with halted := true, resumeNext := false, gateAtHalt := lpGate s } }
    let s2 := if flag s1 .harpDbgCtl_halt_off 0 then (List.range 12).foldl forceOff s1 else s1
    (if flag s2 .harpDbgCtl_halt_park 0 then parkAll s2 else s2, true)

/-- A resume takes effect at the next boundary (R170). -/
def harpResume (s : State) : State :=
  if s.harp.halted then { s with harp := { s.harp with resumeNext := true } } else s

/-- The halt ends at this boundary: running pairs start a new carrier period. -/
def resumeBoundary (s : State) : State :=
  if s.harp.resumeNext then
    (List.range 12).foldl (fun t j => modPair t j fun x => { x with resume := x.running })
      { s with harp := { s.harp with halted := false, resumeNext := false } }
  else s

/-- What the Harp does at a frame boundary for pairs and trips. -/
def harpBoundary (s : State) : State :=
  (List.range 12).foldl lpFrame (resumeBoundary (tripWindowsStart (tripDisabled s)))

/-- A write to HARP_LP_PER (R159): arms the pair. -/
def lpPerWrite (s : State) (j v : Nat) : State :=
  modPair (putWord s .harpLpPer j (v % 2 ^ 24)) j fun x => { x with armed := true, perNext := some (lpPeriod (v % 2 ^ 24)) }

/-- A write to HARP_LP_DUTY (R159): completes an armed pair, else takes effect alone. -/
def lpDutyWrite (s : State) (j v : Nat) : State :=
  let on16 := v % 2 ^ 24 * 16 + bitsAt v 24 4
  modPair (putWord s .harpLpDuty j (v % 2 ^ 28)) j fun x =>
    if x.armed then { x with armed := false, perNext := none, next := some (x.perNext, on16) }
    else { x with next := match x.next with | some (p, _) => some (p, on16) | none => some (none, on16) }

/-- The instants that are left of a carrier period whose alignment changes at once (R15): the write falls at a free instant between the
pair's last edge and its next. -/
def lpRealign (s : State) (j : Nat) : State :=
  let x := getPair s j
  let t0 := match x.edge with | some (t, _, _) => (16 * t).toNat | none => 0
  let t1 := match x.sched with | (u, _) :: _ => u | [] => 16 * x.per
  let (v, s1) := drawBelow s (t1 - t0)
  let now := t0 + v
  let ev := lpEvents (flag s1 .harpLpCfg_centre j) x.per x.on16
  let ideal := match (ev.filter fun (u, _) => decide (u ≤ now)).getLast? with | some (_, b) => b | none => true
  modPair s1 j fun y => { y with sched := (now, ideal) :: ev.filter fun (u, _) => decide (now < u) }

/-- A write to HARP_LP_CFG, whose centre bit was `centre`: enable = 0 holds both outputs off; a changed alignment acts at once. -/
def lpCfgWrite (s : State) (j : Nat) (centre : Bool) : State :=
  if !flag s .harpLpCfg_enable j then lpStop s j
  else
    let x := getPair s j
    if x.running && !x.forced && flag s .harpLpCfg_centre j != centre then lpRealign s j else s

/-! ### Meanings -/

/-- R158: a carrier boundary of a running pair. -/
def execLpwmCarrierBoundary (pair : Pair) (s : State) : Host.Outcome State Fault Refusal :=
  onCore s fun s => if (getPair s pair).running && lpRuns s then lpBoundary s pair else s

/-- R158, R162: the next scheduled edge of a pair falls due. -/
def execLocalPwmEdge (pair : Pair) (s : State) : Host.Outcome State Fault Refusal :=
  onCore s fun s => if (getPair s pair).running && lpRuns s then modPair s pair (lpFire (outputsHeld s) (lpDt s pair) 4) else s

/-- R159: one carrier period after the arming write without a duty write. -/
def execLpwmPairTimeout (pair : Pair) (s : State) : Host.Outcome State Fault Refusal :=
  onCore s fun s =>
    if (getPair s pair).armed ∧ flag s .harpLpCfg_enable pair then
      raiseE (modPair s pair fun x => { x with armed := false, perNext := none }) (634 + pair) (BitVec.ofNat 32 pair)
    else s

/-- R162, R163. -/
def execTripInputAssert (input : Fin 12) (s : State) : Host.Outcome State Fault Refusal := onCore s fun s => tripAssert s input

/-- R164: the input may now be cleared. -/
def execTripInputRelease (input : Fin 12) (s : State) : Host.Outcome State Fault Refusal :=
  onCore s fun s => tripRelease { s with harp := { s.harp with tripRaw := s.harp.tripRaw &&& ~~~(BitVec.ofNat 12 (2 ^ input.val)) } } input

/-- R167: a halt requested through JTAG. -/
def execJtagHaltRequest (s : State) : Host.Outcome State Fault Refusal := onCore s fun s => (harpHalt s).1

/-- R169: DBG_PERMIT changes; `high` is its new level (the pin's rise has no row of its own). -/
def execDbgPermitFall (high : Bool) (s : State) : Host.Outcome State Fault Refusal :=
  onCore s fun s =>
    let t := { s with harp := { s.harp with permit := high } }
    if s.harp.permit && !high && s.harp.halted then raiseE t 682 0 else t

/-- R167: HARP_DBG_CTL.halt. -/
def execHarpDbgCtlHalt (s : State) : Host.Outcome State Fault Refusal := onCore s fun s => barWo s fun s => (harpHalt s).1

/-- R170: HARP_DBG_CTL.resume. -/
def execHarpDbgCtlResume (s : State) : Host.Outcome State Fault Refusal := onCore s fun s => barWo s harpResume

/-- R164: a W1C write of HARP_TRIP_STS.latched. -/
def execHarpTripStsClear (mask : BitVec 12) (s : State) : Host.Outcome State Fault Refusal :=
  onCore s fun s => tripClearMask s mask.toNat

/-- R159. -/
def execHarpLpPerWrite (pair : Pair) (value : Word) (s : State) : Host.Outcome State Fault Refusal :=
  onCore s fun s => lpPerWrite s pair value.toNat

/-- R159. -/
def execHarpLpDutyWrite (pair : Pair) (value : Word) (s : State) : Host.Outcome State Fault Refusal :=
  onCore s fun s => lpDutyWrite s pair value.toNat

end Sys2Proof.Machine
end

