-- ==== Sys2Proof/Machine/Power.lean ====
section
/-!
DEFINITION. Power states, wake, time across sleep, and the rail monitors (chapter 16).
-/
namespace Sys2Proof.Machine

def modPw (s : State) (f : Power → Power) : State := { s with power := f s.power }

/-- `PWR_STS.state`. -/
def powerCode (m : PowerMode) : Nat := match m with | .run => 0 | .idle => 1 | .cure => 2

/-- Event 0x7001. -/
def powerEvent (s : State) (src : Nat) : State := postEvent s 0x7001 (leB 1 (powerCode s.power.mode) ++ leB 1 src)

/-! ### IDLE (R393 to R395) -/

/-- Cell sources are held at live 0 from here on until each cell's first accepted uplink (R395). Time lock of the nodes is not known
again before their next heads. -/
def suppressCells (s : State) : State :=
  let cs := allCells s
  let s1 := modPw s fun x => { x with suppressed := cs }
  cs.foldl (fun t c =>
    let t1 := modLink t c fun x => { x with timeLocked := false, wasLocked := false }
    ((List.range 13) ++ [16]).foldl (fun u i => holdLow u (cellSrc c i)) t1) s1

/-- What R393 does to lanes, Press and pairs. -/
def quiet (s : State) : State :=
  let s1 := slabLanes.foldl laneIdle s
  suppressCells ((List.range 12).foldl forceOff s1)

/-- The RW fields of `PWR_CFG` and `PWR_WAKE_CFG` take effect at an entry or a wake (R406). -/
def takeCfg (s : State) : State := modPw s fun x => { x with cfg := rword s .pwrCfg 0, wakeCfg := rword s .pwrWakeCfg 0 }

/-- IDLE begins at the boundary after an accepted PWR_IDLE. -/
def enterIdle (s : State) : State :=
  if s.power.idleReq ∧ s.power.mode = .run then
    powerEvent (quiet (modPw (takeCfg s) fun x => { x with mode := .idle, idleReq := false })) 0
  else s

/-- Lanes leave electrical idle and pairs restart with a new carrier period. -/
def resume (s : State) : State :=
  let s1 := (List.range 28).foldl (fun t n => 
    let x := getLane t n
    if x.mode = .eidle then startAttempt t n false
    else if x.mode = .training then modLane t n fun x => { x with keepAlive := false } else t) s
  (List.range 12).foldl (fun t j => if (getPair t j).running then lpBoundary t j else t) s1

/-- IDLE ends at the boundary after PWR_RUN or a wake source; an aborted entry into CURE returns to the state it left,
which one that had not begun never left (R397). -/
def leaveIdle (s : State) : State :=
  match s.power.exitReq with
  | none => s
  | some 0 =>
    let s1 := modPw s fun x => { x with exitReq := none }
    powerEvent (if s1.power.mode = .run then resume (modPw s1 fun x => { x with lockWait := true }) else s1) s1.power.lastSrc
  | some 0xFF => powerEvent (modPw s fun x => { x with exitReq := none }) s.power.lastSrc
  | some c =>
    let s1 := modPw (takeCfg s) fun x => { x with exitReq := none }
    if s.power.mode = .idle then
      powerEvent (resume (modPw s1 fun x => { x with mode := .run, lockWait := true, lastSrc := c })) c
    else s1

/-- Branches of which a head of this frame reports a node in INIT or UNADDR. -/
def toRediscover (s : State) : List Nat :=
  (presentBrs s).filter fun b => (mapCells s b).any fun c => let x := getLink s c; x.gotUp && decide (x.nstate % 8 ≤ 1)

/-- After IDLE or CURE such branches are discovered again (R394); the wait ends with time lock. -/
def rediscover (s : State) (lost : List Nat) : State :=
  if !s.power.lockWait then s
  else if allLocked s then modPw s fun x => { x with lockWait := false }
  else lost.foldl (fun t b => if (getBr t b).disc = .done then startDisc t b else t) s

/-! ### CURE (R396 to R398) -/

/-- The boundary from which the entry proceeds: the actions of R393 where the device was in RUN. -/
def beginCure (s : State) : State :=
  if s.power.cureReq ∧ !s.power.entering then
    let s1 := modPw (takeCfg s) fun x => { x with
      entering := true
      from_ := x.mode
      ptpOn := flag s .stuPtpCfg_enable 0 }
    if s.power.mode = .run then quiet s1 else s1
  else s

/-- Bit of `src_mask` of a wake source code; PWR_RUN has none. -/
def srcBit (c : Nat) : BitVec 6 := if c = 0x20 then 0 else BitVec.ofNat 6 (2 ^ (if c < 6 then c - 1 else 5))

/-- A wake attempt begins: the sources pending at one Wax tick, of which the lowest code is recorded (R399, R401). A source during an
attempt, or with wake_fail set, is ignored; after a diode crossing it is held pending (R402). -/
def startWake (s : State) (codes : List Nat) : State :=
  if s.power.mode ≠ .cure ∨ codes.isEmpty ∨ s.power.wakeFail ∨ s.power.wakeStep.isSome then s
  else if s.power.holdOn then modPw s fun x => { x with held := x.held ++ codes }
  else
    let low := codes.foldl min (codes.headD 0)
    sendVout (modPw s fun x => { x with
      wakeStep := some 1
      attempts := 0
      lastSrc := low
      srcMask := codes.foldl (fun m c => m ||| srcBit c) 0
      held := [] }) (voltMv s.aff.vAck)

/-- A further source right behind one that wakes: whether it was pending at the same Wax tick is free. If so the lower code counts, and
both are in the mask; else it is ignored (R399, log entry 159). -/
def joinWake (s : State) (low c : Nat) (f : Power → Nat → Power) : State :=
  let (v, t) := drawBelow s 2
  if v = 1 then modPw t fun x => { f x (min low c) with srcMask := x.srcMask ||| srcBit c } else t

/-- A wake source of Table 16-2 in the present state: it wakes from CURE, or ends IDLE. -/
def wakeBy (s : State) (c : Nat) : State :=
  match s.power.mode with
  | .run => s
  | .idle =>
    if c = 2 ∨ c = 3 then s
    else match s.power.exitReq with
      | none => modPw s fun x => { x with exitReq := some c, srcMask := srcBit c }
      | some e => if e = 0x20 ∨ c = 0x20 ∨ e = 0 ∨ e = 0xFF then s else joinWake s e c fun x low => { x with exitReq := some low }
  | .cure =>
    if s.power.wakeStep = some 1 ∧ s.power.attempts = 0 ∧ !s.power.wakeFail then
      joinWake s s.power.lastSrc c fun x low => { x with lastSrc := low }
    else startWake s [c]

/-- The Wax domain is supplied, and no reset pin is low. -/
def waxRuns (s : State) : Bool := s.boot.aonUp && !s.boot.rstLow && !s.boot.porstLow

/-- Trip inputs that stand at their active level and may wake. -/
def tripWakes (s : State) : List Nat :=
  ((List.range 12).filter fun i => s.harp.tripRaw.getLsbD i && bitAt s.power.wakeCfg (4 + i)).map (0x10 + ·)

/-- Whether `WAKE_N` stands low at step 8: free once it has gone low, since no row tells its release (R397, log entry 158). -/
def wakeNLow (s : State) : Bool × State :=
  if s.power.wakeNSeen && bitAt s.power.wakeCfg 0 then let (v, t) := drawBelow s 2; (v == 1, t) else (false, s)

/-- Step 2 of R396: the staging buffers are flushed and the queued cycles go into the store, which the Cave then holds. -/
def flushStages (s : State) : State :=
  let t := s.aff.wear.foldl (fun u (i, _) => drainCycles u i) s
  { t with cave := { t.cave with trcStage := 0, logStage := 0 } }

/-- The entry completes, steps 2 to 8: staging is flushed, time freezes with the measured Wax frequency, lanes not needed for wake and clocks stop, 0.55 V is commanded, wake sources arm. -/
def enterCure (s : State) : State :=
  if !s.power.entering then s
  else
    let s0 := powerEvent (modPw (flushStages s) fun x => { x with mode := .cure, entering := false, cureReq := false }) 0
    let (t, s1) := instant s0
    let (v, s2) := drawBelow s1 (2 ^ 32)
    let ahead : Int := (4000000000 * s.power.alarmAt : Nat) - (t : Int)
    let passed := s.power.alarmAt != 0 && decide (ahead ≤ 0)
    let wakes := fun n => (n == 24 && bitAt s.power.wakeCfg 2) || (n == 25 && bitAt s.power.wakeCfg 3)
    let s3 := (List.range 28).foldl (fun u n => if (getLane u n).mode = .down ∨ wakes n then u else
      modLane u n fun x => { x with mode := .eidle, lock := false, eqHeld := true }) s2
    let s4 := modPw (modCk s3 fun x => { x with locked := false, onSafe := true, relock := .locking }) fun x => { x with
      t0 := t
      fW := v
      waxCal := v
      waxCnt := 0
      alarm := if s.power.alarmAt = 0 then 0 else (max 1 (rnd (ahead * (v : Int)) (4000000000 * 65536))).toNat
      ovCure := 0
      cureUv := 0
      holdOn := false
      wakeStep := none
      held := [] }
    let (low, s5) := wakeNLow s4
    startWake (sendVout s5 550) ((if low then [1] else []) ++ (if passed then [2] else []) ++ tripWakes s5)

/-! ### Wake attempts (R401, R402) -/

/-- An attempt fails: back to 0.55 V; after the second retry wake_fail stands. -/
def wakeFails (s : State) : State :=
  let n := s.power.attempts + 1
  sendVout (modPw s fun x => { x with
    attempts := min 3 n
    wakeFail := x.wakeFail || decide (3 ≤ n)
    wakeStep := if 3 ≤ n then none else some 3 }) 550

/-- What is left of the unit when its store is lost: what the store does not hold (R356). -/
def lostAff (s : State) : Aff :=
  { s.aff with
    wear := []
    plans := []
    seq := 0
    binsOld := []
    lastEpoch := 0
    hdDay := (0, 0)
    hdDayNo := 0
    hdMeans := []
    eol := 0
    capDay := 0
    proposed := false
    imgSend := none }

/-- Cave contents lost in CURE (R405): the trace ring and the event log are empty and the Affinage store is loaded anew. -/
def caveReload (s : State) : State :=
  if s.power.cureUv.toNat < 64 then s
  else
    let s1 := { s with cave := { s.cave with
      ring := []
      log := []
      spill := []
      eyes := []
      snapSlots := []
      src := 0
      logFirst := if s.cave.logAny then s.cave.logNew + 1 else s.cave.logFirst
      logAny := false
      mode := if s.cave.list.isEmpty then .stopped else .recording
      trigK := none
      firstRec := true } }
    match newerAff s1 with
    | some x => loadAff s1 x
    | none => { s1 with aff := lostAff s, cave := { s1.cave with bins := [] } }

/-- Station time restarts at t0 + N / f_w, and k so that R56 gives the next boundary (R403). Pulse edges that passed in CURE are lost as
at a forward step (R386, log entry 162). -/
def timeRestart (s0 : State) (n : Nat) : State :=
  let f := max 1 s0.power.waxCal
  let q := s0.power.t0 + n * 65536 * 4000000000 / f
  let s := modSt s0 fun x => { x with pulses := x.pulses.map (pulseStep q) }
  let T := tF s
  let k0 := cdiv ((q : Int) - s.frame.epoch).toNat T
  modFr (modSt s fun x => { x with time := s.power.t0 * 2 ^ 32 + n * 65536 * 4000000000 * 2 ^ 32 / f, cut := (0, 0) }) fun x => { x with
    k := k0 - 1
    ticks := ((s.frame.epoch + (k0 * T : Nat)) - (q : Int)).toNat
    snapped := true
    realign := false
    realignPrev := false
    realignAt := none
    running := true }

/-- Lanes train and every branch is discovered after a wake. -/
def wakeLanes (s : State) : State :=
  let s1 := (List.range 28).foldl (fun t n => modLane t n fun x => { x with
    mode := .down
    lock := false
    firstTry := true
    trained := false
    retry := false
    fails := 0
    eidleSeen := false }) s
  (presentBrs s1).foldl (fun t b => modBr t b fun x => { x with disc := .idle }) s1

/-- The Foster nodes of every switch restart at 0 K. -/
def fosterZero (s : State) : State :=
  { s with aff := { s.aff with wear := (s.aff.wear.map fun (i, w) => (i, { w with node := [0, 0, 0, 0] })).filter fun (_, w) =>
      w != Wear.zero } }

/-- What CURE does not retain: `SYS_COMMIT_STS` and `SYS_ERR` (R437). -/
def unretained (s : State) : State := putWord (putWord s .sysCommitSts 0 0) .sysErr 0 0

/-- The device is awake: RUN, safe clock, first lock, time, lanes, discovery; with retention lost, an internal reset instead. -/
def awake (s : State) (n : Nat) : State :=
  let s0 := modPw (takeCfg s) fun x => { x with
    mode := .run
    wakeStep := none
    waxCnt := n % 2 ^ 40
    wakeFail := x.wakeFail || x.cureUv.getLsbD 1
    lockWait := true }
  if s.power.cureUv.getLsbD 0 then internalReset s0 5 false
  else
    let s1 := caveReload (timeRestart (startRelock (unretained s0) (flag s0 .strCfg_ref_sel 0)) n)
    let s2 := if s.power.ptpOn then ptpFaults (setQuality s1 .holdover) else s1
    let s3 := suppressCells (wakeLanes (fosterZero { s2 with cave := { s2.cave with gapNext := true } }))
    let s4 := standingConds s3
    let s5 := powerEvent s4 s4.power.lastSrc
    let (t, s6) := instant s5
    logAndRing s6 0x9002 t false (leB 5 (n % 2 ^ 40)) []

/-- In CURE but for steps 1 and 2 of an attempt: 0.55 V, memory assist and reverse bias (Table 16-1, R401). -/
def deepSleep (s : State) : Bool := s.power.mode == .cure && s.power.wakeStep != some 1 && s.power.wakeStep != some 2

/-- Body bias in mV (Table 16-1): forward in RUN only. -/
def bodyBiasMv (s : State) : Int := if deepSleep s then -300 else if s.power.mode = .run then (25 * s.aff.fbb : Nat) else 0

/-! ### Wake frames (R400) -/

/-- A wake frame for port p, with its frame check sequence at the end. -/
def wakeFrameOk (s : State) (p : Nat) (l : List Byte) : Bool :=
  let tag := flag s .cmdUdpCfg_vlan_en 0
  let h := if tag then 16 else 12
  let body := l.take (l.length - 4)
  let pay := (body.drop (h + 2)).take 106
  let dst := l.take 6
  decide (64 ≤ l.length) && (dst == macB s p || dst == List.replicate 6 0xFF) &&
  (!tag || (byteAt l 12 == 0x81 && byteAt l 13 == 0)) &&
  byteAt l h == 0x08 && byteAt l (h + 1) == 0x42 &&
  pay == List.replicate 6 0xFF ++ (List.replicate 16 (macB s p)).flatten ++ leB 4 (rword s .pwrWakeKey 0) &&
  fieldAt l (l.length - 4) 4 == (crc32 body).toNat

/-! ### Rails (R404, R405) -/

/-- A monitored rail crosses a level: `above` its OV level or else its UV level; `beyond` it, or back. -/
def railCross (s : State) (r : Nat) (above beyond : Bool) : State :=
  let b : BitVec 9 := BitVec.ofNat 9 (2 ^ r)
  let put := fun (x : BitVec 9) => if beyond then x ||| b else x &&& ~~~b
  let s1 := modPw s fun x => if above then { x with ov := put x.ov } else { x with uv := put x.uv }
  if s.power.mode = .cure then
    if r = 2 ∨ r = 3 ∨ !beyond then s1
    else if above then modPw s1 fun x => { x with ovCure := x.ovCure ||| b }
    else modPw s1 fun x => { x with
      cureUv := x.cureUv ||| b
      railUv := x.railUv ||| b
      retLost := x.retLost || r == 0
      caveLost := x.caveLost || decide (6 ≤ r) }
  else setC s1 ((if above then 819 else 810) + r) beyond (BitVec.ofNat 32 r)

/-! ### Diodes in CURE (R313, R402) -/

/-- The Wax domain's 1 ms conversion: each crossing of 140 °C by a valid reading sets the shutdown latch, TRIP_N and cellar_hold, and
writes the record (the lowest-numbered diode where several cross: log entry 161). -/
def cureDiodes (s : State) (l : List Int) : State :=
  if s.power.mode ≠ .cure then s
  else
    let ok := fun j v => bitAt (fld0 s .cellarCfg_diode_en) j && decide (-880 ≤ v) && decide (v ≤ 2800)
    let rd := (List.range 4).map fun j => match l[j]? with | some v => if ok j v then some v else none | none => none
    let s1 := { s with cellar := { s.cellar with diode := rd } }
    match (List.range 4).find? fun j => 
        let hot := fun (x : Option Int) => match x with | some v => decide (2240 ≤ v) | none => false
        hot (rd.getD j none) && !hot (s.cellar.diode.getD j none) with
    | some j =>
      let s2 := shutdownRecord s1 ((rd.getD j none).getD 0) j true
      modPw { s2 with rind := { s2.rind with tripN := true } } fun x => { x with cellarHold := true, holdOn := true }
    | none => s1

/-- Every valid diode has stood below 100 °C for 10 ms: the held sources are released. -/
def releaseHold (s : State) : State :=
  if s.power.holdOn ∧ s.power.mode = .cure ∧ (validDiodes s).all (fun (_, v) => decide (v < 1600)) then
    startWake (modPw s fun x => { x with holdOn := false }) s.power.held
  else s

/-! ### Meanings -/

/-- A row of the Wax domain: the pins follow, and the core with them while it is clocked. -/
def onWax (s : State) (f : State → State) : Host.Outcome State Fault Refusal :=
  if waxRuns s then let t := f s; .next (if clocked t then settle t else updPins t) else .next s

/-- R313: the diodes in CURE. -/
def execCureDiodeCheck (readings : List Int) (s : State) : Host.Outcome State Fault Refusal := onWax s fun s => cureDiodes s readings

/-- R402: 10 ms below 100 °C in CURE. -/
def execCellarHoldRelease (s : State) : Host.Outcome State Fault Refusal := onWax s releaseHold

/-- R393: IDLE begins. -/
def execIdleEntry (s : State) : Host.Outcome State Fault Refusal := onCore s enterIdle

/-- R394: IDLE ends. -/
def execIdleExit (s : State) : Host.Outcome State Fault Refusal := onCore s leaveIdle

/-- R396: the entry into CURE that began at a frame boundary ends with step 8. -/
def execCureEntry (s : State) : Host.Outcome State Fault Refusal := onWax s fun s => if clocked s then enterCure s else s

/-- R399: `WAKE_N` low. -/
def execWakeNAssert (s : State) : Host.Outcome State Fault Refusal :=
  onWax s fun s =>
    let t := modPw s fun x => { x with wakeNSeen := true }
    if bitAt t.power.wakeCfg 0 then wakeBy t 1 else t

/-- R399: the Wax counter reaches the alarm. -/
def execWaxAlarm (s : State) : Host.Outcome State Fault Refusal := onWax s fun s => if s.power.alarm ≠ 0 then wakeBy s 2 else s

/-- R399: a PCIe receive lane leaves electrical idle. -/
def execPcieWake (s : State) : Host.Outcome State Fault Refusal :=
  onWax s fun s => if bitAt s.power.wakeCfg 1 then wakeBy s 3 else s

/-- R400: a wake frame on an enabled port. -/
def execWakeFrame (port : Fin 2) (bytes : List Byte) (s : State) : Host.Outcome State Fault Refusal :=
  onWax s fun s => if bitAt s.power.wakeCfg (2 + port) && wakeFrameOk s port bytes then wakeBy s (4 + port) else s

/-- R399: a trip input at its active level. -/
def execWakeTripInput (input : Fin 12) (s : State) : Host.Outcome State Fault Refusal :=
  onWax s fun s => if bitAt s.power.wakeCfg (4 + input) then wakeBy s (0x10 + input) else s

/-- R401: power-good; the oscillators are switched on. -/
def execPowerGood (s : State) : Host.Outcome State Fault Refusal :=
  onWax s fun s => if s.power.wakeStep = some 1 then modPw s fun x => { x with wakeStep := some 2 } else s

/-- R402: no power-good within 5 ms. -/
def execPowerGoodTimeout (s : State) : Host.Outcome State Fault Refusal :=
  onWax s fun s => if s.power.wakeStep = some 1 then wakeFails s else s

/-- R401: oscillator-ready, with the Wax ticks counted since t0. -/
def execOscillatorReady (ticks : Nat) (s : State) : Host.Outcome State Fault Refusal :=
  onWax s fun s => if s.power.wakeStep = some 2 then awake s ticks else s

/-- R402: no oscillator-ready within 20 ms. -/
def execOscillatorReadyTimeout (s : State) : Host.Outcome State Fault Refusal :=
  onWax s fun s => if s.power.wakeStep = some 2 then wakeFails s else s

/-- R402: 10 ms after a failed attempt. -/
def execWakeRetry (s : State) : Host.Outcome State Fault Refusal :=
  onWax s fun s => if s.power.wakeStep = some 3 then
      sendVout (modPw s fun x => { x with wakeStep := some 1 }) (voltMv s.aff.vAck)
    else s

/-- R404: a rail crosses a level. -/
def execRailCrossing (rail : Fin 9) (above : Bool) (crossed : Bool) (s : State) : Host.Outcome State Fault Refusal :=
  onWax s fun s => railCross s rail above crossed

/-- R403: a sleep that lasts until the counter wraps is a wake failure. -/
def execWaxCounterWrap (s : State) : Host.Outcome State Fault Refusal :=
  onWax s fun s => if s.power.mode = .cure then modPw s fun x => { x with wakeFail := true, wakeStep := none } else s

/-- R406: a read of PWR_WAX_CNT_LO latches the high part. -/
def execPwrWaxCntLoRead (s : State) : Host.Outcome State Fault Refusal :=
  onCore s fun s => readsOut (modPw s fun x => { x with cntHi := BitVec.ofNat 16 (x.waxCnt / 2 ^ 32) }) [BitVec.ofNat 32 s.power.waxCnt]

/-- R276, R278: a read of AFF_DIE_EOL_LO latches the high part. -/
def execAffDieEolLoRead (s : State) : Host.Outcome State Fault Refusal :=
  onCore s fun s =>
    readsOut { s with aff := { s.aff with eolHi := BitVec.ofNat 16 (s.aff.eol / 2 ^ 32) } } [BitVec.ofNat 32 s.aff.eol]

end Sys2Proof.Machine
end

