-- ==== Sys2Proof/Machine/Frame.lean ====
section
/-!
DEFINITION. The frame (chapter 02): what happens at a boundary, at the snapshot, and in the prepare phase.
-/
namespace Sys2Proof.Machine

/-! ### Sends at F(k) + 0 -/

/-- A lane carries traffic. -/
def laneLive (s : State) (n : Nat) : Bool := let m := (getLane s n).mode; m == .up || m == .degraded

/-- The D-MARKs of F(k) on every serving lane, and the relayed D-MARK while a segment is relayed (R107, Table 08-5). On the safe clock none
are sent (R374). -/
def sendDMarks (s : State) : State :=
  if standby s || s.clk.onSafe || s.power.mode != .run then s
  else
    let l := leB 1 (1 + 16 * fld0 s .twinCfg_end) ++ leB 1 s.frame.k ++ leB 4 0
    let ends := (presentBrs s).flatMap fun b => if (getBr s b).nb = 0 then [] else [(b, false), (b, true)]
    let own := ends.filter fun (b, e) =>
      laneLive s (2 * b + b2n e) && (match ownEnd s with | some o => o == e | none => true)
    let s1 := own.foldl (fun t (b, e) => send t (.lane (2 * b + b2n e) .mark (markB (laneCoding t (2 * b + b2n e)) l))) s
    if s1.frame.relayActive then
      let n := if (getLane s1 26).mode = .down then 27 else 26
      peerOut s1 .mark (markB (laneCoding s1 n) (leB 1 5 ++ l.drop 1))
    else s1

/-- ROLE every 64 frames from the holder of the token (R104); twin devices repeat it in every frame (R229). -/
def sendRoles (s : State) : State :=
  if s.twin.role = .off ∧ s.frame.k % 64 = 0 ∧ s.twin.epoch ≠ 0 ∧ s.power.mode = .run then sendRole s else s

/-- With the lockout latch set every lane carries PARK once each frame (R287). -/
def lockoutPark (s : State) : State :=
  if s.rind.lockout then (presentBrs s).foldl (fun t b => parkAllOf t b 4) s else s

/-- What leaves at F(k) + 0. -/
def frameSends (s : State) : State := twinSendsFrame (sendRoles (sendDMarks (lockoutPark s)))

/-! ### The boundary (R27, R36, R39) -/

/-- The frame that ends: carriers and edge times move on, the Affinage takes the frame, samples that a clock change spoiled pass. -/
def frameEnd (s : State) : State :=
  let s1 := harpFrameEnd (affFrame (countPeriods s))
  let s2 := (allCells s1).foldl (fun t c => modCtl t c fun x => { x with slotAge := min 0xFFFF (x.slotAge + 1) }) s1
  let skip := (s2.curd.sdSkip.map fun (i, n) => (i, n - 1)).filter fun (_, n) => n ≠ 0
  fallEvents { s2 with curd := { s2.curd with sdSkip := skip } }

/-- The first discovery of a branch starts once the training of its lanes after the start has ended (R417). -/
def firstDisc (s : State) (b : Nat) : State :=
  let settled := [2 * b, 2 * b + 1].all fun n =>
    let l := getLane s n
    !flag s .laneCfg_enable n || (!l.firstTry && !l.retry && l.mode != .training)
  let x := getBr s b
  if s.boot.ready ∧ x.disc = .idle ∧ x.nb = 0 ∧ s.power.mode = .run ∧ settled then startDisc s b else s

/-- Commits, the pin levels of this boundary, lanes and chains. -/
def boundaryLinks (s : State) : State :=
  let s1 := pinSamples (applyCommits s)
  let s2 := (presentBrs s1).foldl splitBoundary s1
  let go := s2.boot.ready && s2.power.mode != .cure
  let s3 := ((List.range 28).filter (lanePresent s2)).foldl (fun t n => codingBoundary go t n) s2
  (presentBrs s3).foldl (fun t b => firstDisc (discBoundary (codingAnnounce t b) b) b) s3

/-- Redundancy, modes and boot. -/
def boundaryModes (s : State) : State :=
  let s1 := (presentBrs s).foldl (fun t b => valleyAt (profileStage t b) b) s
  let s2 := (allCells s1).foldl (fun t c => restoreCheck (bypassCheck t c) c) (enterRun s1)
  dropRealign (bootBoundary (holdBusAfter (modeBoundary (holdBusBefore s2))))

/-- A start takes effect at this boundary: the modes as they are about to move say so. -/
def startHere (s : State) : Bool :=
  let t := boundaryModes s
  (s.mode.conv == .parked && t.mode.conv == .precharge) || !allParked t

/-- Time, clocks and PTP. -/
def boundaryTime (s : State) : State :=
  ptpBoundary (holdTimeEnd (vtuneBoundary (coreReturn (relockBoundary (stuBoundary (s.stu.step.isSome && startHere s) s)))))

/-- Twin, power states, the Affinage and the Cave. -/
def boundaryUnits (s : State) : State :=
  let s1 := followPeer (twinReady (calFrame (mirrorLate (swapBoundary s))))
  let s2 := resolve (beginCure (leaveIdle (enterIdle s1)))
  persistResume (traceBoundary (resumeEpoch (dueApplication (imageApply (hourBoundary s2)))))

/-- The instant figures of the frame that begins, and the budget. -/
def boundaryFigures (s : State) : State := budgetCheck (hopBoundary (snapFigures s))

/-- Everything that takes effect together at F(k). -/
def boundary (s : State) : State :=
  let s2 := boundaryModes (boundaryTime (boundaryLinks (nextFrame (frameEnd s))))
  frameSends (boundaryFigures (harpBoundary (boundaryUnits s2)))

/-- F(0): the count starts. Before the core has first run on the main PLL no frame is counted, and a lost lock is taken again; in
recovery no frame runs (R375, R416, R417). -/
def firstFrame (s : State) : State :=
  if s.clk.relock = .ready then coreReturn s
  else if s.clk.onSafe then relockBoundary s
  else if s.boot.stage = 3 then s
  else frameSends (boundaryFigures (harpBoundary (boundaryUnits (boundaryModes (boundaryTime (boundaryLinks (nextFrame s)))))))

/-- R36: a frame boundary. Outputs that `SYNC_IN` restarted have had their 16 cycles (R377). -/
def execFrameBoundary (s : State) : Host.Outcome State Fault Refusal :=
  onCore s fun s =>
    let s0 := modCk (clearTx s) fun x => { x with sync := [none, none, none, none] }
    if s0.frame.running then boundary s0 else firstFrame s0

/-! ### The snapshot (R43, R44) -/

/-- Host writes accepted before the snapshot take effect at it (R141). -/
def hostPoints (s : State) : State :=
  let s1 := s.curd.hostNext.foldl (fun t (pa, v) => putPt t pa v) s
  { s1 with curd := { s1.curd with hostNext := [] } }

/-- Intake: what the uplinks of the frame say of cells and chains. -/
def snapIntake (s : State) : State :=
  let lost := toRediscover s
  let s1 := (allCells s).foldl uplinkSnapshot (snapshotHygiene (hostPoints s))
  let s2 := (presentBrs s1).foldl (fun t b => discCheck (breakCheck t b) b) s1
  rediscover s2 lost

/-- The points are held as of this instant; the point trigger looks at them. -/
def holdSnapshot (s : State) : State :=
  pointTrigger { s with
    curd := { s.curd with snap := s.curd.points, snapK := s.frame.k }
    frame := { s.frame with snapped := true } }

/-- The departures `due`, then ranks, a rotation that falls on the next boundary, and the intake points of every branch. -/
def snapBranches (s : State) (due : List Nat) : State :=
  let s1 := departures s due
  let s2 := if standby s1 then s1 else (presentBrs s1).foldl (fun t b => intakeBranch (rotate (rankBranch t b) b) b) s1
  (allCells s2).foldl cellPlace s2

/-- The compute phase: the mode logic, which no gate stops (R244, R245, R393), then the Press, which is gated outside power state RUN. -/
def compute (s0 : State) : State :=
  let s := modeSnapshot s0
  if s.power.mode ≠ .run ∨ s.power.entering then pressGated s
  else
    let s1 := pressSlot s
    let s2 := if outputsHeld s1 then s1 else level1 (level1Checks s1)
    (presentBrs s2).foldl watchBranch s2

/-- R43: T_snap of the current frame. A fault decision that falls at this instant waits for the next one (R216). -/
def execFrameSnapshot (s : State) : Host.Outcome State Fault Refusal :=
  onCore s fun s =>
    if !s.frame.running || s.frame.snapped then s
    else compute (snapBranches (applyMirror (takeConv (holdSnapshot (snapIntake s)))) (decided s))

/-! ### The prepare phase (R45) -/

/-- R45: the end of the compute phase, as which the frame is recorded (R349) and the primary's mirror leaves (R225); then the prepare parts
run. -/
def execPreparePhase (s : State) : Host.Outcome State Fault Refusal :=
  onCore s fun s =>
    if !s.frame.snapped then s
    else
      let s1 := spillRecord (traceRecord (keepShadow s))
      if s1.power.mode ≠ .run ∨ s1.power.entering then s1 else level1Prepare (pressPrepare (sendImage (planAhead (sendMirror s1))))

end Sys2Proof.Machine
end

