-- ==== Sys2Proof/Machine/RegRead.lean ====
section
/-!
DEFINITION. What a read of BAR0 returns (R15, R17, R429, R430): the register file, with every read-only field whose value stands
elsewhere in the state laid over it, the Curd and Rind windows (R140, R302), and the read pairs that latch.
-/
namespace Sys2Proof.Machine

/-- The bits below n that satisfy p, as a number. -/
def maskOf (n : Nat) (p : Nat → Bool) : Nat := ((below n p).map (2 ^ ·)).sum

/-! ### Read-only fields that stand outside the register file -/

/-- Table 03-15: a lane's state code. -/
def laneCode (m : LaneMode) : Nat :=
  match m with | .down => 0 | .training => 1 | .up => 2 | .degraded => 3 | .eidle => 4

/-- Table 04-16: a branch's discovery code. -/
def discCode (d : Disc) : Nat :=
  match d with
  | .idle => 0 | .enumerating => 1 | .reading => 2 | .addressing => 3 | .acquiring => 4 | .done => 5 | .failed => 6

/-- `WL_BR_STS.topo`: unserved cells, else split feed, else a broken ring. -/
def topoCode (s : State) (b : Nat) : Nat :=
  let x := getBr s b
  if (mapCells s b).any fun c => !reached s c then 3 else if x.relay then 2 else if x.broken then 1 else 0

/-- Largest |e| of the last exchanges, and its cell (Table 04-18). -/
def worstTime (s : State) : Nat × Nat :=
  (allCells s).foldl (fun (w, c0) c => let e := (absI (getLink s c).terr).toNat; if w < e then (e, c) else (w, c0)) (0, 0)

/-- Input points that are stale, or frozen, now, as they read (R124, Table 05-12); none before the first snapshot could judge them. -/
def hygCount (s : State) (p : Point → Bool) : Nat :=
  let cells := allCells s
  let seen := (cells.flatMap fun c => (List.range 61).map (cellPa c)) ++ (List.range 49).map stPa
  let absent := if p { Point.zero with stale := true, age := 255 } then 61 * (576 - cells.length) else 0
  if s.frame.running then min 0xFFFF (absent + (seen.filter fun pa => p (seePt s pa)).length) else 0

def traceCode (m : TraceMode) : Nat := match m with | .stopped => 0 | .recording => 1 | .post => 2 | .frozen => 3

def qualityCode (q : Quality) : Nat := match q with | .free => 0 | .acquiring => 1 | .locked => 2 | .holdover => 3 | .set => 4

def queueCode (m : QMode) : Nat := match m with | .disabled => 0 | .active => 1 | .error => 2 | .resetting => 3

def cellarCode (m : CellarMode) : Nat := match m with | .normal => 0 | .warn => 1 | .shed => 2 | .shutdown => 2

/-- Source bits 32w to 32w + 31 of a property. -/
def srcWord (s : State) (w : Nat) (p : Src → Bool) : Nat := maskOf 32 fun j => p (getSrc s (32 * w + j))

/-- Any sticky of cell c. -/
def cellSticky (s : State) (c : Nat) : Bool := s.rind.src.any fun (n, x) => decide (1152 + 32 * c ≤ n) && decide (n < 1184 + 32 * c) && x.sticky

/-- Some application or epoch work waits (R273, R248). -/
def affDeferred (s : State) : Bool := s.aff.deferred || s.mode.planDue || s.cellar.mode == .shed

/-- The utcOffset of the slave port's master. -/
def utcNow (s : State) : Nat × Bool :=
  match slavePort s with
  | some p => match s.stu.masters.getD p none with | some m => (m.utc.toNat, m.utcValid) | none => (0, false)
  | none => (0, false)

/-- System, STU and Starter registers. -/
def roSystem (s : State) (r : RegName) (i : Nat) : List (Fld × Nat) :=
  match r with
  | .sysStrap => [(.sysStrap_raw, s.boot.straps.toNat)]
  | .sysBootSts =>
    [(.sysBootSts_stage, s.boot.stage), (.sysBootSts_ready, b2n s.boot.ready), (.sysBootSts_slot, b2n s.boot.slot),
     (.sysBootSts_fallback, b2n s.boot.fallback), (.sysBootSts_cfg_loaded, b2n s.boot.cfgLoaded),
     (.sysBootSts_map_loaded, b2n s.boot.mapLoaded), (.sysBootSts_rwu_loaded, b2n s.boot.rwuLoaded),
     (.sysBootSts_hb_starts, min 3 (recentStarts s).length), (.sysBootSts_ready_ms, min 0xFFFF s.boot.readyMs)]
  | .sysRstSts =>
    let b := fun i => b2n (s.boot.rstSts.getLsbD i)
    [(.sysRstSts_por, b 0), (.sysRstSts_porst, b 1), (.sysRstSts_rst_pin, b 2), (.sysRstSts_cmd, b 3), (.sysRstSts_cellar, b 4),
     (.sysRstSts_ret_lost, b 5)]
  | .sysCfgPending => [(.sysCfgPending_pending, pendingBlocks s / 2)]
  | .sysCommitSts => [(.sysCommitSts_applying, maskOf 13 fun n => applyingBlock s (n + 1) || (n == 0 && s.frame.lenPending.isSome))]
  | .stuFrmSts =>
    [(.stuFrmSts_t_snap, s.frame.tsnap), (.stuFrmSts_h_max, s.frame.hMax), (.stuFrmSts_relay_active, b2n s.frame.relayActive),
     (.stuFrmSts_budget_fail, b2n (s.frame.budgetNext != 0)), (.stuFrmSts_len_pending, b2n s.frame.lenPending.isSome)]
  | .stuFrmArr => [(.stuFrmArr_worst_arrival, s.frame.worstArrival), (.stuFrmArr_late_tails, s.frame.lateTails)]
  | .stuFrmCntLo => [(.stuFrmCntLo_cnt_lo, s.frame.k)]
  | .stuFrmCntHi => [(.stuFrmCntHi_cnt_hi, s.frame.cntHi.toNat)]
  | .stuFrmEpochS => [(.stuFrmEpochS_epoch_s_lo, ux 32 (s.frame.epoch / 4000000000))]
  | .stuFrmEpochNs =>
    [(.stuFrmEpochNs_epoch_s_hi, s.frame.epochSHi.toNat), (.stuFrmEpochNs_epoch_ns_hi, s.frame.epochNs / 2 ^ 16)]
  | .stuFrmEpochNsl => [(.stuFrmEpochNsl_epoch_ns_lo, s.frame.epochNs)]
  | .stuFrmPhase => [(.stuFrmPhase_phase_err, ux 32 s.frame.phaseErr)]
  | .stuTimeSHi => [(.stuTimeSHi_s_hi, s.stu.timeLatch.1.toNat)]
  | .stuTimeNs => [(.stuTimeNs_ns, s.stu.timeLatch.2.toNat), (.stuTimeNs_q, s.stu.timeLatch.2.toNat / 2 ^ 30)]
  | .stuRate => [(.stuRate_y, ux 32 s.stu.y)]
  | .stuOffset => [(.stuOffset_o, ux 32 (clampI (-(2 ^ 31)) (2 ^ 31 - 1) (rnd s.stu.offset 4)))]
  | .stuPtpDly => [(.stuPtpDly_dly, ux 32 (rnd s.stu.dly 4))]
  | .stuPtpSts =>
    let (utc, valid) := utcNow s
    [(.stuPtpSts_quality, qualityCode s.stu.quality), (.stuPtpSts_port, (slavePort s).getD 3), (.stuPtpSts_frame_peer, b2n (standby s)),
     (.stuPtpSts_utc_offset, utc), (.stuPtpSts_utc_valid, b2n valid), (.stuPtpSts_unstamped, min 0x1FF s.stu.unstamped)]
  | .stuTpCfg => [(.stuTpCfg_pending, b2n ((s.stu.pulses.getD i ⟨0, 0, 0, none, none⟩).next.isSome))]
  | .stuCapSLo => [(.stuCapSLo_s_lo, (capWords s i).1.toNat)]
  | .stuCapSHi =>
    let w := (s.stu.capLatch.getD i (0, 0)).1.toNat
    [(.stuCapSHi_s_hi, w), (.stuCapSHi_count, w / 2 ^ 16)]
  | .stuCapNs =>
    let w := (s.stu.capLatch.getD i (0, 0)).2.toNat
    [(.stuCapNs_ns, w), (.stuCapNs_q, w / 2 ^ 30)]
  | .strSts =>
    [(.strSts_locked, b2n s.clk.locked), (.strSts_on_safe, b2n s.clk.onSafe), (.strSts_relocking, b2n (relocking s)),
     (.strSts_refuse_code, s.clk.refuseCode), (.strSts_band, s.clk.band), (.strSts_entry, s.clk.entry),
     (.strSts_ref_in_use, b2n s.clk.refUse), (.strSts_vtune_warn, b2n s.clk.vtune)]
  | .strNw => [(.strNw_nw, s.clk.nw)]
  | .strNwLock => [(.strNwLock_nw_lock, s.clk.nwLock)]
  | _ => []

/-- Lane, Whey link, Curd and Harp registers. -/
def roStation (s : State) (r : RegName) (i : Nat) : List (Fld × Nat) :=
  match r with
  | .laneSts =>
    let x := getLane s i
    let (h, w) := x.eye.getD (0, 0)
    [(.laneSts_state, laneCode x.mode), (.laneSts_lock, b2n x.lock), (.laneSts_coding_active, b2n (laneCoding s i)),
     (.laneSts_sig_det, b2n x.sig), (.laneSts_eb_fill, if !x.lock then 0 else if laneCoding s i then x.rx.fill * 2 / 3 else x.rx.fill),
     (.laneSts_eye_h, h), (.laneSts_eye_w, w)]
  | .laneEyeCtl => [(.laneEyeCtl_busy, b2n (getLane s i).scan.isSome)]
  | .wlBrSts =>
    let x := getBr s i
    [(.wlBrSts_n_b, x.nb), (.wlBrSts_split, x.split), (.wlBrSts_topo, topoCode s i),
     (.wlBrSts_break_pos, if x.broken then x.breakLo else 63), (.wlBrSts_disc, discCode x.disc),
     (.wlBrSts_locked, ((mapCells s i).filter fun c => (getLink s c).timeLocked).length)]
  | .wlDiscCtl => [(.wlDiscCtl_busy, maskOf 12 (discBusy s))]
  | .wlTimeSts =>
    let (e, c) := worstTime s
    [(.wlTimeSts_worst_err, min 0xFFFF e), (.wlTimeSts_worst_cell, c), (.wlTimeSts_all_locked, b2n (allLocked s))]
  | .curdSdSts => [(.curdSdSts_stuck, s.curd.stuck.toNat)]
  | .curdHygSts => [(.curdHygSts_stale_pts, hygCount s (·.stale)), (.curdHygSts_frozen_pts, hygCount s (·.frozen))]
  | .harpProfSts =>
    [(.harpProfSts_invalid, b2n (!s.harp.invalid.isEmpty)), (.harpProfSts_words_max, s.harp.wordsMax)]
  | .harpLpSts =>
    let x := getPair s i
    [(.harpLpSts_armed, b2n x.armed), (.harpLpSts_forced_off, b2n x.forced),
     (.harpLpSts_a_level, b2n ((lpOut s i).1 != flag s .harpLpCfg_pol_a i)), (.harpLpSts_b_level, b2n ((lpOut s i).2 != flag s .harpLpCfg_pol_b i))]
  | .harpTripSts => [(.harpTripSts_live, s.harp.tripLive.toNat)]
  | .harpDbgSts => [(.harpDbgSts_halted, b2n s.harp.halted), (.harpDbgSts_permit, b2n s.harp.permit)]
  | _ => []

/-- Press, Cheddaring, twin, mode, Affinage, Rind and Cellar registers. -/
def roControl (s : State) (r : RegName) (i : Nat) : List (Fld × Nat) :=
  match r with
  | .pressSts =>
    [(.pressSts_active_bank, b2n s.press.activeB), (.pressSts_swap_pending, b2n s.press.swapPending),
     (.pressSts_copy_busy, b2n s.press.copyBusy), (.pressSts_cfg_pending, b2n (applyingBlock s 6)),
     (.pressSts_refuse_code, s.press.refuseCode)]
  | .pressLoadSlot => [(.pressLoadSlot_cost, min 0xFFFF s.press.cost), (.pressLoadSlot_cost_max, min 0xFFFF s.press.costMax)]
  | .pressLoadPrep => [(.pressLoadPrep_prep, min 0xFFFFF s.press.prepLoad)]
  | .chedBrSts =>
    let n := fun x => (roleCells s i x).length
    [(.chedBrSts_n_act, n .inserted), (.chedBrSts_spares, n .spare), (.chedBrSts_bypassed, redF s i), (.chedBrSts_rho, (getBc s i).rho),
     (.chedBrSts_exhausted, b2n (decide (redK s i < redF s i))), (.chedBrSts_isolating, b2n (decide (n .isolating ≠ 0)))]
  | .twinSts =>
    [(.twinSts_role, twinCode s), (.twinSts_epoch, s.twin.epoch), (.twinSts_peer0, b2n (peerUp s false)),
     (.twinSts_peer1, b2n (peerUp s true)), (.twinSts_cal_valid, b2n s.twin.calValid), (.twinSts_hb_miss, min 2 s.twin.hbMiss),
     (.twinSts_cfg_match, b2n (s.twin.peerDigest == some (cfgDigest s)))]
  | .twinOffset => [(.twinOffset_theta, ux 32 s.twin.theta)]
  | .modeSts =>
    [(.modeSts_conv, convCode s.mode.conv), (.modeSts_formed, b2n s.mode.formed), (.modeSts_rt, b2n s.mode.rt),
     (.modeSts_deferred, b2n s.mode.deferred), (.modeSts_pending, b2n (applyingBlock s 8)),
     (.modeSts_refuse_code, s.mode.refuseCode), (.modeSts_armed, maskOf 12 fun b => (getBc s b).armed)]
  | .modeEff => [(.modeEff_eff, s.mode.eff.toNat)]
  | .modeLvEff => [(.modeLvEff_lv, s.mode.lvEff.toNat)]
  | .affSts =>
    [(.affSts_busy, b2n s.aff.busy), (.affSts_proposed, b2n s.aff.proposed), (.affSts_deferred, b2n (affDeferred s)),
     (.affSts_at_risk, ((allCells s).filter fun c => (getPlan s c).unreach).length)]
  | .affPlanSeq => [(.affPlanSeq_seq, s.aff.seq)]
  | .affDieSts =>
    [(.affDieSts_margin_min, s.aff.marginMin), (.affDieSts_v_code, s.aff.vAck),
     (.affDieSts_fbb, if s.power.mode = .run then s.aff.fbb else 0), (.affDieSts_worst_mon, s.aff.worstMon),
     (.affDieSts_pmbus_fail, b2n s.aff.pmbusFail)]
  | .affDieEolLo => [(.affDieEolLo_eol_lo, s.aff.eol)]
  | .affDieEolHi => [(.affDieEolHi_eol_hi, s.aff.eolHi.toNat)]
  | .rindSts =>
    [(.rindSts_lockout, b2n s.rind.lockout), (.rindSts_trip_n, b2n (!s.rind.tripN)), (.rindSts_safe_n, b2n (!s.rind.safeN)),
     (.rindSts_standing, standing s)]
  | .rindFirst =>
    match s.rind.first with
    | some (n, c) => [(.rindFirst_index, n), (.rindFirst_class, c), (.rindFirst_valid, 1)]
    | none => []
  | .rindLockRec => [(.rindLockRec_index, s.rind.lockRec.toNat), (.rindLockRec_k_lo, s.rind.lockRec.toNat / 2 ^ 15)]
  | .rindSticky => [(.rindSticky_sticky, srcWord s i (·.sticky))]
  | .rindLive => [(.rindLive_live, srcWord s i (·.live))]
  | .rindForce => [(.rindForce_force, srcWord s i (·.force))]
  | .rindCellAny => [(.rindCellAny_any, maskOf 32 fun j => cellSticky s (32 * i + j))]
  | .cellarSts =>
    let x := s.cellar
    [(.cellarSts_t_c, ux 16 x.tC), (.cellarSts_hot_node, x.hot), (.cellarSts_state, cellarCode x.mode),
     (.cellarSts_diode_ok, maskOf 4 fun j => (diodeRead s j).isSome), (.cellarSts_mismatch, b2n (getSrc s 800).live),
     (.cellarSts_sd_latch, b2n x.sdLatch), (.cellarSts_clk_fb, b2n x.clkFb)]
  | .cellarNode => [(.cellarNode_temp, ux 16 (s.cellar.temp.getD i 0)), (.cellarNode_power, min 0xFFFF (s.cellar.power.getD i 0))]
  | .cellarDiode =>
    let v : Nat := match diodeRead s i with
      | some t => ux 16 t
      | none => if s.cellar.seen.getLsbD i then 0x8000 else 0
    [(.cellarDiode_reading, v), (.cellarDiode_model, ux 16 (s.cellar.diodeModel.getD i 0))]
  | .cellarBase => [(.cellarBase_t_base, ux 16 (asr s.cellar.base 16))]
  | .cellarPeak => [(.cellarPeak_peak, ux 16 s.cellar.peak)]
  | .cellarSdRec =>
    [(.cellarSdRec_temp, ux 16 s.cellar.sdTemp), (.cellarSdRec_where, s.cellar.sdWhere), (.cellarSdRec_diode, b2n s.cellar.sdDiode),
     (.cellarSdRec_count, min 0x7FF s.cellar.sdCount)]
  | .cellarSdTimeLo => [(.cellarSdTimeLo_s_lo, s.cellar.sdTime)]
  | .cellarSdTimeHi => [(.cellarSdTimeHi_s_hi, s.cellar.sdTimeHi.toNat)]
  | _ => []

/-- Command, Vat, Cave and power registers. -/
def roHost (s : State) (r : RegName) (i : Nat) : List (Fld × Nat) :=
  match r with
  | .cmdQSts =>
    let x := getQ s i
    [(.cmdQSts_state, queueCode x.mode), (.cmdQSts_sq_head, x.sqHead), (.cmdQSts_cq_tail, x.cqTail), (.cmdQSts_busy, b2n (executing s i)),
     (.cmdQSts_err, x.err)]
  | .cmdEvSts => let x := getRing s i; [(.cmdEvSts_tail, x.tail), (.cmdEvSts_dropped, x.dropped)]
  | .cmdSts =>
    let b := fun i => b2n (s.cmd.sts.getLsbD i)
    [(.cmdSts_bar_refused, b 0), (.cmdSts_q_error, b 1), (.cmdSts_lock_broken, b 2), (.cmdSts_restarted, b 3),
     (.cmdSts_locks, s.cmd.locks.length)]
  | .cmdIntPendLo => [(.cmdIntPendLo_pend, maskOf 32 (vecPend s))]
  | .cmdIntPendHi => [(.cmdIntPendHi_pend, maskOf 10 fun v => vecPend s (32 + v))]
  | .msixPba => [(.msixPba_pba, s.cmd.pba.toNat / 2 ^ (32 * i))]
  | .vatLoss =>
    [(.vatLoss_loss, min 0xFFFF (getVat s (i / 16) (vatReqAt s (i / 16) (i % 16))).loss), (.vatLoss_wait_max, min 0xFFFF (tget 0 s.cave.waitMax i))]
  | .vatGrant => [(.vatGrant_grants, tget 0 s.cave.grants i)]
  | .caveTrcSts =>
    [(.caveTrcSts_state, traceCode s.cave.mode), (.caveTrcSts_src, s.cave.src), (.caveTrcSts_sel_pending, b2n s.cave.listNext.isSome),
     (.caveTrcSts_armed, b2n (s.cave.arm.any fun a => a.2.2.1 != 0)), (.caveTrcSts_ignored, s.cave.ignored)]
  | .caveTrcDepth => [(.caveTrcDepth_depth, traceDepth s.cave.list.length)]
  | .caveLogNew => [(.caveLogNew_newest, s.cave.logNew.toNat)]
  | .caveLogOvr => [(.caveLogOvr_ovr, s.cave.logOvr)]
  | .caveLogLost => [(.caveLogLost_lost, s.cave.logLost)]
  | .caveEccSts => [(.caveEccSts_sbe, tget 0 s.cave.sbe i)]
  | .caveDbeAddr => [(.caveDbeAddr_addr, tget 0 s.cave.dbe i)]
  | .cavePersSts =>
    [(.cavePersSts_busy, b2n s.cave.persist.isSome), (.cavePersSts_copy, s.cave.persCopy), (.cavePersSts_days, min 0xFFFF s.cave.persDays)]
  | .pwrSts =>
    [(.pwrSts_state, powerCode s.power.mode), (.pwrSts_entering, b2n s.power.entering),
     (.pwrSts_waking, b2n (s.power.wakeStep.isSome || s.power.exitReq.isSome)), (.pwrSts_last_src, s.power.lastSrc)]
  | .pwrWaxSts =>
    let x := s.power
    [(.pwrWaxSts_wake_fail, b2n x.wakeFail), (.pwrWaxSts_alert, b2n (x.wakeFail || x.cellarHold)),
     (.pwrWaxSts_cellar_hold, b2n x.cellarHold), (.pwrWaxSts_rail_uv, x.railUv.toNat), (.pwrWaxSts_cave_lost, b2n x.caveLost),
     (.pwrWaxSts_ret_lost, b2n x.retLost), (.pwrWaxSts_src_mask, x.srcMask.toNat), (.pwrWaxSts_attempts, x.attempts)]
  | .pwrWaxCal => [(.pwrWaxCal_f_w, s.power.waxCal)]
  | .pwrWaxCntLo => [(.pwrWaxCntLo_n_lo, s.power.waxCnt)]
  | .pwrWaxCntHi => [(.pwrWaxCntHi_n_hi, s.power.cntHi.toNat)]
  | .pwrAlarmLo => [(.pwrAlarmLo_alarm_lo, s.power.alarm)]
  | .pwrAlarmHi => [(.pwrAlarmHi_alarm_hi, s.power.alarm / 2 ^ 32)]
  | .pwrRailSts =>
    [(.pwrRailSts_uv, maskOf 9 fun n => (getSrc s (810 + n)).live), (.pwrRailSts_ov, maskOf 9 fun n => (getSrc s (819 + n)).live)]
  | _ => []

/-- The fields of a register laid over the register file. -/
def roFields (s : State) (r : RegName) (i : Nat) : List (Fld × Nat) :=
  roSystem s r i ++ roStation s r i ++ roControl s r i ++ roHost s r i

/-- Lays field values over a word. -/
def layOver (w : Nat) (l : List (Fld × Nat)) : Nat := l.foldl (fun w (f, v) => putBits w f.spec.lo f.spec.width v) w

/-- Readable word of register r[i]: shadows for RWS fields, 0 for WO fields (Table 00-5), 0 for an element of an absent branch
(R430). -/
def readWord (s : State) (r : RegName) (i : Nat) : Nat :=
  if regPresent s r i then
    let w := shadowWord s r i
    layOver (w - (w &&& r.mask (· == .wo))) (roFields s r i)
  else 0

/-! ### Reads of BAR0 -/

/-- A register read: the two-word reads latch their other words (Tables 02-10, 02-11, 15-11, 15-15, 16-7, 10-10, 12-8). -/
def readReg (s : State) (r : RegName) (i : Nat) : Word × State :=
  match r with
  | .stuFrmCntLo => frmCntRead s
  | .stuFrmEpochS => frmEpochRead s
  | .stuTimeSLo => timeRead s
  | .stuCapSLo => capRead s i
  | .pwrWaxCntLo =>
    (BitVec.ofNat 32 s.power.waxCnt, { s with power := { s.power with cntHi := BitVec.ofNat 16 (s.power.waxCnt / 2 ^ 32) } })
  | .affDieEolLo => (BitVec.ofNat 32 s.aff.eol, { s with aff := { s.aff with eolHi := BitVec.ofNat 16 (s.aff.eol / 2 ^ 32) } })
  | .cellarSdTimeLo =>
    (BitVec.ofNat 32 s.cellar.sdTime,
      { s with cellar := { s.cellar with sdTimeHi := BitVec.ofNat 16 (s.cellar.sdTime / 2 ^ 32) } })
  | _ => (BitVec.ofNat 32 (readWord s r i), s)

/-- A point and its status in one word (R125, R140). -/
def pointWord (s : State) (pa : Nat) : Nat := let p := seePt s pa; p.val.toNat + 2 ^ 16 * statusW p

/-- A word of the Rind window at byte offset o (R302). -/
def rindWindow (s : State) (o : Nat) : Nat :=
  if o < 0x99000 then fieldAt (recordB (getSrc s (o / 32))) (o % 32) 4
  else
    let c := (o - 0x99000) / 16
    let p : Src → Bool := match (o - 0x99000) / 4 % 4 with | 0 => (·.sticky) | 1 => (·.live) | 2 => (·.force) | _ => (·.latch)
    maskOf 32 fun j => p (getSrc s (cellSrc c j))

/-- One 32-bit read of BAR0: registers, windows, and 0 elsewhere (R17, R427, R428). -/
def readBar (s : State) (a : Nat) : Word × State :=
  match regAt a with
  | some (r, i) => readReg s r i
  | none =>
    if a % 4 ≠ 0 then (0, s)
    else if 0x100000 ≤ a ∧ a < 0x224000 then (BitVec.ofNat 32 (pointWord s ((a - 0x100000) / 4)), s)
    else if 0x300000 ≤ a ∧ a < 0x39B400 then (BitVec.ofNat 32 (rindWindow s (a - 0x300000)), s)
    else (0, s)

/-- Consecutive reads from a, oldest first. -/
def readWords (s : State) (a : Nat) : Nat → List Word × State
  | 0 => ([], s)
  | n + 1 =>
    let (w, t) := readBar s a
    let (l, u) := readWords t (a + 4) n
    (w :: l, u)

end Sys2Proof.Machine
end

