-- ==== Sys2Proof/Machine/Queue.lean ====
section
/-!
DEFINITION. The command queues (R325 to R327): their states, doorbells, errors, and the restart of the command processor (R342).
-/
namespace Sys2Proof.Machine

/-- The commands of queue q that a restart abandons: the one in execution and those ready. -/
def outstanding (s : State) (q : Nat) : List Packet :=
  ((s.cmd.waits.filter (·.queue = q)).map (·.packet)) ++ (getQ s q).ready.map (·.2)

/-- What a queue loses when its enable is cleared: ready commands, the replay store, an SPI completion, its drop count (R343). -/
def qEmpty (s : State) (q : Nat) (mode : QMode) : State :=
  let s1 := modQ s q fun x => { x with mode := mode, ready := [], replay := [], spi := none }
  setFld (setFld s1 .cmdQDrop_drops q 0) .cmdQCfg_enable q 0

/-- Queue q is waiting for a lock. -/
def lockWait (s : State) (q : Nat) : Option Waiting :=
  s.cmd.waits.find? fun w => w.queue = q && (match w.wait with | .lock _ _ => true | _ => false)

/-- enable set to 0 (Table 13-6). A queue that only waits for a lock has no effect to keep: the wait is given up at once. -/
def qDisable (s : State) (q : Nat) : State :=
  let m := (getQ s q).mode
  if m = .disabled ∨ m = .resetting then s
  else
    let s1 := match lockWait s q with | some w => unwait s w | none => s
    if executing s1 q then qEmpty (breakLocks s1 q 1) q .resetting
    else qEmpty (discardQueue (breakLocks s1 q 1) q) q .disabled

/-- enable set to 1 (Table 13-6, R325). -/
def qEnable (s : State) (q : Nat) : State :=
  let n := fld s .cmdQCfg_size q
  if (getQ s q).mode ≠ .disabled then s
  else if 2 ≤ n ∧ n ≤ 4096 ∧ rword s .cmdSqBaseLo q % 64 = 0 ∧ rword s .cmdCqBaseLo q % 16 = 0 ∧ fld s .cmdQCfg_transport q ≠ 3 then
    let s1 := setFld (setFld (setFld s .cmdQCfg_enable q 1) .cmdSqTail_tail q 0) .cmdCqHead_head q 0
    modQ s1 q fun x => { x with mode := .active, sqHead := 0, cqTail := 0, phase := true, err := 0 }
  else modQ (setFld s .cmdQCfg_enable q 0) q fun x => { x with err := 1 }

/-- A write of `CMD_Q_CFG[q]` (Table 13-27): transport and size are taken only while enable is 0. -/
def qCfgWrite (s : State) (q w : Nat) : State :=
  let s1 := setFld s .cmdQCfg_int_en q (bitsAt w 3 1)
  let s2 := if flag s .cmdQCfg_enable q then s1
    else setFld (setFld s1 .cmdQCfg_transport q (bitsAt w 1 2)) .cmdQCfg_size q (bitsAt w 4 13)
  if bitAt w 0 then qEnable s2 q else qDisable s2 q

/-- A write of a submission tail (R325, R326). -/
def sqTailWrite (s : State) (q w : Nat) : State :=
  let t := bitsAt w 0 12
  if (getQ s q).mode = .active ∧ queueSize s q ≤ t then qError s q 4 else setFld s .cmdSqTail_tail q t

/-- A write of a completion head: it may move only over entries the TB576 has written (R326). -/
def cqHeadWrite (s : State) (q w : Nat) : State :=
  let t := bitsAt w 0 12
  let n := queueSize s q
  let h := fld s .cmdCqHead_head q
  let x := getQ s q
  if x.mode = .active ∧ (n ≤ t ∨ (x.cqTail + n - h) % n < (t + n - h) % n) then qError s q 4 else setFld s .cmdCqHead_head q t

/-- A restart of the command processor (R342): queues and locks only; what the abandoned commands began goes on by itself. -/
def procRestart (s : State) : State :=
  let one := fun (t : State) q =>
    let x := getQ t q
    if x.mode = .disabled then t
    else
      let aborted := (outstanding t q).filter fun p => p.transport ≠ 0
      let t1 := { t with cmd := { t.cmd with waits := t.cmd.waits.filter (·.queue ≠ q) } }
      let t2 := modQ t1 q fun x => { x with ready := [] }
      if x.mode = .resetting then modQ t2 q fun x => { x with mode := .disabled }
      else qError (aborted.foldl (fun u p => finishSt u p stAborted) t2) q 5
  let s1 := (List.range 32).foldl one s
  { s1 with cmd := { s1.cmd with sts := s1.cmd.sts ||| 8 } }

/-- A PCIe hot or link-down reset (Table 17-1): every PCIe-bound queue becomes DISABLED. -/
def pcieReset (s : State) : State :=
  (List.range 32).foldl (fun t q => if fld t .cmdQCfg_transport q = 0 then qDisable t q else t) s

/-- The PCIe link comes up or goes down; F_PCIE_LINK is live while it is not up. -/
def pcieLink (s : State) (up : Bool) : State :=
  let s1 := setC { s with cmd := { s.cmd with link := up } } 908 (!up) 0
  if up then s1 else pcieReset s1

/-- The wait of a lock request ends without a grant (R334). -/
def lockWaitEnds (s : State) (q : Nat) : State :=
  match lockWait s q with
  | some w =>
    match w.wait with
    | .lock key _ =>
      match otherLock s q key with
      | some l => finish (unwait s w) w.packet stLockHeld l.queue []
      | none => s
    | _ => s
  | none => s

/-- A lock expires once hold_ms have passed since its owner's last overlapping command, unless the owner has a command in execution
(R336). The instant lies in the present frame. -/
def lockExpires (s : State) (q : Nat) (key : LockKey) : State :=
  match s.cmd.locks.find? fun l => l.queue = q && l.key = key with
  | some l => if l.since + l.hold * 4000000 < nowQ s + s.frame.ticks ∧ !executing s q then breakLock s l 0 else s
  | none => s

/-! ### Meanings -/

/-- R325: a submission tail doorbell. -/
def execCmdSqTailDoorbell (queue : Fin 32) (value : Word) (s : State) : Host.Outcome State Fault Refusal :=
  onCore s fun s => sqTailWrite s queue value.toNat

/-- R326: a completion head write. -/
def execCmdCqHeadWrite (queue : Fin 32) (value : Word) (s : State) : Host.Outcome State Fault Refusal :=
  onCore s fun s => cqHeadWrite s queue value.toNat

/-- R327: a write of CMD_Q_CFG[q]. -/
def execCmdQCfgEnable (queue : Fin 32) (value : Word) (s : State) : Host.Outcome State Fault Refusal :=
  onCore s fun s => qCfgWrite s queue value.toNat

/-- R407: a PCIe hot reset. -/
def execPcieHotReset (s : State) : Host.Outcome State Fault Refusal := onCore s pcieReset

/-- R342: the PCIe link state. -/
def execPcieLinkState (up : Bool) (s : State) : Host.Outcome State Fault Refusal := onCore s fun s => pcieLink s up

/-- R334: a lock wait ends. -/
def execLockWaitTimeout (queue : Fin 32) (s : State) : Host.Outcome State Fault Refusal := onCore s fun s => lockWaitEnds s queue

/-- R336: a lock expires. -/
def execLockExpiry (queue : Fin 32) (depth : Fin 4) (num : Nat) (s : State) : Host.Outcome State Fault Refusal :=
  onCore s fun s => lockExpires s queue ⟨depth, num⟩

/-- R342: the lockstep cores disagree. -/
def execLockstepMismatch (s : State) : Host.Outcome State Fault Refusal := onCore s fun s => procRestart (raiseE s 906 0)

/-- R342: no progress for 10 ms. -/
def execCommandWatchdogExpiry (s : State) : Host.Outcome State Fault Refusal := onCore s fun s => procRestart (raiseE s 907 0)

/-- R347: a patrol read; lost firmware data restart the command processor (Table 14-2). -/
def execCavePatrolRead (chan : Fin 2) (burst : Nat) (uncorrectable : Bool) (corrected : Bool) (s : State) :
    Host.Outcome State Fault Refusal :=
  onCore s fun s =>
    let t := patrolRead s chan burst uncorrectable corrected
    if uncorrectable && fwBurst burst then procRestart t else t

end Sys2Proof.Machine
end

