-- ==== Sys2Proof/Machine/RegWrite.lean ====
section
/-!
DEFINITION. What a write of BAR0 does (R15, R17, R337, R429): the plain part of a register (RW, RWU and W1C fields), its shadow (RWS)
and its triggers (WO), each write of a field acting as the chapter of its register says.
-/
namespace Sys2Proof.Machine

/-- A write of `CMD_EV_CFG[e]`: a ring that is disabled is emptied, one that is enabled starts at 0 (R328, R343). -/
def evCfgWrite (s : State) (e w : Nat) : State :=
  let was := flag s .cmdEvCfg_enable e
  let s1 := putWord s .cmdEvCfg e (w % 2 ^ 28)
  if was != bitAt w 0 then modRing (setFld s1 .cmdEvHead_head e 0) e fun _ => EvRing.zero else s1

/-- W1C of `PWR_WAX_STS`. -/
def waxClear (s : State) (w : Nat) : State :=
  let s1 := { s with power := { s.power with
    wakeFail := s.power.wakeFail && !bitAt w 0
    cellarHold := s.power.cellarHold && !bitAt w 2
    railUv := s.power.railUv &&& ~~~(BitVec.ofNat 9 (w / 8))
    caveLost := s.power.caveLost && !bitAt w 12
    retLost := s.power.retLost && !bitAt w 13 } }
  if bitAt w 0 then setC s1 828 false 0 else s1

/-- RW and RWU bits take the value written, W1C bits written 1 clear. -/
def plainBits (s : State) (r : RegName) (i w : Nat) : State :=
  let c := blend (r.mask fun a => a == .rw || a == .rwu) w (rword s r i)
  putWord s r i (c - (c &&& (r.mask (· == .w1c) &&& w)))

/-- The plain part of a write. -/
def writePlain (s : State) (r : RegName) (i w : Nat) : State :=
  match r with
  | .harpTripSts => tripClearMask (if bitAt w 24 then setFld s .harpTripSts_clr_refused 0 0 else s) (w % 4096)
  | .rindSticky => stickyWord s i w
  | .rindForce => forceWord s i w
  | .rindCfg => writeInj s (bitAt w 0)
  | .cellarSts => if bitAt w 27 then setC { s with cellar := { s.cellar with sdLatch := false } } 801 false 0 else s
  | .cmdSts => { s with cmd := { s.cmd with sts := s.cmd.sts &&& ~~~(BitVec.ofNat 4 w) } }
  | .sysRstSts => modBo s fun x => { x with rstSts := x.rstSts &&& ~~~(BitVec.ofNat 6 w) }
  | .pwrWaxSts => waxClear s w
  | .cmdQCfg => qCfgWrite s i w
  | .cmdSqTail => sqTailWrite s i w
  | .cmdCqHead => cqHeadWrite s i w
  | .harpLpPer => lpPerWrite s i w
  | .harpLpDuty => lpDutyWrite s i w
  | .harpLpCfg => lpCfgWrite (plainBits s r i w) i (flag s .harpLpCfg_centre i)
  | .cmdEvCfg => evCfgWrite s i w
  | .rindHostwdCfg => let t := plainBits s r i w; { t with rind := { t.rind with wdK := t.frame.k } }
  | _ => plainBits s r i w

/-- Does the WO bits of a write. -/
def writeTriggers (s : State) (r : RegName) (i w : Nat) : State :=
  let on := fun b (f : State → State) (t : State) => if bitAt w b then f t else t
  match r with
  | .sysCommit => commitMask s w
  | .sysBootCtl => on 0 (fun t => if t.boot.stage = 2 ∧ bootSrc t ≠ 0 then modBo t fun x => { x with go := true } else t) s
  | .stuTpCfg => on 2 (fun t => (armPulse t i).1) s
  | .laneEyeCtl =>
    on 1 (fun t => modLane t i fun x => { x with scan := none })
      (on 0 (fun t => if (getLane t i).scan.isSome then t else startScan t i) s)
  | .laneCntClr => laneCntClr s (w % 2 ^ 28)
  | .wlDiscCtl => (below 12 (bitAt w)).foldl startDisc s
  | .wlCntClr => (below 12 (bitAt w)).foldl clearWlCounts s
  | .harpDbgCtl => on 1 harpResume (on 0 (fun t => (harpHalt t).1) s)
  | .pressCtl =>
    on 2 (fun t => (commitBlock t 6).1)
      (on 1 (fun t => if bankBusy t then t else bankCopy t) (on 0 (fun t => if bankBusy t then t else (bankCommit t).1) s))
  | .twinCfg => on 9 (fun t => if calAllowed t then startCal t else t) (on 8 (fun t => (startSwap t).1) s)
  | .twinCntClr => on 0 clearTwinCounts s
  | .modeCtl =>
    let s1 := on 2 (fun t => (hostStop t).1) (on 1 (fun t => (hostStart t).1) (on 0 (fun t => (commitBlock t 8).1) s))
    (below 12 fun b => bitAt w (16 + b)).foldl (fun t b => (hostRestart t b).1) s1
  | .affCtl => on 2 startEpoch (on 1 rejectPlan (on 0 acceptPlan s))
  | .rindHostwdKick => hostKick s (w % 256)
  | .cellarPeak => on 31 (fun t => { t with cellar := { t.cellar with peak := t.cellar.tC } }) s
  | .vatCtl => on 0 commitVat s
  | .vatCntClr =>
    let keep := fun (t : Tbl Nat) => t.filter fun (n, _) => !bitAt w (n / 16)
    modCv s fun x => { x with waitMax := keep x.waitMax, grants := keep x.grants }
  | _ => s

/-- Registers exempt from R337: the command block and `RIND_HOSTWD_KICK`. -/
def lockExempt (r : RegName) : Bool := r == .rindHostwdKick || r.addr r.place.first / 65536 == 0xD

/-- A write of register r[i]: on the host's direct paths (`direct`) RWS fields and WO fields are ignored while any queue holds a lock
(R337). A write of 0 to a WO field triggers nothing and is not refused. `owner` is the queue of a command's write. -/
def writeReg (direct : Bool) (owner : Option Nat) (s : State) (r : RegName) (i w : Nat) : State :=
  if !regPresent s r i then s
  else
    let wo := r.mask (· == .wo) &&& w
    let held := direct && !s.cmd.locks.isEmpty && !lockExempt r
    let t := if (r.mask fun a => a == .rw || a == .rwu || a == .w1c) = 0 then s else writePlain s r i w
    if held then if rwsMask r i = 0 ∧ wo = 0 then t else { t with cmd := { t.cmd with sts := t.cmd.sts ||| 1 } }
    else
      let u := if rwsMask r i = 0 then t else putShadow t r i w owner
      if r.mask (· == .wo) = 0 then u else writeTriggers u r i w

/-- One 32-bit write of BAR0: a register, the boot window, or an address where it is ignored (R17, R140, R302, R428). -/
def writeBar (direct : Bool) (owner : Option Nat) (s : State) (a w : Nat) : State :=
  match regAt a with
  | some (r, i) => writeReg direct owner s r i w
  | none => if a % 4 = 0 ∧ 0x1000000 ≤ a ∧ a < 0x1800000 then bootWindow s ((a - 0x1000000) / 4) w else s

/-- R15: a BAR0 write; without all four byte enables it is ignored and sets SYS_ERR.partial (R429). -/
def execRegisterWrite (addr : Nat) (value : Word) (full : Bool) (s : State) : Host.Outcome State Fault Refusal :=
  onCore s fun s => if full then writeBar true none s addr value.toNat else setFld s .sysErr_partial 0 1

end Sys2Proof.Machine
end

