-- ==== Sys2Proof/Machine/Transport.lean ====
section
/-!
DEFINITION. How commands arrive (chapter 13): the fetch of a submission entry (R324, R326), datagrams with their replay store (R329,
R330), the ARP and ICMP responders, and the SPI host port (R331).
-/
namespace Sys2Proof.Machine

/-! ### Packets -/

/-- Bytes as 32-bit words; a last part word is filled with zeros. -/
def wordsOf : Nat → List Byte → List Word
  | 0, _ => []
  | n + 1, l => if l.isEmpty then [] else BitVec.ofNat 32 (leN (l.take 4)) :: wordsOf n (l.drop 4)

/-- All words of a byte list. -/
def allWords (l : List Byte) : List Word := wordsOf (l.length / 4 + 1) l

/-- The packet that a header and its parameters spell (Table 13-1), with its opcode. -/
def packetOf (transport : Fin 3) (reply : Nat) (h params : List Byte) : Half × Packet :=
  (BitVec.ofNat 16 (fieldAt h 0 2),
   { transport := transport
     flags := BitVec.ofNat 8 (byteAt h 2)
     queue := BitVec.ofNat 8 (byteAt h 3)
     tag := BitVec.ofNat 16 (fieldAt h 4 2)
     length := BitVec.ofNat 16 (fieldAt h 6 2)
     scope := BitVec.ofNat 16 (fieldAt h 8 2)
     replyMax := BitVec.ofNat 16 (fieldAt h 10 2)
     crc := BitVec.ofNat 32 (fieldAt h 12 4)
     params := allWords params
     reply := reply })

/-- A command joins the commands of its queue that wait for the processor. -/
def enqueue (s : State) (q : Nat) (x : Half × Packet) : State := modQ s q fun y => { y with ready := y.ready ++ [x] }

/-- A packet that names another queue than the one that carries it fails check 1 of R318 on the queue that carries it. -/
def wrongQueue (s : State) (q : Nat) (p : Packet) : State := finishSt s { p with queue := BitVec.ofNat 8 q } stBadHeader

/-! ### PCIe (R324, R326) -/

/-- The processor fetches the next entry of queue q: it is ACTIVE on PCIe, holds a submitted entry and a free completion entry, and has
no earlier command still to end. -/
def mayFetch (s : State) (q : Nat) : Bool :=
  let x := getQ s q
  x.mode == .active && fld s .cmdQCfg_transport q == 0 && x.sqHead != fld s .cmdSqTail_tail q && cqRoom s q && x.ready.isEmpty &&
  !executing s q

/-- A fetched entry: inline parameters beyond the 40 bytes of an entry read as zeros, for the length check to refuse. A byte after the
entry that is not 0 says that the host does not take this command's reply and completion. -/
def fetched (s : State) (q : Nat) (e : List Byte) (ind : Option (List Byte)) : State :=
  let s1 := modQ s q fun x => { x with sqHead := (x.sqHead + 1) % queueSize s q }
  let n := fieldAt e 6 2
  let far := bitAt (byteAt e 2) 1
  let params := if far then padB n (ind.getD []) else padB n ((e.drop 16).take 40)
  let (op, p) := packetOf 0 (fieldAt e 56 9) e (params.take (n / 4 * 4))
  if p.queue.toNat ≠ q then wrongQueue s1 q p
  else if far ∧ ind.isNone then finishSt s1 p stDma
  else enqueue s1 q (op, p)

/-! ### UDP (R329, R330) -/

/-- Command datagrams are taken on port p. -/
def udpOn (s : State) (p : Nat) : Bool :=
  fld s .cmdEthIp_ip p != 0 && flag s (if p = 0 then .cmdUdpCfg_en_p0 else .cmdUdpCfg_en_p1) 0

/-- A datagram is dropped and counted. -/
def dropped (s : State) (q : Nat) : State := countFld s .cmdQDrop_drops q

/-- Queue q accepts a datagram from an address (R330). -/
def udpAccepts (s : State) (q ip : Nat) : Bool :=
  let x := getQ s q
  let peer := rword s .cmdUdpPeer q
  x.mode == .active && fld s .cmdQCfg_transport q == 1 && (peer == 0 || peer == ip) && decide (x.ready.length < queueSize s q)

/-- A datagram of queue q arrives from a source: whether it is taken, and the state after that. -/
def udpArrives (s : State) (q p mac ip port : Nat) : Bool × State :=
  if !udpOn s p then (false, s)
  else if udpAccepts s q ip then (true, modQ s q fun y => { y with peer := some (p, mac, ip, port) })
  else (false, dropped s q)

/-- The stored answer to a datagram of the same tag and CRC (R330). -/
def replayOf (s : State) (k : Packet) : Option Done :=
  if k.transport = 1 then (getQ s k.queue.toNat).replay.find? fun d => d.tag = k.tag ∧ d.crc = k.crc else none

/-- Sends a stored answer to the source of the datagram that repeats its request. -/
def sendReplay (s : State) (k : Packet) (d : Done) : State :=
  send s (.udp (k.reply % 2) (k.reply / 2 ^ 49) (k.reply / 2 ^ 17 % 2 ^ 32) (k.reply / 2 % 65536) d.bytes)

/-- A command datagram: the payload of a UDP datagram that R329 takes, and its source. -/
def datagram (s : State) (p mac ip port : Nat) (l : List Byte) : State :=
  let q := byteAt l 3
  if decide (l.length < 16) || decide (32 ≤ q) then s
  else
    let (op, k) := packetOf 1 (Packet.source p mac ip port) l (l.drop 16)
    match udpArrives s q p mac ip port with
    | (true, t) =>
      match replayOf t k with
      | some d => sendReplay t k d
      | none => enqueue t q (op, k)
    | (false, t) => t

/-! ### UDP framing, ARP and ICMP echo (Table 13-9); the layouts are those of their standards -/

/-- Table 13-9, but for the destination port: an untagged frame, or one with the VLAN of `CMD_UDP_CFG`; IPv4 and UDP as `udpOk` asks;
the port's address. `h` is the IPv4 and UDP header, `l` what follows. -/
def udpHeadOk (s : State) (p : Nat) (vlan : Option Nat) (h l : List Byte) : Bool :=
  vlan == (if flag s .cmdUdpCfg_vlan_en 0 then some (fld0 s .cmdUdpCfg_vlan) else none) &&
  udpOk h l && beAt h 16 4 == fld s .cmdEthIp_ip p

/-- A UDP datagram arrives on port p: one for `CMD_UDP_CFG.port` that Table 13-9 supports is a command datagram. Any other is discarded
(log entry 154). -/
def udpIn (s : State) (p mac : Nat) (vlan : Option Nat) (h l : List Byte) : State :=
  if udpHeadOk s p vlan h l && beAt h 22 2 == fld0 s .cmdUdpCfg_port then
    datagram s p mac (beAt h 12 4) (beAt h 20 2) (l.take (beAt h 24 2 - 8))
  else s

/-- An ARP request for the port's address is answered. -/
def arpIn (s : State) (p : Nat) (l : List Byte) : State :=
  let ip := fld s .cmdEthIp_ip p
  match ethPayload s 0x0806 l with
  | none => s
  | some a =>
    if ip ≠ 0 ∧ 28 ≤ a.length ∧ a.take 8 = netB 2 1 ++ netB 2 0x0800 ++ netB 1 6 ++ netB 1 4 ++ netB 2 1 ∧ beAt a 24 4 = ip then
      let sha := (a.drop 8).take 6
      send s (.eth p (padB 60 (ethB s p sha 0x0806 ++ (a.take 6 ++ netB 2 2 ++ macB s p ++ netB 4 ip ++ sha ++ (a.drop 14).take 4))))
    else s

/-- An ICMP echo request for the port's address is answered; the identification and time to live of the answer are free. -/
def icmpIn (s : State) (p : Nat) (l : List Byte) : State :=
  let ip := fld s .cmdEthIp_ip p
  match ethPayload s 0x0800 l with
  | none => s
  | some d =>
    let n := beAt d 2 2
    let m := (d.take n).drop 20
    let even := if m.length % 2 = 0 then m else m ++ [0]
    if ip ≠ 0 ∧ byteAt d 0 = 0x45 ∧ 28 ≤ n ∧ n ≤ d.length ∧ beAt d 6 2 % 0x4000 = 0 ∧ byteAt d 9 = 1 ∧ inetSum (d.take 20) = 0 ∧
        beAt d 16 4 = ip ∧ byteAt m 0 = 8 ∧ byteAt m 1 = 0 ∧ inetSum even = 0 then
      let (id, s1) := drawBelow s 65536
      let (ttl, s2) := drawBelow s1 256
      let head := fun c => netB 1 0x45 ++ [d.getD 1 0] ++ netB 2 n ++ netB 2 id ++ netB 2 0 ++ netB 1 ttl ++ netB 1 1 ++ netB 2 c ++
        netB 4 ip ++ (d.drop 12).take 4
      let body := fun c => netB 2 0 ++ netB 2 c ++ m.drop 4
      let pad := fun (x : List Byte) => if x.length % 2 = 0 then x else x ++ [0]
      let f := ethB s p ((l.drop 6).take 6) 0x0800 ++ head (inetSum (head 0)) ++ body (inetSum (pad (body 0)))
      send s2 (.eth p (padB (max 60 f.length) f))
    else s

/-! ### SPI (R331) -/

/-- The SPI host port is enabled, and the queue that it serves. -/
def spiOn (s : State) : Bool := flag s .cmdSpiCfg_enable 0
def spiQueue (s : State) : Nat := fld0 s .cmdSpiCfg_queue

/-- The queue is bound to SPI and ACTIVE. -/
def spiServes (s : State) : Bool :=
  spiOn s && (getQ s (spiQueue s)).mode == .active && fld s .cmdQCfg_transport (spiQueue s) == 2

/-- A packet arrives for the SPI queue: ignored and counted while a command of the queue is outstanding or its completion not yet
fetched. -/
def spiArrives (s : State) : Bool × State :=
  let q := spiQueue s
  if !spiServes s then (false, s)
  else if executing s q || !(getQ s q).ready.isEmpty || (getQ s q).spi.isSome then (false, dropped s q)
  else (true, s)

/-- SUBMIT: one packet. -/
def spiSubmit (s : State) (l : List Byte) : State :=
  let q := spiQueue s
  match spiArrives s with
  | (true, t) =>
    let (op, p) := packetOf 2 0 l (l.drop 16)
    if p.queue.toNat ≠ q then wrongQueue t q p else enqueue t q (op, p)
  | (false, t) => t

/-- A packet arrives on its transport as a row of its opcode: whether it is taken (R326, R330, R331), and the state after that. -/
def arrives (s : State) (p : Packet) : Bool × State :=
  let q := p.queue.toNat
  match p.transport.val with
  | 0 => (fld s .cmdQCfg_transport q == 0 && cqRoom s q, s)
  | 1 => udpArrives s q (p.reply % 2) (p.reply / 2 ^ 49) (p.reply / 2 ^ 17 % 2 ^ 32) (p.reply / 2 % 65536)
  | _ => if q = spiQueue s then spiArrives s else (false, s)

/-- FETCH: the bytes clocked out, one in each word read, and the completion consumed after 17 of them. -/
def spiFetch (s : State) (clocked : Nat) : State :=
  let q := spiQueue s
  if !spiOn s then s
  else
    let out : List Byte := match (getQ s q).spi with | some l => (1 : Byte) :: l | none => [0]
    let s1 := readsOut s ((out.take clocked).map fun b => b.setWidth 32)
    if 17 ≤ clocked then modQ s1 q fun x => { x with spi := none } else s1

/-! ### Meanings -/

/-- R326: a submission entry is fetched; `entry` none: the fetch fails. Indirect parameters wait for the queue's
host DMA (Table 14-6). -/
def execCommandFetch (queue : Fin 32) (entry : Option (List Byte)) (ind : Option (List Byte)) (s : State) :
    Host.Outcome State Fault Refusal :=
  onCore s fun s =>
    if !mayFetch s queue then s
    else match entry with
      | none => qError s queue 2
      | some e =>
        if bitAt (byteAt e 2) 1 && vatStarving s (hostDma queue) then s else fetched s queue (padB 65 e) ind

/-- R329, R330: a UDP datagram from a MAC address, with its VLAN, its IPv4 and UDP headers, and what follows them. -/
def execUdpDatagram (port : Fin 2) (mac : Nat) (vlan : Option Nat) (head : List Byte) (bytes : List Byte) (s : State) :
    Host.Outcome State Fault Refusal :=
  onCore s fun s => udpIn s port mac vlan head bytes

/-- R329: an ARP request. -/
def execArpRequest (port : Fin 2) (bytes : List Byte) (s : State) : Host.Outcome State Fault Refusal :=
  onCore s fun s => arpIn s port bytes

/-- R329: an ICMP echo request. -/
def execIcmpEchoRequest (port : Fin 2) (bytes : List Byte) (s : State) : Host.Outcome State Fault Refusal :=
  onCore s fun s => icmpIn s port bytes

/-- R331: SPI SUBMIT. -/
def execSpiSubmit (bytes : List Byte) (s : State) : Host.Outcome State Fault Refusal := onCore s fun s => spiSubmit s bytes

/-- R331: SPI FETCH. -/
def execSpiFetch (clocked : Nat) (s : State) : Host.Outcome State Fault Refusal := onCore s fun s => spiFetch s clocked

/-- R331: SPI REG_READ; the address counts words. -/
def execSpiRegRead (addr : BitVec 24) (words : Nat) (s : State) : Host.Outcome State Fault Refusal :=
  onCore s fun s => if spiOn s then let (l, t) := readWords s (4 * addr.toNat) words; readsOut t l else s

/-- R331: SPI REG_WRITE, with the effect of BAR0 writes. -/
def execSpiRegWrite (addr : BitVec 24) (words : List Word) (s : State) : Host.Outcome State Fault Refusal :=
  onCore s fun s =>
    if spiOn s then
      (List.range words.length).foldl (fun t j => writeBar true none t (4 * (addr.toNat + j)) (words.getD j 0).toNat) s
    else s

end Sys2Proof.Machine
end

