-- ==== Sys2Proof/Machine/Command.lean ====
section
/-!
DEFINITION. How one command runs (R316 to R322, R333 to R336): when its turn comes, the checks of R318 in their order, and the locks its
target meets.
-/
namespace Sys2Proof.Machine

/-! ### Scopes (R6 to R10, R317) -/

/-- The kinds of scope of Table 13-2. -/
inductive ScopeKind where
  | station | phase | branch | cell | switch | bypass
deriving DecidableEq, Repr

/-- A scope: its kind, its number (phase, global branch, global cell), and the switch. -/
structure CmdScope where
  kind : ScopeKind
  num : Nat
  sw : Nat
deriving DecidableEq, Repr

/-- The scope a header names; none where R10 refuses it. -/
def cmdScope (s : State) (w : Nat) : Option CmdScope :=
  let p := bitsAt w 0 2
  let br := bitsAt w 2 2
  let c := bitsAt w 4 6
  let sel := bitsAt w 12 4
  let b := 4 * p + br
  if bitsAt w 10 2 ≠ 0 then none
  else if sel = 15 then if br ≠ 0 ∨ c ≠ 0 then none else if p = 3 then some ⟨.station, 0, 0⟩ else some ⟨.phase, p, 0⟩
  else if p = 3 ∨ !brPresent s b then none
  else if sel = 14 then if c ≠ 0 then none else some ⟨.branch, b, 0⟩
  else if 47 < c ∨ !(getLink s (48 * b + c)).inMap then none
  else if sel = 13 then some ⟨.cell, 48 * b + c, 0⟩
  else if sel = 12 then some ⟨.bypass, 48 * b + c, 0⟩
  else some ⟨.switch, 48 * b + c, sel⟩

/-- The lock key of a scope; a switch and the bypass device lie in their cell. -/
def CmdScope.key (x : CmdScope) : LockKey :=
  match x.kind with
  | .station => ⟨0, 0⟩
  | .phase => ⟨1, x.num⟩
  | .branch => ⟨2, x.num⟩
  | _ => ⟨3, x.num⟩

/-- Number of the header's scope. -/
def scopeNum (s : State) (p : Packet) : Nat := match cmdScope s p.scope.toNat with | some x => x.num | none => 0

/-- Lock key of the header's scope. -/
def headerKey (s : State) (p : Packet) : List LockKey := match cmdScope s p.scope.toNat with | some x => [x.key] | none => []

/-- The station as a target. -/
def stationTarget (_ : State) (_ : Packet) : List LockKey := [stationKey]

/-- A reads-only command has no target. -/
def noTarget (_ : State) (_ : Packet) : List LockKey := []

/-! ### Parameters -/

/-- Parameter word i. -/
def pw (p : Packet) (i : Nat) : Nat := (p.params.getD i 0).toNat

/-- n words, no more and no less. -/
def words (n : Nat) (l : List Word) : Bool := l.length == n

/-- w0 counts items of `per` words after it, from lo to hi of them. -/
def counted (lo hi per : Nat) (l : List Word) : Bool :=
  let n := (l.getD 0 0).toNat
  decide (lo ≤ n) && decide (n ≤ hi) && l.length == 1 + per * n

/-- The parameters from word i on, as bytes. -/
def paramBytes (p : Packet) (i : Nat) : List Byte := (p.params.drop i).flatMap fun w => leB 4 w.toNat

/-! ### The rows of the opcode tables -/

/-- What checks 3 to 7 of R318 need of an opcode: accepted scope kinds, length, mark L, whether a standby refuses it (R322), whether
HOLD-BUS does (R424), its lock targets (R335). -/
structure OpRule where
  op : Nat
  kinds : List ScopeKind := [.station]
  lenOk : List Word → Bool := words 0
  lockout : List Word → Bool := fun _ => false
  standby : Bool := false
  holdBus : List Word → Bool := fun _ => false
  targets : State → Packet → List LockKey := noTarget

/-- The recovery set (R416). -/
def recoveryOps : List Nat := [0x0101, 0x0102, 0x0103, 0x0104, 0x0106, 0x0107, 0x0108]

/-- What the status queue accepts (R419). -/
def statusOps : List Nat := [0x0102, 0x0103, 0x0310, 0x0311, 0x0401, 0x0604, 0x0805, 0x0807, 0x0808, 0x0901, 0x0B01, 0x0B04]

/-- Parameters that the transport can carry (R324, Table 13-9). -/
def sizeOk (s : State) (p : Packet) : Bool :=
  if p.transport = 0 then bitAt p.flags.toNat 1 || decide (p.params.length ≤ 10)
  else if p.transport = 1 then decide (4 * p.params.length ≤ udpLimit s)
  else true

/-- The header's scope is of a kind the opcode accepts (R318 check 4). -/
def scopeOk (s : State) (r : OpRule) (p : Packet) : Bool :=
  match cmdScope s p.scope.toNat with
  | some x => r.kinds.contains x.kind
  | none => false

/-- Checks 1 to 6 of R318: the status of the first that fails. -/
def preCheck (s : State) (r : OpRule) (p : Packet) : Nat :=
  if !headerOk s (BitVec.ofNat 16 r.op) p then stBadHeader
  else if !s.boot.ready && !recoveryOps.contains r.op then stBadOpcode
  else if s.boot.statusQueue && p.queue == 30 && !statusOps.contains r.op then stReadOnly
  else if !r.lenOk p.params || !sizeOk s p then stBadLength
  else if !scopeOk s r p then stBadScope
  else if s.rind.lockout && r.lockout p.params then stLockout
  else if standby s && r.standby then stConvState
  else if s.boot.holdBus && r.holdBus p.params then stConvState
  else stOk

/-- Check 7: an own broken lock over the target fails once, another queue's lock over it refuses; the command restarts the hold of the
queue's own locks over its target (R335, R336). -/
def lockGate (s : State) (q : Nat) (keys : List LockKey) : State × Option (Nat × Nat) :=
  let hit := fun k => keys.any (overlap k)
  let s1 := { s with cmd := { s.cmd with
    locks := s.cmd.locks.map fun l => if l.queue = q ∧ hit l.key then { l with since := nowQ s } else l } }
  if (getQ s q).expired.any hit then
    (modQ s1 q fun x => { x with expired := x.expired.filter fun k => !hit k }, some (stLockExpired, 0))
  else match s.cmd.locks.find? fun l => l.queue ≠ q && hit l.key with
    | some l => (s1, some (stLocked, l.queue))
    | none => (s1, none)

/-- A start, stop or restart that its state, a lockout or a lock refuses sets `start_refused` (Table 09-17). -/
def noteRefused (s : State) (op c : Nat) : State :=
  if [0x0501, 0x0502, 0x0503].contains op && [stConvState, stLockout, stLocked, stLockExpired].contains c then
    setFld s .modeSts_start_refused 0 1
  else s

/-- A command whose turn has come: a repeated datagram is answered from the replay store (R330), else the checks and the effect. -/
def perform (s : State) (r : OpRule) (p : Packet) (body : State → State) : State :=
  match replayOf s p with
  | some d => sendReplay s p d
  | none =>
    let c := preCheck s r p
    if c ≠ stOk then finishSt (noteRefused s r.op c) p c
    else match lockGate s p.queue.toNat (r.targets s p) with
      | (t, some (st, res)) => finish (noteRefused t r.op st) p st res []
      | (t, none) => body t

/-- Queue q may start a command now: it is ACTIVE, has none in execution, and no higher queue has a ready one (R321). -/
def mayStart (s : State) (q : Nat) : Bool :=
  (getQ s q).mode == .active && !executing s q && (match nextQueue s with | some m => decide (m ≤ q) | none => true)

/-- A command of opcode r.op. One that waits on its queue runs when its turn has come. Another arrives first: where its transport does
not take it, it has no other effect; where its turn has come it runs, else it waits on its queue. Without an ACTIVE queue, or while no
command is served, it has no effect. -/
def runCmd (s : State) (r : OpRule) (p : Packet) (body : State → State) : State :=
  let q := p.queue.toNat
  let x := getQ s q
  let me := (BitVec.ofNat 16 r.op, p)
  if 32 ≤ q ∨ !served s then s
  else if x.ready.head? = some me then
    if mayStart s q then perform (modQ s q fun y => { y with ready := y.ready.drop 1 }) r p body else s
  else if x.ready.contains me then s
  else match arrives s p with
    | (false, t) => t
    | (true, t) =>
      if x.mode ≠ .active then t
      else if x.ready.isEmpty && mayStart t q then perform t r p body
      else match replayOf t p with
        | some d => sendReplay t p d
        | none => enqueue t q me

/-- A command as a row of the table. -/
def onCmd (s : State) (r : OpRule) (p : Packet) (body : State → State) : Host.Outcome State Fault Refusal :=
  onCore s fun s => runCmd s r p body

/-- Ends with a status unless a condition holds. -/
def require (ok : Bool) (p : Packet) (status : Nat) (s : State) (f : State → State) : State := if ok then f s else finishSt s p status

/-- The register words of a list, as reply bytes. -/
def regsB (s : State) (l : List (RegName × Nat)) : List Byte := l.flatMap fun (r, i) => leB 4 (readWord s r i)

end Sys2Proof.Machine
end

