-- ==== Sys2Proof/Machine/CmdSys.lean ====
section
/-!
DEFINITION. The system and configuration opcodes (Tables 13-12 and 13-13, 13-34, 13-35).
-/
namespace Sys2Proof.Machine

/-- Every kind of scope. -/
def anyScope : List ScopeKind := [.station, .phase, .branch, .cell, .switch, .bypass]

/-! ### Replies -/

/-- SYS_IDENT (Table 13-34); what needs the firmware is 0 in the recovery set. -/
def identB (s : State) : List Byte :=
  let fw := s.boot.firmware
  leB 4 (readWord s .sysId 0) ++ leB 4 (if fw then s.boot.version.toNat else 0) ++ leB 8 s.boot.serial ++
  leB 1 (b2n s.boot.slot + 2 * b2n s.boot.fallback) ++ leB 1 1 ++ (macB s 0).reverse ++ (macB s 1).reverse ++ zeroB 2 ++
  leB 4 (readWord s .sysStrap 0) ++ leB 4 (if fw then (cfgDigest s).toNat else 0) ++ zeroB 24

/-- SYS_STATUS (Table 13-35). -/
def statusB (s : State) : List Byte :=
  regsB s [(.modeSts, 0), (.modeEff, 0), (.rindSts, 0), (.rindFirst, 0), (.cellarSts, 0), (.twinSts, 0)] ++
  leB 1 (powerCode s.power.mode) ++ leB 1 (qualityCode s.stu.quality) ++ leB 1 (s.boot.stage + 16 * b2n s.boot.ready) ++ zeroB 1 ++
  leB 6 s.frame.k ++ timeB (nowQ s) ++ regsB s [(.cmdSts, 0)] ++ zeroB 16

/-! ### The flash as read (R412) -/

/-- A copy of a saved region from flash address `base` on, but for its CRC: its body, what the spec gives no layout (a free value of the
address and the copy), its sequence number. -/
def copyBody (base size seq : Nat) (body : List Byte) (o : Nat) : Byte :=
  if size - 8 ≤ o then BitVec.ofNat 8 (seq / 2 ^ (8 * (o + 8 - size))) else body.getD o (Config.flashOpen (base + o) seq)

/-- Byte `o` of such a copy, whose last four bytes are the CRC-32 over the rest of it. -/
def copyByte (base size seq : Nat) (body : List Byte) (o : Nat) : Nat :=
  if size - 4 ≤ o then
    (crc32 ((List.range (size - 4)).map (copyBody base size seq body))).toNat / 2 ^ (8 * (o + 4 - size)) % 256
  else (copyBody base size seq body o).toNat

/-- Byte `a` of the flash. -/
def flashAt (s : State) (a : Nat) : Nat :=
  let f := s.boot.flash
  let raw := (tget 0xFF f.raw a).toNat
  let img := fun (l : List (Option Image)) o size => match l.getD (o / size) none with
    | some x => copyByte (a - o % size) size x.seq [] (o % size)
    | none => raw
  if a < 0x1100000 then raw
  else if a < 0x1200000 then img f.rwu (a - 0x1100000) 0x80000
  else if a < 0x1400000 then match f.cfg.getD ((a - 0x1200000) / 0x100000) none with
    | some (n, l) => copyByte (a - a % 0x100000) 0x100000 n l (a % 0x100000)
    | none => raw
  else if a < 0x1500000 then img f.map (a - 0x1400000) 0x80000
  else if 0x1800000 ≤ a ∧ a < 0x3800000 then match f.aff.getD ((a - 0x1800000) / 0x1000000) none with
    | some x => let o := (a - 0x1800000) % 0x1000000; copyByte (a - o) 0x1000000 x.seq [] o
    | none => raw
  else raw

/-- n bytes of the flash from a. -/
def flashRead (s : State) (a n : Nat) : List Byte := (List.range n).map fun i => BitVec.ofNat 8 (flashAt s (a + i))

/-- Bytes of the flash. -/
def flashSize : Nat := 0x3800000 + Config.flashTail

/-! ### Meanings: system -/

/-- R340: SYS_NOP. -/
def execSysNop (p : Packet) (s : State) : Host.Outcome State Fault Refusal :=
  onCmd s { op := 0x0101, kinds := anyScope } p fun s => finish s p stOk 0 []

/-- R340, R344: SYS_IDENT. -/
def execSysIdent (p : Packet) (s : State) : Host.Outcome State Fault Refusal :=
  onCmd s { op := 0x0102 } p fun s => finishData s p (identB s)

/-- R340, R344: SYS_STATUS. -/
def execSysStatus (p : Packet) (s : State) : Host.Outcome State Fault Refusal :=
  onCmd s { op := 0x0103 } p fun s => finishData s p (statusB s)

/-- R340, R407: SYS_RESET writes its completion, then resets. -/
def execSysReset (p : Packet) (s : State) : Host.Outcome State Fault Refusal :=
  onCmd s { op := 0x0104, lenOk := words 1 } p fun s =>
    require (decide (pw p 0 = 0x5A5A)) p stRange s fun s =>
      require (s.mode.conv == .parked || s.mode.conv == .safe) p stConvState s fun s => internalReset (finish s p stOk 0 []) 3 false

/-- R340: SYS_PERSIST waits for the flash. -/
def execSysPersist (p : Packet) (s : State) : Host.Outcome State Fault Refusal :=
  onCmd s { op := 0x0105 } p fun s => waitFor s 0x0105 p .flash

/-- R340, R412: SYS_FLASH_READ. -/
def execSysFlashRead (p : Packet) (s : State) : Host.Outcome State Fault Refusal :=
  onCmd s { op := 0x0106, lenOk := words 2 } p fun s =>
    require (decide (pw p 1 ≤ 65536) && decide (pw p 0 + pw p 1 ≤ flashSize)) p stRange s fun s => waitFor s 0x0106 p .flash

/-- R340, R412: SYS_IMAGE_WRITE. -/
def execSysImageWrite (p : Packet) (s : State) : Host.Outcome State Fault Refusal :=
  onCmd s { op := 0x0107, lenOk := fun l => decide (2 ≤ l.length) && decide (l.length ≤ 1026) } p fun s =>
    require (s.mode.conv == .parked) p stConvState s fun s =>
      require (decide (pw p 0 ≤ 1) && decide (pw p 1 + 4 * (p.params.length - 2) ≤ 0x800000)) p stRange s fun s =>
        waitFor s 0x0107 p .flash

/-- R340, R413: SYS_IMAGE_SELECT. -/
def execSysImageSelect (p : Packet) (s : State) : Host.Outcome State Fault Refusal :=
  onCmd s { op := 0x0108, lenOk := words 2 } p fun s =>
    require (decide (pw p 0 ≤ 1)) p stRange s fun s => waitFor s 0x0108 p .flash

/-! ### Meanings: configuration -/

/-- A block code of Table 13-24. -/
def blockCode (n : Nat) : Bool := decide (1 ≤ n) && decide (n ≤ 13)

/-- A commit as a command: k_exec is the first frame computed with the committed values (R319), for an accepted frame length the one at
the next whole second (R37). -/
def commitCmdBlock (s : State) (p : Packet) (n : Nat) : State :=
  match commitBlock s n with
  | (t, none) => finishAt t p stOk 0 [] (t.frame.k + if n = 1 ∧ t.frame.lenPending.isSome then framesToSecond t else 1)
  | (t, some code) => finish t p stRefused code []

/-- R340, R432: CFG_COMMIT. -/
def execCfgCommit (p : Packet) (s : State) : Host.Outcome State Fault Refusal :=
  onCmd s { op := 0x0201, lenOk := words 1, targets := stationTarget
            lockout := fun l => (l.getD 0 0) == 10
            holdBus := fun l => let n := (l.getD 0 0).toNat; decide (5 ≤ n) && decide (n ≤ 9) } p fun s =>
    require (blockCode (pw p 0)) p stRange s fun s => commitCmdBlock s p (pw p 0)

/-- R192, R340: CFG_BANK_COMMIT. -/
def execCfgBankCommit (p : Packet) (s : State) : Host.Outcome State Fault Refusal :=
  onCmd s { op := 0x0202, targets := stationTarget } p fun s =>
    require (!bankBusy s) p stBusy s fun s =>
      match bankCommit s with
      | (t, true) => finishAt t p stOk 0 [] (t.frame.k + 1)
      | (t, false) => finish t p stRefused 6 []

/-- R192, R340: CFG_BANK_COPY completes when the copy ends. -/
def execCfgBankCopy (p : Packet) (s : State) : Host.Outcome State Fault Refusal :=
  onCmd s { op := 0x0203, targets := stationTarget } p fun s =>
    require (!bankBusy s) p stBusy s fun s => waitFor (bankCopy s) 0x0203 p .copy

/-- R340: CFG_DISCARD. -/
def execCfgDiscard (p : Packet) (s : State) : Host.Outcome State Fault Refusal :=
  onCmd s { op := 0x0204, lenOk := words 1, targets := stationTarget } p fun s =>
    require (blockCode (pw p 0)) p stRange s fun s => finish (discardAll s (pw p 0)) p stOk 0 []

/-- R340, R435: CFG_SAVE waits for the flash. -/
def execCfgSave (p : Packet) (s : State) : Host.Outcome State Fault Refusal :=
  onCmd s { op := 0x0205 } p fun s => waitFor s 0x0205 p .flash

/-- R340, R435: CFG_LOAD waits for the flash. -/
def execCfgLoad (p : Packet) (s : State) : Host.Outcome State Fault Refusal :=
  onCmd s { op := 0x0206, targets := stationTarget } p fun s => waitFor s 0x0206 p .flash

/-- R232, R340: CFG_DIGEST. -/
def execCfgDigest (p : Packet) (s : State) : Host.Outcome State Fault Refusal :=
  onCmd s { op := 0x0207 } p fun s => finish s p stOk (cfgDigest s).toNat []

/-- R340: CFG_PENDING. -/
def execCfgPending (p : Packet) (s : State) : Host.Outcome State Fault Refusal :=
  onCmd s { op := 0x0208 } p fun s => finish s p stOk (pendingBlocks s) []

end Sys2Proof.Machine
end

