-- ==== Sys2Proof/Machine/CmdParam.lean ====
section
/-!
DEFINITION. The parameter and point opcodes (Table 13-14; R134, R141, R338, R339).
-/
namespace Sys2Proof.Machine

/-! ### Parameter IDs (R338) -/

/-- What a parameter ID names. -/
inductive Pid where
  | reg (r : RegName) (i : Nat)
  | loop (inst field : Nat)
  | coef (inst : Nat) (active : Bool) (word : Nat)
  | bad
deriving DecidableEq, Repr

/-- The parameter of an ID (Table 13-11). -/
def pidOf (w : Nat) : Pid :=
  match bitsAt w 28 4 with
  | 0 => if bitsAt w 23 5 ≠ 0 then .bad else match regAt (4 * bitsAt w 0 23) with | some (r, i) => .reg r i | none => .bad
  | 1 => if bitsAt w 5 11 ≠ 0 ∨ 22 ≤ bitsAt w 0 5 then .bad else .loop (bitsAt w 16 12) (bitsAt w 0 5)
  | 2 => if bitsAt w 8 8 ≠ 0 then .bad else .coef (bitsAt w 16 12) (bitAt w 7) (bitsAt w 0 7)
  | _ => .bad

/-- Scope of a parameter (R431). -/
def pidKey (s : State) : Pid → List LockKey
  | .reg r i => [regKey r i]
  | .loop n _ => [instKey s n]
  | .coef n _ _ => [instKey s n]
  | .bad => []

/-- Width of field f of a loop descriptor in the row order of Table 07-3. -/
def loopWidth (f : Nat) : Nat := [4, 2, 16, 3, 2, 20, 20, 20, 20, 20, 20, 20, 16, 16, 15, 1, 1, 8, 32, 32, 7, 10].getD f 0

/-- Range of field f in Table 07-3. -/
def loopRange (f : Nat) : Nat × Nat :=
  match f with
  | 0 => (0, 8)
  | 1 => (2, 4)
  | 3 => (1, 4)
  | 4 => (0, 2)
  | 19 => (0, 0x7FFFFFFF)
  | 20 => (1, 64)
  | 21 => (1, 1000)
  | _ => (0, 2 ^ loopWidth f - 1)

/-- Value of a parameter, and the state a latching read leaves; none for an unknown ID. -/
def readParam (s : State) (w : Nat) : Option (Nat × State) :=
  match pidOf w with
  | .reg r i => let (v, t) := readReg s r i; some (v.toNat, t)
  | .loop n f => some (loopField (sLoop s n) f, s)
  | .coef n act k => some (if act then cw s n k else cwIdle s n k, s)
  | .bad => none

/-- Values of parameters from word i on: the reply, or the index of the first unknown ID. -/
def readParams (s : State) : List Nat → Nat → List Byte → Except Nat (List Byte × State)
  | [], _, acc => .ok (acc, s)
  | w :: l, i, acc =>
    match readParam s w with
    | some (v, t) => readParams t l (i + 1) (acc ++ leB 4 v)
    | none => .error i

/-- The pairs of a parameter or point write. -/
def pairs : List Nat → List (Nat × Nat)
  | a :: b :: l => (a, b) :: pairs l
  | _ => []

/-- The words after the first as numbers. -/
def restWords (p : Packet) : List Nat := (p.params.drop 1).map (·.toNat)

/-- Field f of a loop descriptor can hold v: the fields of Table 07-3 at their widths; `level` and `hold` reach the top of their range,
which is one bit wider. -/
def loopHolds (f v : Nat) : Bool :=
  match f with
  | 1 => decide (v ≤ 4)
  | 20 => decide (v ≤ 64)
  | _ => decide (v < 2 ^ loopWidth f)

/-- Status of one pair of PARAM_WRITE (R338, R339). -/
def writeCheck (s : State) (x : Nat × Nat) : Nat :=
  match pidOf x.1 with
  | .reg r i => if !regPresent s r i then stOk else if r.readOnly then stReadOnly else if x.2 - (x.2 &&& r.mask fun _ => true) ≠ 0 then stRange else stOk
  | .loop _ f => if loopHolds f x.2 then stOk else stRange
  | .coef _ act _ => if act then stReadOnly else if bankBusy s then stBusy else stOk
  | .bad => stBadParam

/-- Writes one pair. -/
def writeParam (q : Nat) (s : State) (x : Nat × Nat) : State :=
  match pidOf x.1 with
  | .reg r i => writeReg false (some q) s r i x.2
  | .loop n f => putLoop s n (setLoopField (sLoop s n) f x.2) (some q)
  | .coef n _ k => putIdleBy s n k x.2 (some q)
  | .bad => s

/-- Index and status of the first pair that a check refuses. -/
def firstFail (f : Nat × Nat → Nat) : List (Nat × Nat) → Nat → Option (Nat × Nat)
  | [], _ => none
  | x :: l, i => if f x ≠ stOk then some (i, f x) else firstFail f l (i + 1)

/-- A Rind class field (R322). -/
def rindClassPid (w : Nat) : Bool :=
  match pidOf w with
  | .reg r _ => r == .rindCls || r == .rindCellCls
  | _ => false

/-- Access code in the order of Table 00-5. -/
def accCode (a : Acc) : Nat :=
  match a with | .ro => 0 | .rw => 1 | .rws => 2 | .w1c => 3 | .w1s => 4 | .wo => 5 | .rof => 6 | .rwu => 7

/-- The range that a register field's table states; all the field can hold where it states none. -/
def fldRange (f : Fld) : Nat × Nat :=
  match f with
  | .stuFrmCfg_hop_bound => (64, 255)
  | .laneCfg_coding => (0, 1)
  | .laneCfg_keepalive => (1, 1023)
  | .laneHlthCfg_degr_hdr => (1, 255)
  | .laneEyeCtl_dwell_exp => (16, 30)
  | .wlBrCfg_exp_len => (0, 48)
  | .harpProfMv_tc => (800000, 8000000)
  | .harpProfMv_mv_mode => (0, 2)
  | .harpProfDab_dab_n => (2, 10)
  | .harpProfDab_law => (0, 2)
  | .harpDtCfg_dt_min => (80, 8000)
  | .harpLpPer_period => (400, 16777215)
  | .harpLpCfg_dt => (80, 8000)
  | .harpLpCfg_grp => (0, 12)
  | .harpTripCfg_filt => (0, 1000)
  | .harpTripCfg_n_trip => (1, 255)
  | .harpTripCfg_win => (1, 4095)
  | .harpCtripCfg_n_trip => (1, 255)
  | .harpCtripCfg_win => (1, 4095)
  | .pressL1Cfg_hold => (1, 64)
  | .pressCprof0_i_db => (0, 32767)
  | .pressCprof5_d_max => (0, 16384)
  | .chedBrCfg_k => (0, 8)
  | .chedCfg_hr_n => (1, 1023)
  | .modeReq_grid => (0, 2)
  | .modeLvgCfg_leader => (0, 11)
  | .modeRtCfg1_n_in => (1, 255)
  | .affCfg_gamma => (1, 7)
  | .affCfg_rf_hyst => (1, 15)
  | .affCfg_kf_exp => (0, 12)
  | .affCfg_cap_hour => (0, 23)
  | .affDieCfg_margin_tgt => (50, 150)
  | .affDieCfg_fbb_max => (0, 12)
  | .rindCfg_trip_hold => (1, 65535)
  | .cmdQCfg_transport => (0, 2)
  | .cmdQCfg_size => (2, 4096)
  | .cmdEvCfg_size => (2, 4096)
  | .cmdLockCfg_hold_ms => (1, 10000)
  | .caveTrcCfg_trig_cls => (0, 4)
  | .cavePersCfg_hour => (0, 23)
  | .strClkoutCfg_src => (0, 2)
  | .stuPtpCfg_ann_to => (2, 15)
  | .stuServoCfg0_step_thr => (1, 65535)
  | _ => (0, 2 ^ f.spec.width - 1)

/-- A register word with each field at a value. -/
def fieldsWord (r : RegName) (v : Fld → Nat) : Nat := (r.fields.map fun f => v f * 2 ^ f.spec.lo).sum

/-- Reset value, minimum, maximum and access code of a parameter. A register's extremes are the words with each field at its own
(log entry 155); the spec gives no range for a coefficient word, and no one code for a register of several. -/
def paramFacts (s : State) (x : Pid) : (Nat × Nat × Nat × Nat) × State :=
  match x with
  | .reg r i =>
    let codes := r.fields.map fun f => accCode f.spec.acc
    let c := codes.headD 0
    let (d, s1) := if codes.any (· != c) then drawBelow s 256 else (c, s)
    ((r.resetWord i, fieldsWord r fun f => (fldRange f).1, fieldsWord r fun f => (fldRange f).2, d), s1)
  | .loop _ f => ((loopField LoopDesc.zero f, (loopRange f).1, (loopRange f).2, 2), s)
  | .coef _ _ _ =>
    let (a, s1) := draw s
    let (b, s2) := draw s1
    let (c, s3) := drawBelow s2 256
    ((0, a, b, c), s3)
  | .bad => ((0, 0, 0, 0), s)

/-! ### Points -/

/-- Scope of a point (R431). -/
def ptKey (pa : Nat) : LockKey :=
  if pa < 294912 then ⟨3, pa / 512⟩
  else
    let j := pa - 294912
    if 1024 ≤ j ∧ j < 1792 then ⟨1, (j - 1024) / 256⟩
    else if 1792 ≤ j ∧ j < 4096 then ⟨2, (j - 1792) / 192⟩
    else stationKey

/-- A point as of the last snapshot (R140). -/
def snapPt (s : State) (pa : Nat) : Point :=
  if ptAbsent s pa then { Point.zero with stale := true, age := 255 } else tget (pointInit pa) s.curd.snap pa

/-- Eight bytes of POINT_READ. -/
def pointB (s : State) (pa : Nat) : List Byte :=
  let x := snapPt s pa
  leB 2 x.val.toNat ++ leB 2 (statusW x) ++ leB 2 x.lastK.toNat ++ leB 2 0

/-- A point read ends with the frame of its snapshot (R319). -/
def finishPoints (s : State) (p : Packet) (pas : List Nat) : State :=
  require (pas.all fun pa => decide (pa < 299008)) p stRange s fun s =>
    let l := pas.flatMap (pointB s)
    finishAt s p stOk l.length l s.curd.snapK

/-- Status of one pair of POINT_WRITE (R141). -/
def pointCheck (s : State) (x : Nat × Nat) : Nat :=
  let v := sx 16 (x.2 % 65536)
  let d := getDesc s (descIdx x.1)
  if 299008 ≤ x.1 then stRange
  else if writerOf x.1 ≠ 7 then stReadOnly
  else if ptAbsent s x.1 then stRange
  else if v < h2i d.min ∨ h2i d.max < v then stRange
  else stOk

/-- Descriptor bytes within Table 05-6. -/
def descBytesOk (l : List Byte) : Bool :=
  decide (fieldAt l 4 2 ≤ 0x7FFF) && !bitAt (byteAt l 7) 7 && decide (fieldAt l 8 2 < 8192) && fieldAt l 10 2 == 0

/-- A calibrated point (R134). -/
def calibrated (pa : Nat) : Bool := if pa < 294912 then decide (pa % 512 < 20) else decide (pa < 294912 + 32)

/-! ### Meanings: parameters -/

/-- R338, R340: PARAM_READ; result names the word of an unknown ID. -/
def execParamRead (p : Packet) (s : State) : Host.Outcome State Fault Refusal :=
  onCmd s { op := 0x0301, lenOk := counted 1 1024 1 } p fun s =>
    match readParams s (restWords p) 1 [] with
    | .ok (l, t) => if replySpace s p < l.length then finishData s p l else finishData t p l
    | .error i => finish s p stBadParam i []

/-- R338, R339: PARAM_WRITE. -/
def execParamWrite (p : Packet) (s : State) : Host.Outcome State Fault Refusal :=
  onCmd s { op := 0x0302, lenOk := counted 1 512 2
            lockout := fun l => (pairs ((l.drop 1).map (·.toNat))).any fun x => rindClassPid x.1
            targets := fun s p => (pairs (restWords p)).flatMap fun x => pidKey s (pidOf x.1) } p fun s =>
    let l := pairs (restWords p)
    match firstFail (writeCheck s) l 0 with
    | some (i, st) => finish s p st i []
    | none => finish (l.foldl (writeParam p.queue.toNat) s) p stOk 0 []

/-- R340: PARAM_INFO. -/
def execParamInfo (p : Packet) (s : State) : Host.Outcome State Fault Refusal :=
  onCmd s { op := 0x0303, lenOk := words 1 } p fun s =>
    match pidOf (pw p 0) with
    | .bad => finish s p stBadParam 0 []
    | x =>
      let ((a, b, c, d), t) := paramFacts s x
      finishData t p (leB 4 a ++ leB 4 b ++ leB 4 c ++ leB 4 (d + 256 * (((pidKey s x).map keyScope).headD 0)))

/-! ### Meanings: points -/

/-- R140: POINT_READ. -/
def execPointRead (p : Packet) (s : State) : Host.Outcome State Fault Refusal :=
  onCmd s { op := 0x0310, lenOk := counted 1 2048 1 } p fun s => finishPoints s p (restWords p)

/-- R140: POINT_READ_RANGE. -/
def execPointReadRange (p : Packet) (s : State) : Host.Outcome State Fault Refusal :=
  onCmd s { op := 0x0311, lenOk := words 2 } p fun s =>
    require (decide (1 ≤ pw p 1) && decide (pw p 1 ≤ 16384) && decide (pw p 0 + pw p 1 ≤ 299008)) p stRange s fun s =>
      finishPoints s p ((List.range (pw p 1)).map (pw p 0 + ·))

/-- R141: POINT_WRITE; the values act at the next snapshot. -/
def execPointWrite (p : Packet) (s : State) : Host.Outcome State Fault Refusal :=
  onCmd s { op := 0x0312, lenOk := counted 1 256 2, targets := fun _ p => (pairs (restWords p)).map fun x => ptKey x.1 } p fun s =>
    let l := pairs (restWords p)
    match firstFail (pointCheck s) l 0 with
    | some (_, st) => finishSt s p st
    | none =>
      let new := l.map fun x => (x.1, BitVec.ofNat 16 x.2)
      finish { s with curd := { s.curd with hostNext := s.curd.hostNext ++ new } } p stOk 0 []

/-- R127: POINT_DESC_READ. -/
def execPointDescRead (p : Packet) (s : State) : Host.Outcome State Fault Refusal :=
  onCmd s { op := 0x0313, lenOk := words 1 } p fun s =>
    require (decide (pw p 0 < 299008)) p stRange s fun s =>
      finishData s p (pointDescB (getDesc s (descIdx (pw p 0))) (writerOf (pw p 0)))

/-- R127: POINT_DESC_WRITE; the change acts at the next frame boundary. -/
def execPointDescWrite (p : Packet) (s : State) : Host.Outcome State Fault Refusal :=
  onCmd s { op := 0x0314, lenOk := words 5, targets := fun _ p => [ptKey (pw p 0)] } p fun s =>
    let l := paramBytes p 1
    let di := descIdx (pw p 0)
    require (decide (pw p 0 < 299008)) p stRange s fun s =>
      require (fieldAt l 8 2 / 1024 % 8 == writerOf (pw p 0)) p stReadOnly s fun s =>
        require (descBytesOk l) p stRange s fun s =>
          finish { s with curd := { s.curd with descNext := s.curd.descNext ++ [(di, pointDescOf l)] } } p stOk 0 []

/-- R134: POINT_CAL_READ. -/
def execPointCalRead (p : Packet) (s : State) : Host.Outcome State Fault Refusal :=
  onCmd s { op := 0x0315, lenOk := words 1 } p fun s =>
    require (decide (pw p 0 < 299008) && calibrated (pw p 0)) p stRange s fun s =>
      let (g, o) := userCal s (pw p 0)
      finish s p stOk (g.toNat + 65536 * o.toNat) []

/-- R134: POINT_CAL_WRITE. -/
def execPointCalWrite (p : Packet) (s : State) : Host.Outcome State Fault Refusal :=
  onCmd s { op := 0x0316, lenOk := words 2, targets := fun _ p => [ptKey (pw p 0)] } p fun s =>
    require (decide (pw p 0 < 299008) && calibrated (pw p 0)) p stRange s fun s =>
      let v := (BitVec.ofNat 16 (pw p 1), BitVec.ofNat 16 (pw p 1 / 65536))
      finish { s with curd := { s.curd with ucal := tset (0x4000, 0) s.curd.ucal (pw p 0) v } } p stOk 0 []

/-- R134, R340: POINT_CAL_PERSIST waits for the flash. -/
def execPointCalPersist (p : Packet) (s : State) : Host.Outcome State Fault Refusal :=
  onCmd s { op := 0x0317 } p fun s => waitFor s 0x0317 p .flash

end Sys2Proof.Machine
end

