-- ==== Sys2Proof/Machine/CmdCell.lean ====
section
/-!
DEFINITION. The cell opcodes (Table 13-15; R106, R113, R166, R214, R218).
-/
namespace Sys2Proof.Machine

/-- Code of a role (Table 08-1). -/
def roleCode (r : Role) : Nat := match r with | .idle => 0 | .inserted => 1 | .spare => 2 | .isolating => 3 | .bypassed => 4

/-- CELL_INFO (Table 13-15). -/
def cellInfoB (s : State) (c : Nat) : List Byte :=
  let x := getLink s c
  padB 64 x.ident ++ leB 1 (c % 48 + 1) ++ leB 1 ((getBr s (c / 48)).nb - c % 48) ++ leB 1 (b2n !servedA s c) ++
    leB 1 (roleCode (getCtl s c).role) ++ leB 1 (x.nstate % 8) ++ zeroB 11

/-- A command whose reply of n bytes does not fit its reply space ends without an effect (R319, R330). -/
def fitting (s : State) (p : Packet) (n : Nat) (f : State → State) : State :=
  if replySpace s p < n then finishData s p (zeroB n) else f s

/-- Bulk length and address of w0. -/
def bulkLen (w : Nat) : Nat := bitsAt w 24 8

/-- The command waits for the node, and the request goes as soon as the node is free (R106). -/
def askNode (s : State) (op : Nat) (p : Packet) (c : Nat) (w : Wait) : State := pumpBulk (waitFor s (BitVec.ofNat 16 op) p w) c

/-- Length of a bulk write's packet: the data bytes in whole words. -/
def bulkWords (l : List Word) : Bool :=
  let n := bulkLen (l.getD 0 0).toNat
  decide (2 ≤ l.length) && decide (l.length ≤ 17) && (n == 0 || decide (64 < n) || l.length == 1 + cdiv n 4)

/-- Offset and count of an eye map read: the whole map, or a part. -/
def eyePart (p : Packet) : Nat × Nat := if p.params.length = 1 then (0, 16448) else (pw p 1, pw p 2)

/-- One word, or three in the part form. -/
def eyeWords (l : List Word) : Bool := l.length == 1 || l.length == 3

/-- The part lies in the map, in whole words. -/
def eyePartOk (x : Nat × Nat) : Bool := x.1 % 4 == 0 && x.2 % 4 == 0 && decide (x.1 + x.2 ≤ 16448)

/-! ### Meanings -/

/-- R340: CELL_INFO. -/
def execCellInfo (p : Packet) (s : State) : Host.Outcome State Fault Refusal :=
  onCmd s { op := 0x0401, kinds := [.cell] } p fun s => finishData s p (cellInfoB s (scopeNum s p))

/-- R106, R340: CELL_BULK_READ. -/
def execCellBulkRead (p : Packet) (s : State) : Host.Outcome State Fault Refusal :=
  onCmd s { op := 0x0402, kinds := [.cell], lenOk := words 1 } p fun s =>
    let n := bulkLen (pw p 0)
    require (decide (1 ≤ n) && decide (n ≤ 64)) p stRange s fun s =>
      fitting s p n fun s =>
        let c := scopeNum s p
        askNode s 0x0402 p c (.bulk c false (bitsAt (pw p 0) 0 24) n [])

/-- R106, R166, R340: CELL_BULK_WRITE; the trip block belongs to the Harp. -/
def execCellBulkWrite (p : Packet) (s : State) : Host.Outcome State Fault Refusal :=
  onCmd s { op := 0x0403, kinds := [.cell], lenOk := bulkWords, targets := headerKey } p fun s =>
    let n := bulkLen (pw p 0)
    let a := bitsAt (pw p 0) 0 24
    require (decide (1 ≤ n) && decide (n ≤ 64)) p stRange s fun s =>
      require (decide (a + n ≤ 0x100) || decide (0x120 ≤ a)) p stReadOnly s fun s =>
        let c := scopeNum s p
        askNode s 0x0403 p c (.bulk c true a n ((paramBytes p 1).take n))

/-- R113, R340: CELL_DISCOVER completes when the discovery ends. -/
def execCellDiscover (p : Packet) (s : State) : Host.Outcome State Fault Refusal :=
  onCmd s { op := 0x0404, kinds := [.branch], standby := true, targets := headerKey } p fun s =>
    let b := scopeNum s p
    require (brParked s b) p stConvState s fun s =>
      require (!discBusy s b) p stBusy s fun s => waitFor (startDisc s b) 0x0404 p (.disc b)

/-- R340: CELL_MAP_SAVE waits for the flash. -/
def execCellMapSave (p : Packet) (s : State) : Host.Outcome State Fault Refusal :=
  onCmd s { op := 0x0405 } p fun s => waitFor s 0x0405 p .flash

/-- R166, R340: CELL_TRIP_CLEAR. -/
def execCellTripClear (p : Packet) (s : State) : Host.Outcome State Fault Refusal :=
  onCmd s { op := 0x0410, kinds := [.cell], lenOk := words 1, targets := headerKey } p fun s =>
    require (decide (pw p 0 ≤ 2)) p stRange s fun s =>
      let c := scopeNum s p
      askNode s 0x0410 p c (.trip c (pw p 0))

/-- R79, R340: CELL_EYE_READ, by bulk READ in pieces. -/
def execCellEyeRead (p : Packet) (s : State) : Host.Outcome State Fault Refusal :=
  onCmd s { op := 0x0411, kinds := [.cell], lenOk := eyeWords } p fun s =>
    let (o, n) := eyePart p
    require (decide (pw p 0 ≤ 1) && eyePartOk (o, n)) p stRange s fun s =>
      fitting s p n fun s =>
        let c := scopeNum s p
        if n = 0 then finishData s p [] else askNode s 0x0411 p c (.eye c (0x20000 + 16448 * pw p 0 + o) n [])

/-- R214, R340: CELL_BYPASS is a fault decision; result is the role after it. -/
def execCellBypass (p : Packet) (s : State) : Host.Outcome State Fault Refusal :=
  onCmd s { op := 0x0412, kinds := [.cell], standby := true, targets := headerKey } p fun s =>
    let c := scopeNum s p
    let t := faultDecision s c 0x20
    finish t p stOk (roleCode (getCtl t c).role) []

/-- R218, R340: CELL_RESTORE completes when the cell is Idle. -/
def execCellRestore (p : Packet) (s : State) : Host.Outcome State Fault Refusal :=
  onCmd s { op := 0x0413, kinds := [.cell], standby := true, targets := headerKey } p fun s =>
    let c := scopeNum s p
    require (brParked s (c / 48)) p stConvState s fun s =>
      require ((getCtl s c).role == .bypassed) p stRange s fun s => waitFor (startRestore s c) 0x0413 p (.restore c)

end Sys2Proof.Machine
end

