-- ==== Sys2Proof/Machine/CmdConv.lean ====
section
/-!
DEFINITION. The converter, mode and plan opcodes (Tables 13-16 to 13-18; R159, R164, R228, R230, R235, R237, R242, R268, R272, R424).
-/
namespace Sys2Proof.Machine

/-- Ends a request that its owner accepted, or refused with ST_CONV_STATE. -/
def asked (p : Packet) (r : State × Bool) : State := if r.2 then finish r.1 p stOk 0 [] else finishSt r.1 p stConvState

/-- HOLD-BUS refuses whatever the parameters (R424). -/
def always (_ : List Word) : Bool := true

/-! ### Meanings: converter -/

/-- R237, R238, R340: CONV_START. -/
def execConvStart (p : Packet) (s : State) : Host.Outcome State Fault Refusal :=
  onCmd s { op := 0x0501, lockout := always, standby := true, holdBus := always, targets := headerKey } p fun s =>
    asked p (hostStart s)

/-- R237, R340: CONV_STOP; never refused for a lock (R335). -/
def execConvStop (p : Packet) (s : State) : Host.Outcome State Fault Refusal :=
  onCmd s { op := 0x0502, standby := true } p fun s => asked p (hostStop s)

/-- R242, R340: CONV_RESTART; ST_STILL_ACTIVE while a class-2 source of the branch is live. -/
def execConvRestart (p : Packet) (s : State) : Host.Outcome State Fault Refusal :=
  onCmd s { op := 0x0503, kinds := [.branch], lockout := always, standby := true, holdBus := always, targets := headerKey } p
    fun s =>
      let b := scopeNum s p
      if s.mode.conv == .run && class2Live s b then finishSt (setFld s .modeSts_start_refused 0 1) p stStillActive
      else asked p (hostRestart s b)

/-- R164, R340: TRIP_CLEAR. -/
def execTripClear (p : Packet) (s : State) : Host.Outcome State Fault Refusal :=
  onCmd s { op := 0x0504, lenOk := words 1, targets := headerKey } p fun s =>
    require (decide (pw p 0 ≤ 11)) p stRange s fun s =>
      let (t, ok) := tripClear s (pw p 0)
      finishSt t p (if ok then stOk else stStillActive)

/-- R159, R340: LPWM_SET. -/
def execLpwmSet (p : Packet) (s : State) : Host.Outcome State Fault Refusal :=
  onCmd s { op := 0x0505, lenOk := words 3, targets := headerKey } p fun s =>
    let j := pw p 0
    require (decide (j ≤ 11) && decide (pw p 1 < 2 ^ 24) && decide (pw p 2 < 2 ^ 28)) p stRange s fun s =>
      finish (lpDutyWrite (lpPerWrite s j (pw p 1)) j (pw p 2)) p stOk 0 []

/-- R340: LPWM_ENABLE. -/
def execLpwmEnable (p : Packet) (s : State) : Host.Outcome State Fault Refusal :=
  onCmd s { op := 0x0506, lenOk := words 2, targets := headerKey } p fun s =>
    let t := (below 12 (bitAt (pw p 0))).foldl (fun t j =>
      lpCfgWrite (setFld t .harpLpCfg_enable j (b2n (bitAt (pw p 1) j))) j (flag t .harpLpCfg_centre j)) s
    finish t p stOk 0 []

/-- R230, R340: TWIN_SWAP; result is k_eff. -/
def execTwinSwap (p : Packet) (s : State) : Host.Outcome State Fault Refusal :=
  onCmd s { op := 0x0507, standby := true, targets := headerKey } p fun s =>
    let (t, ok) := startSwap s
    if ok then finish t p stOk ((t.twin.swapAt.getD 0) % 2 ^ 32) [] else finishSt t p stConvState

/-- R228, R340: TWIN_CALIBRATE completes when cal_valid is set. -/
def execTwinCalibrate (p : Packet) (s : State) : Host.Outcome State Fault Refusal :=
  onCmd s { op := 0x0508, standby := true, targets := headerKey } p fun s =>
    require (calAllowed s) p stConvState s fun s => waitFor (startCal s) 0x0508 p .calibrate

/-! ### Meanings: modes -/

/-- R235, R340: MODE_SET writes the masked shadow fields. -/
def execModeSet (p : Packet) (s : State) : Host.Outcome State Fault Refusal :=
  onCmd s { op := 0x0601, lenOk := words 2, targets := stationTarget } p fun s =>
    require (decide (pw p 0 < 2 ^ 7) && decide (pw p 1 < 2 ^ 4)) p stRange s fun s =>
      let own := some p.queue.toNat
      let put := fun (t : State) (x : Nat × Fld) =>
        if bitAt (pw p 1) x.1 then setSfld t x.2 0 (bitsAt (pw p 0) x.2.spec.lo x.2.spec.width) own else t
      finish ([(0, Fld.modeReq_grid), (1, .modeReq_flow), (2, .modeReq_svc), (3, .modeReq_rt_en)].foldl put s) p stOk 0 []

/-- R236, R340: MODE_LVG_SET. -/
def execModeLvgSet (p : Packet) (s : State) : Host.Outcome State Fault Refusal :=
  onCmd s { op := 0x0602, lenOk := words 2, targets := stationTarget } p fun s =>
    require (decide (pw p 0 ≤ 11) && pw p 1 - (pw p 1 &&& RegName.mask .modeLvgCfg fun _ => true) == 0) p stRange s fun s =>
      finish (putShadow s .modeLvgCfg (pw p 0) (pw p 1) (some p.queue.toNat)) p stOk 0 []

/-- R235, R340, R424: MODE_COMMIT. -/
def execModeCommit (p : Packet) (s : State) : Host.Outcome State Fault Refusal :=
  onCmd s { op := 0x0603, holdBus := always, targets := stationTarget } p fun s => commitCmdBlock s p 8

/-- R340: MODE_GET. -/
def execModeGet (p : Packet) (s : State) : Host.Outcome State Fault Refusal :=
  onCmd s { op := 0x0604 } p fun s => finishData s p (regsB s [(.modeSts, 0), (.modeEff, 0), (.modeLvEff, 0)])

/-! ### Meanings: plans -/

/-- R340: PLAN_GET. -/
def execPlanGet (p : Packet) (s : State) : Host.Outcome State Fault Refusal :=
  onCmd s { op := 0x0701, kinds := [.cell] } p fun s =>
    let c := scopeNum s p
    finishData s p (((List.range 37).flatMap fun i => leB 2 (seePt s (cellPa c (252 + i))).val.toNat) ++ zeroB 2 ++
      regsB s [(.affPlanSeq, 0)])

/-- A plan with this number awaits the host (R272). -/
def planAwaits (s : State) (n : Nat) : Bool := s.aff.proposed && n == readWord s .affPlanSeq 0

/-- R272, R340: PLAN_ACCEPT. -/
def execPlanAccept (p : Packet) (s : State) : Host.Outcome State Fault Refusal :=
  onCmd s { op := 0x0702, lenOk := words 1 } p fun s =>
    require (planAwaits s (pw p 0)) p stRefused s fun s => finish (acceptPlan s) p stOk 0 []

/-- R272, R340: PLAN_REJECT. -/
def execPlanReject (p : Packet) (s : State) : Host.Outcome State Fault Refusal :=
  onCmd s { op := 0x0703, lenOk := words 1 } p fun s =>
    require (planAwaits s (pw p 0)) p stRefused s fun s => finish (rejectPlan s) p stOk 0 []

/-- R268, R340: PLAN_EPOCH completes at the epoch's end. -/
def execPlanEpoch (p : Packet) (s : State) : Host.Outcome State Fault Refusal :=
  onCmd s { op := 0x0704 } p fun s =>
    require (!s.aff.busy) p stBusy s fun s => waitFor (startEpoch s) 0x0704 p .epoch

/-- R264, R340: PLAN_DAMAGE_READ. -/
def execPlanDamageRead (p : Packet) (s : State) : Host.Outcome State Fault Refusal :=
  onCmd s { op := 0x0705, kinds := [.cell] } p fun s =>
    let c := scopeNum s p
    finishData s p ((List.range 12).flatMap fun sw => leB 6 (getWear s (12 * c + sw)).dmg ++ zeroB 2)

/-- R263, R340: PLAN_RAINFLOW_READ; busy while an epoch works on the matrices. -/
def execPlanRainflowRead (p : Packet) (s : State) : Host.Outcome State Fault Refusal :=
  onCmd s { op := 0x0706, kinds := [.switch] } p fun s =>
    let sw := match cmdScope s p.scope.toNat with | some x => 12 * x.num + x.sw | none => 0
    require (!s.aff.busy) p stBusy s fun s =>
      finishCave s 0x0706 p 1536 ((List.range 256).flatMap fun i => leB 6 (tget 0 s.cave.bins (256 * sw + i)))

/-- R340: PLAN_HORIZON_SET writes AFF_HORIZON and waits for the flash. -/
def execPlanHorizonSet (p : Packet) (s : State) : Host.Outcome State Fault Refusal :=
  onCmd s { op := 0x0707, lenOk := words 2, targets := stationTarget } p fun s =>
    waitFor (putWord (putWord s .affHorizonLo 0 (pw p 0)) .affHorizonHi 0 (pw p 1 % 65536)) 0x0707 p .flash

end Sys2Proof.Machine
end

