-- ==== Sys2Proof/Machine/CmdTrace.lean ====
section
/-!
DEFINITION. The trace, log, time and power opcodes (Tables 13-19 to 13-21; R348 to R355, R380, R386, R387, R391 to R394).
-/
namespace Sys2Proof.Machine

/-! ### Replies -/

/-- TRACE_STATUS (Table 13-36). -/
def traceStatusB (s : State) : List Byte :=
  let x := s.cave
  let first : Nat := match x.ring.head? with | some r => r.k | none => 0
  let last : Nat := match x.ring.getLast? with | some r => r.k | none => 0
  regsB s [(.caveTrcSts, 0), (.caveTrcDepth, 0)] ++ leB 2 x.list.length ++ leB 2 0 ++
    leB 4 (slotSize x.list.length) ++ leB 6 first ++ leB 6 last ++
    leB 4 (if x.src = 0 then 0 else x.trigK.getD 0)

/-- A log entry (Table 14-5). -/
def logB (e : LogEntry) : List Byte :=
  leB 2 e.typ ++ leB 1 (b2n e.bad) ++ leB 1 0 ++ leB 4 e.index.toNat ++ timeB e.time ++ leB 6 e.k ++ padB 40 e.detail

/-- Requested records of a list that begins with the first: each frame follows the one before. -/
def consecutive : Nat → Nat → List TraceRec → Bool
  | 0, _, _ => true
  | n + 1, k, r :: l => r.k == k && consecutive n (k + 1) l
  | _ + 1, _, [] => false

/-- The frames of TRACE_READ: n from the one whose number ends in `k`; none unless each is held, and on a running ring far enough from
its oldest (R353). -/
def traceFrames (s : State) (k n : Nat) : Option (List TraceRec) :=
  let l := s.cave.ring.dropWhile fun r => r.k % 2 ^ 32 ≠ k
  let old : Nat := match s.cave.ring.head? with | some r => r.k | none => 0
  match l with
  | [] => none
  | r :: _ =>
    let running := s.cave.mode == .recording || s.cave.mode == .post
    if consecutive n r.k l && (!running || decide (old + 65536 ≤ r.k)) then some (l.take n) else none

/-- TIME_PTP_STATUS (Table 13-37). -/
def ptpStatusB (s : State) : List Byte × State :=
  let port := fun p : Nat =>
    match ptpState s p with | .disabled => 0 | .listening => 1 | .passive => 2 | .slave => 3 | .faulty => 4
  let gm : List Byte × Nat × Nat := match s.stu.lastMaster with | some x => (x.grandmaster, x.cls, min 255 x.steps) | none => ([], 0, 0)
  let (ms, t) : Nat × State := match s.stu.lastOff with
    | some q => (min 0xFFFFFFFF ((nowQ s - q) / 4000000), s)
    | none => draw s
  (regsB s [(.stuPtpSts, 0), (.stuOffset, 0), (.stuPtpDly, 0), (.stuRate, 0)] ++ padB 8 gm.1 ++ leB 1 gm.2.1 ++ leB 1 gm.2.2 ++
    leB 1 (port 0) ++ leB 1 (port 1) ++ leB 4 ms, t)

/-! ### Meanings: trace -/

/-- R348, R340: TRACE_SELECT. -/
def execTraceSelect (p : Packet) (s : State) : Host.Outcome State Fault Refusal :=
  onCmd s { op := 0x0801, lenOk := counted 0 8192 1, targets := stationTarget } p fun s =>
    let l := restWords p
    require (l.all fun pa => decide (pa < 299008)) p stRange s fun s =>
      finish (modCv s fun x => { x with listNext := some l }) p stOk 0 []

/-- Value of a point at the latest snapshot; none while it is invalid, and in a frame that does not follow that snapshot (R351). -/
def snapVal (s : State) (pa : Nat) : Option Half :=
  let p := tget (pointInit pa) s.curd.snap pa
  if ptAbsent s pa || p.stale || p.frozen || decide (s.curd.snapK + 1 < s.frame.k) then none else some p.val

/-- R351, R340: TRACE_TRIGGER_SET. -/
def execTraceTriggerSet (p : Packet) (s : State) : Host.Outcome State Fault Refusal :=
  onCmd s { op := 0x0802, lenOk := words 4 } p fun s =>
    let pre := pw p 2
    let post := pw p 3
    require (decide (pw p 0 < 299008) && decide (pw p 1 < 2 ^ 18) && decide (pre + post + 1 ≤ traceDepth s.cave.list.length))
      p stRange s fun s =>
        let a := (pw p 0, BitVec.ofNat 16 (pw p 1), bitsAt (pw p 1) 16 2, pre, post)
        finish (modCv s fun x => { x with
          arm := some a
          lastVal := snapVal s (pw p 0) }) p stOk 0 []

/-- R351, R340: TRACE_FORCE. -/
def execTraceForce (p : Packet) (s : State) : Host.Outcome State Fault Refusal :=
  onCmd s { op := 0x0803 } p fun s => finish (traceTrigger s 3) p stOk 0 []

/-- R352, R340: TRACE_REARM. -/
def execTraceRearm (p : Packet) (s : State) : Host.Outcome State Fault Refusal :=
  onCmd s { op := 0x0804 } p fun s =>
    let t := modCv s fun x => match x.mode with
      | .frozen => { x with rearmNext := true }
      | .post => { x with
          mode := .recording
          trigK := none
          src := 0 }
      | _ => x
    finish t p stOk 0 []

/-- R340, R344: TRACE_STATUS. -/
def execTraceStatus (p : Packet) (s : State) : Host.Outcome State Fault Refusal :=
  onCmd s { op := 0x0805 } p fun s => finishData s p (traceStatusB s)

/-- R340, R353: TRACE_READ. -/
def execTraceRead (p : Packet) (s : State) : Host.Outcome State Fault Refusal :=
  onCmd s { op := 0x0806, lenOk := words 2 } p fun s =>
    match traceFrames s (pw p 0) (pw p 1) with
    | some l =>
      let reply := l.flatMap (traceB s.cave.list.length s.cave.trigK)
      finishCave s 0x0806 p reply.length reply
    | none => finishSt s p stRange

/-- R340, R354: LOG_READ; every entry named is held. -/
def execLogRead (p : Packet) (s : State) : Host.Outcome State Fault Refusal :=
  onCmd s { op := 0x0807, lenOk := words 2 } p fun s =>
    let n := pw p 1
    let l := (s.cave.log.dropWhile fun e => e.index.toNat ≠ pw p 0).take n
    require (decide (1 ≤ n) && decide (n ≤ 1024) && l.length == n) p stRange s fun s => finishCave s 0x0807 p (64 * n) (l.flatMap logB)

/-- R340, R354: LOG_STATUS. -/
def execLogStatus (p : Packet) (s : State) : Host.Outcome State Fault Refusal :=
  onCmd s { op := 0x0808 } p fun s =>
    let old : Nat := match s.cave.log.head? with | some e => e.index.toNat | none => 0
    finishData s p (leB 4 old ++ regsB s [(.caveLogNew, 0), (.caveLogOvr, 0)] ++ leB 4 0)

/-! ### Meanings: time -/

/-- R340: TIME_GET: seconds in 8 bytes, nanoseconds and quarters, quality. -/
def execTimeGet (p : Packet) (s : State) : Host.Outcome State Fault Refusal :=
  onCmd s { op := 0x0901 } p fun s =>
    let (q, t) := instant s
    finishData t p (leB 8 (secsOf q) ++ leB 4 (nsWord q) ++ leB 4 (qualityCode s.stu.quality))

/-- R340, R380: TIME_SET. -/
def execTimeSet (p : Packet) (s : State) : Host.Outcome State Fault Refusal :=
  onCmd s { op := 0x0902, lenOk := words 3 } p fun s =>
    require (allParked s) p stConvState s fun s =>
      require (!flag s .stuPtpCfg_enable 0) p stRefused s fun s =>
        require (decide (pw p 2 < 1000000000)) p stRange s fun s =>
          let (q, s1) := instant s
          let want : Nat := 4000000000 * (pw p 0 + 2 ^ 32 * bitsAt (pw p 1) 0 16) + 4 * pw p 2
          finish (setQuality (modSt s1 fun x => { x with step := some ((want : Int) - (q : Int), true) }) .set) p stOk 0 []

/-- R340, R386: TIME_PULSE_SET writes the values and arms. A refused arm writes none of them (R318). -/
def execTimePulseSet (p : Packet) (s : State) : Host.Outcome State Fault Refusal :=
  onCmd s { op := 0x0903, lenOk := words 6 } p fun s =>
    let n := pw p 0
    require (decide (n ≤ 3) && decide (pw p 3 < 1000000000)) p stRange s fun s =>
      let put := fun (t : State) (x : RegName × Nat) => putWord t x.1 n x.2
      let s1 := [(RegName.stuTpStartSLo, pw p 1), (.stuTpStartSHi, pw p 2 % 65536), (.stuTpStartNs, pw p 3),
        (.stuTpPeriod, pw p 4), (.stuTpWidth, pw p 5)].foldl put s
      match armPulse s1 n with
      | (_, true) => finishSt (setFld s .stuTpCfg_refused n 1) p stRange
      | (t, false) => finish t p stOk 0 []

/-- R340, R387: TIME_CAPTURE_READ. -/
def execTimeCaptureRead (p : Packet) (s : State) : Host.Outcome State Fault Refusal :=
  onCmd s { op := 0x0904, lenOk := words 1 } p fun s =>
    require (decide (pw p 0 ≤ 1)) p stRange s fun s =>
      let (t, n, _, coarse, valid) := s.stu.caps.getD (pw p 0) (0, 0, false, false, false)
      finishData s p (timeB t ++ leB 2 n ++ leB 1 (fld s .stuCapCfg_ovr (pw p 0) + 2 * b2n valid + 4 * b2n coarse) ++ zeroB 3)

/-- R340, R344: TIME_PTP_STATUS. -/
def execTimePtpStatus (p : Packet) (s : State) : Host.Outcome State Fault Refusal :=
  onCmd s { op := 0x0905 } p fun s => let (l, t) := ptpStatusB s; finishData t p l

/-! ### Meanings: power -/

/-- Something runs that R392 lets end first. -/
def powerBusy (s : State) : Bool :=
  relocking s || (presentBrs s).any (discBusy s) || s.press.copyBusy || s.aff.busy || s.cave.persist.isSome || s.harp.halted

/-- The entry conditions of R392 common to IDLE and CURE: the status of the first that fails. -/
def powerCheck (s : State) (fromIdle : Bool) : Nat :=
  if s.mode.conv ≠ .parked ∨ flag s .twinCfg_enable 0 then stConvState
  else if !(s.power.mode == .run || (fromIdle && s.power.mode == .idle)) then stConvState
  else if 2 ≤ standing s then stFaultStanding
  else if powerBusy s then stBusy
  else stOk

/-- R392, R393, R340: PWR_IDLE. -/
def execPwrIdle (p : Packet) (s : State) : Host.Outcome State Fault Refusal :=
  onCmd s { op := 0x0A01, holdBus := always, targets := stationTarget } p fun s =>
    let c := powerCheck s false
    if c = stOk then finish (modPw s fun x => { x with idleReq := true }) p stOk 0 [] else finishSt s p c

/-- R392, R396, R340: PWR_CURE writes its completion; the entry starts at the next boundary. -/
def execPwrCure (p : Packet) (s : State) : Host.Outcome State Fault Refusal :=
  onCmd s { op := 0x0A02, lenOk := words 2, holdBus := always, targets := stationTarget } p fun s =>
    let c := powerCheck s true
    if c ≠ stOk then finishSt s p c
    else
      let sec := pw p 0 + 2 ^ 32 * bitsAt (pw p 1) 0 16
      let (q, s1) := instant s
      let (f, s2) := drawBelow s1 (2 ^ 32)
      let ahead : Int := (4000000000 * sec : Nat) - (q : Int)
      let bad := sec != 0 && (decide (ahead < 40000000) || decide (2 ^ 40 * (4000000000 * 65536) < ahead * (f : Int)))
      if bad then finishSt s2 p stRange
      else modPw (finish s2 p stOk 0 []) fun x => { x with
        cureReq := true
        alarmAt := sec }

/-- R392, R394, R340: PWR_RUN. -/
def execPwrRun (p : Packet) (s : State) : Host.Outcome State Fault Refusal :=
  onCmd s { op := 0x0A03 } p fun s =>
    if s.power.mode = .idle then finish (wakeBy s 0x20) p stOk 0 [] else finishSt s p stConvState

/-- R340: PWR_STATUS. -/
def execPwrStatus (p : Packet) (s : State) : Host.Outcome State Fault Refusal :=
  onCmd s { op := 0x0A04 } p fun s => finish s p stOk (powerCode s.power.mode + 256 * (s.power.lastSrc % 256)) []

end Sys2Proof.Machine
end

