-- ==== Sys2Proof/Machine/CmdDiag.lean ====
section
/-!
DEFINITION. The diagnostic and lock opcodes (Tables 13-22 and 13-23; R78, R167, R170, R291, R292, R333 to R336).
-/
namespace Sys2Proof.Machine

/-! ### Faults -/

/-- Fault sources by index (R279). -/
def sourceCount : Nat := 1152 + 32 * 576

/-- A source index that a source has. -/
def sourceIs (n : Nat) : Bool := decide (n < 946) || (decide (1152 ≤ n) && decide (n < sourceCount))

/-- The sources FAULT_CLEAR names; none where a parameter lies outside its range. -/
def clearNames (s : State) (p : Packet) : Option (List Nat) :=
  match pw p 0 with
  | 0 => if sourceIs (pw p 1) then some [pw p 1] else none
  | 1 => match cmdScope s p.scope.toNat with
    | some ⟨.cell, c, _⟩ => some ((List.range 32).map (cellSrc c))
    | _ => none
  | 2 => some (s.rind.src.map (·.1))
  | _ => none

/-- R340: FAULT_READ. -/
def execFaultRead (p : Packet) (s : State) : Host.Outcome State Fault Refusal :=
  onCmd s { op := 0x0B01, lenOk := words 2 } p fun s =>
    let n := pw p 1
    require (decide (1 ≤ n) && decide (n ≤ 512) && decide (pw p 0 + n ≤ sourceCount)) p stRange s fun s =>
      finishData s p ((List.range n).flatMap fun i => recordB (getSrc s (pw p 0 + i)))

/-- R292, R340: FAULT_CLEAR. -/
def execFaultClear (p : Packet) (s : State) : Host.Outcome State Fault Refusal :=
  onCmd s { op := 0x0B02, kinds := [.station, .cell], lockout := always
            lenOk := fun l => l.length == 2 || (l.length == 1 && l.getD 0 0 != 0) } p fun s =>
    match clearNames s p with
    | none => finishSt s p stRange
    | some l =>
      let (t, skip) := clearMany s l
      finishSt t p (if skip then stStillActive else stOk)

/-- R291, R340: FAULT_FORCE. -/
def execFaultForce (p : Packet) (s : State) : Host.Outcome State Fault Refusal :=
  onCmd s { op := 0x0B03, lenOk := words 2, lockout := always } p fun s =>
    require (sourceIs (pw p 0)) p stRange s fun s =>
      let (t, ok) := forceSrc s (pw p 0) (bitAt (pw p 1) 0)
      finishSt t p (if ok then stOk else stNoPermit)

/-- R340: FAULT_SUMMARY. -/
def execFaultSummary (p : Packet) (s : State) : Host.Outcome State Fault Refusal :=
  onCmd s { op := 0x0B04 } p fun s =>
    finishData s p (regsB s ([(.rindFirst, 0), (.rindSts, 0)] ++ (List.range 18).map fun i => (.rindCellAny, i)))

/-! ### Debug, eye scan, counters -/

/-- R167, R340: DBG_HALT; never refused for a lock. -/
def execDbgHalt (p : Packet) (s : State) : Host.Outcome State Fault Refusal :=
  onCmd s { op := 0x0B10 } p fun s =>
    let (t, ok) := harpHalt s
    finishSt t p (if ok then stOk else stNoPermit)

/-- R170, R340: DBG_RESUME; result is the resuming boundary. -/
def execDbgResume (p : Packet) (s : State) : Host.Outcome State Fault Refusal :=
  onCmd s { op := 0x0B11 } p fun s =>
    require s.harp.halted p stConvState s fun s => finish (harpResume s) p stOk ((s.frame.k + 1) % 2 ^ 32) []

/-- R78, R340: LANE_EYE_START. -/
def execLaneEyeStart (p : Packet) (s : State) : Host.Outcome State Fault Refusal :=
  onCmd s { op := 0x0B20, lenOk := words 2 } p fun s =>
    let n := pw p 0
    let dwell := bitsAt (pw p 1) 4 5
    require (lanePresent s n && decide (16 ≤ dwell) && decide (dwell ≤ 30)) p stRange s fun s =>
      require (getLane s n).scan.isNone p stBusy s fun s =>
        let t := setFld (setFld s .laneEyeCtl_continuous n (bitsAt (pw p 1) 0 1)) .laneEyeCtl_dwell_exp n dwell
        finish (startScan t n) p stOk 0 []

/-- R79, R340: LANE_EYE_READ of the latest map. Flag bad of R347 is bit 31 of the result (DESIGN CHOICE, log entry 152). -/
def execLaneEyeRead (p : Packet) (s : State) : Host.Outcome State Fault Refusal :=
  onCmd s { op := 0x0B21, lenOk := eyeWords } p fun s =>
    let m := tget [] s.cave.eyes (pw p 0)
    let (o, n) := eyePart p
    require (!m.isEmpty && eyePartOk (o, n)) p stRange s fun s =>
      finishCave s 0x0B21 p (n + 2 ^ 31 * b2n (slotBad s (eyeAt (pw p 0)) 16448)) ((m.drop o).take n)

/-- R340: CNT_CLEAR. -/
def execCntClear (p : Packet) (s : State) : Host.Outcome State Fault Refusal :=
  onCmd s { op := 0x0B22, lenOk := words 2 } p fun s =>
    match pw p 0 with
    | 0 => finish (laneCntClr s (pw p 1 % 2 ^ 28)) p stOk 0 []
    | 1 => finish ((below 12 (bitAt (pw p 1))).foldl clearWlCounts s) p stOk 0 []
    | 2 => finish (if bitAt (pw p 1) 0 then clearTwinCounts s else s) p stOk 0 []
    | _ => finishSt s p stRange

/-! ### Locks -/

/-- Kinds of scope that locks take. -/
def lockScopes : List ScopeKind := [.station, .phase, .branch, .cell]

/-- Locks of queue q. -/
def locksOf (s : State) (q : Nat) : List Lock := s.cmd.locks.filter (·.queue = q)

/-- Hold of a request in ms: 0 takes the default of CMD_LOCK_CFG, at least 1. -/
def holdOf (s : State) (w : Nat) : Nat :=
  let h := bitsAt w 16 16
  if h = 0 then max 1 (fld0 s .cmdLockCfg_hold_ms) else h

/-- A request for a lock (R333, R334): order, limits, then grant, wait or ST_LOCK_HELD. -/
def reserve (s : State) (p : Packet) (key : LockKey) (wait hold : Nat) : State :=
  let q := p.queue.toNat
  if (locksOf s q).any fun l => !keyLt l.key key then finishSt s p stLockOrder
  else if locksFull s q then finishSt s p stBusy
  else match otherLock s q key with
    | none => grantLock s p key hold
    | some l => if wait = 0 then finish s p stLockHeld l.queue [] else waitFor s 0x0C01 p (.lock key hold)

/-- Releases locks of queue q, with what it wrote within them where `discard` asks so (R336). -/
def release (s : State) (q : Nat) (l : List Lock) (discard : Bool) : State :=
  let t := { s with cmd := { s.cmd with locks := s.cmd.locks.filter fun x => !l.contains x } }
  if discard then l.foldl (fun t x => restoreShadows t q x.key) t else t

/-- Remaining ms of a lock, rounded up. -/
def remaining (s : State) (l : Lock) : Nat := cdiv (l.since + 4000000 * l.hold - nowQ s) 4000000

/-- R333, R334, R340: LOCK_RESERVE. -/
def execLockReserve (p : Packet) (s : State) : Host.Outcome State Fault Refusal :=
  onCmd s { op := 0x0C01, kinds := lockScopes, lenOk := words 1 } p fun s =>
    let wait := bitsAt (pw p 0) 0 16
    require (decide (wait ≤ 1000) && decide (bitsAt (pw p 0) 16 16 ≤ 10000)) p stRange s fun s =>
      reserve s p ((headerKey s p).headD stationKey) wait (holdOf s (pw p 0))

/-- R336, R340: LOCK_RELEASE. -/
def execLockRelease (p : Packet) (s : State) : Host.Outcome State Fault Refusal :=
  onCmd s { op := 0x0C02, kinds := lockScopes, lenOk := words 1 } p fun s =>
    let q := p.queue.toNat
    let l := (locksOf s q).filter fun x => x.key = (headerKey s p).headD stationKey
    require (!l.isEmpty) p stNotOwner s fun s => finish (release s q l (bitAt (pw p 0) 0)) p stOk 0 []

/-- R340: LOCK_QUERY. -/
def execLockQuery (p : Packet) (s : State) : Host.Outcome State Fault Refusal :=
  onCmd s { op := 0x0C03, kinds := lockScopes } p fun s =>
    let key := (headerKey s p).headD stationKey
    match s.cmd.locks.find? fun l => overlap l.key key with
    | some l => finish s p stOk (l.queue + 256 * (remaining s l % 2 ^ 24)) []
    | none => finish s p stOk 0xFF []

/-- R336, R340: LOCK_RELEASE_ALL. -/
def execLockReleaseAll (p : Packet) (s : State) : Host.Outcome State Fault Refusal :=
  onCmd s { op := 0x0C04, lenOk := words 1 } p fun s =>
    let q := p.queue.toNat
    finish (release s q (locksOf s q) (bitAt (pw p 0) 0)) p stOk 0 []

end Sys2Proof.Machine
end

