-- ==== Sys2Proof/Machine/CmdFlash.lean ====
section
/-!
DEFINITION. A flash access that a command waits for ends (R321, R412, R413, R435): the opcodes that read or write the flash.
-/
namespace Sys2Proof.Machine

/-- The flash with a new content. -/
def modFlash (s : State) (f : Flash → Flash) : State := { s with boot := { s.boot with flash := f s.boot.flash } }

/-- RWU words other than the user calibration, of the newest copy. -/
def savedRegs (s : State) : Tbl Word := (newestWords s.boot.flash.rwu).filter fun (a, _) => decide (a < 2 ^ 25)

/-- Writes the RWU region. -/
def saveRwu (s : State) (words : Tbl Word) : State := modFlash s fun x => { x with rwu := saveImage x.rwu words }

/-- The words of the cell map: the serial number of every cell in it. -/
def mapWords (s : State) : Tbl Word :=
  (allCells s).flatMap fun c =>
    let n := fieldAt (getLink s c).ident 8 8
    [(mapKey c, BitVec.ofNat 32 n), (mapKey c + 1, BitVec.ofNat 32 (n / 2 ^ 32))]

/-- The configuration goes to the older of its two copies. -/
def saveCfg (l : List (Option (Nat × List Byte))) (image : List Byte) : List (Option (Nat × List Byte)) :=
  let a := l.getD 0 none
  let b := l.getD 1 none
  match a, b with
  | some (x, _), some (y, _) => if x < y then [some (y + 1, image), b] else [a, some (x + 1, image)]
  | some (x, _), none => [a, some (x + 1, image)]
  | none, some (y, _) => [some (y + 1, image), b]
  | none, none => [some (1, image), none]

/-- A boot record (R413). -/
def recordOf (seq slot crc : Nat) : List Byte :=
  let l := leB 4 seq ++ leB 1 slot ++ zeroB 3 ++ leB 4 crc
  l ++ leB 4 (crc32 l).toNat

/-- SYS_IMAGE_SELECT: the older record names the slot, where its image has the CRC named. -/
def selectSlot (s : State) (p : Packet) : State :=
  match slotImage s (pw p 0) with
  | some (_, crc) =>
    if crc = pw p 1 then
      let (new, place) := newerRecord s
      let seq : Nat := match new with | some (n, _) => n + 1 | none => 1
      finish (flashPut s (0x1000 * place) (recordOf seq (pw p 0) crc)) p stOk 0 []
    else finishSt s p stRefused
  | none => finishSt s p stRefused

/-- The horizon alone joins the newest RWU words. -/
def horizonWords (s : State) : Tbl Word :=
  let put := fun (t : Tbl Word) (r : RegName) => tput t (r.addr 0) (BitVec.ofNat 32 (rword s r 0))
  put (put (newestWords s.boot.flash.rwu) .affHorizonLo) .affHorizonHi

/-- A flash access that failed: a failed read raises F_BOOT_FLASH (R425, log entry 163). -/
def flashFailed (s : State) (op : Nat) : State :=
  if op = 0x0106 ∨ op = 0x0108 ∨ op = 0x0206 then raiseE s 829 0 else s

/-- The end of the flash access of a command. -/
def flashDone (s : State) (w : Waiting) (ok : Bool) : State :=
  let p := w.packet
  if !ok then finishSt (flashFailed s w.opcode.toNat) p stFlash
  else match w.opcode.toNat with
    | 0x0105 => finish (saveRwu s (rwuNow s ++ calNow s)) p stOk 0 []
    | 0x0106 => finishData s p (flashRead s (pw p 0) (pw p 1))
    | 0x0107 => finish (flashPut s (slotBase (pw p 0) + pw p 1) (paramBytes p 2)) p stOk 0 []
    | 0x0108 => selectSlot s p
    | 0x0205 => finish (modFlash s fun x => { x with cfg := saveCfg x.cfg (configImage s) }) p stOk 0 []
    | 0x0206 =>
      if bankBusy s then finishSt s p stBusy
      else match newestCfg s with
      | some l => finish (loadImage s l (some p.queue.toNat)) p stOk 0 []
      | none => finishSt s p stFlash
    | 0x0317 => finish (saveRwu s (savedRegs s ++ calNow s)) p stOk 0 []
    | 0x0405 => finish (modFlash s fun x => { x with map := saveImage x.map (mapWords s) }) p stOk 0 []
    | 0x0707 => finish (saveRwu s (horizonWords s)) p stOk 0 []
    | _ => finish s p stOk 0 []

/-- R321: a flash access that a command waits for completes. -/
def execFlashAccessComplete (queue : Fin 32) (ok : Bool) (s : State) : Host.Outcome State Fault Refusal :=
  onCore s fun s =>
    match s.cmd.waits.find? fun w => w.queue = queue.val ∧ w.wait = .flash with
    | some w => flashDone (unwait s w) w ok
    | none => s

end Sys2Proof.Machine
end

