-- ==== Sys2Proof/Machine/Dispatch.lean ====
section
/-!
DEFINITION. One arm per command of the table: the command's effect on everything but the queue.
-/
namespace Sys2Proof.Machine

def exec (i : Instr) (s : State) : Host.Outcome State Fault Refusal :=
  match i with
  | .frameBoundary => Sys2Proof.Machine.execFrameBoundary s
  | .frameSnapshot => Sys2Proof.Machine.execFrameSnapshot s
  | .harpListSend cell => Sys2Proof.Machine.execHarpListSend cell s
  | .staleThirdFrame cell => Sys2Proof.Machine.execStaleThirdFrame cell s
  | .preparePhase => Sys2Proof.Machine.execPreparePhase s
  | .uplinkHead cell rx => Sys2Proof.Machine.execUplinkHead cell rx s
  | .uplinkTail cell rx => Sys2Proof.Machine.execUplinkTail cell rx s
  | .uMark cell arrival rx => Sys2Proof.Machine.execUMark cell arrival rx s
  | .uplinkLoss cell => Sys2Proof.Machine.execUplinkLoss cell s
  | .wlTimeError cell => Sys2Proof.Machine.execWlTimeError cell s
  | .enumAtOppositeEnd br atB run => Sys2Proof.Machine.execEnumAtOppositeEnd br atB run s
  | .enumEndReply br atB run => Sys2Proof.Machine.execEnumEndReply br atB run s
  | .bulkReadRsp cell rx => Sys2Proof.Machine.execBulkReadRsp cell rx s
  | .bulkWriteAck cell rx => Sys2Proof.Machine.execBulkWriteAck cell rx s
  | .bulkError cell rx => Sys2Proof.Machine.execBulkError cell rx s
  | .bulkTimeout cell => Sys2Proof.Machine.execBulkTimeout cell s
  | .resplitHeal br => Sys2Proof.Machine.execResplitHeal br s
  | .discoveryStart => Sys2Proof.Machine.execDiscoveryStart s
  | .discoveryComplete br => Sys2Proof.Machine.execDiscoveryComplete br s
  | .nodePowerUp cell => Sys2Proof.Machine.execNodePowerUp cell s
  | .nodePortUp cell portB => Sys2Proof.Machine.execNodePortUp cell portB s
  | .nodeFrameBoundary cell sample valid => Sys2Proof.Machine.execNodeFrameBoundary cell sample valid s
  | .nodeListMiss cell => Sys2Proof.Machine.execNodeListMiss cell s
  | .edgeList cell portB tick bytes => Sys2Proof.Machine.execEdgeList cell portB tick bytes s
  | .edgeFire cell index delay => Sys2Proof.Machine.execEdgeFire cell index delay s
  | .park cell portB bytes => Sys2Proof.Machine.execPark cell portB bytes s
  | .dMark cell portB markRx bytes => Sys2Proof.Machine.execDMark cell portB markRx bytes s
  | .nodeTimeLockAcquired cell => Sys2Proof.Machine.execNodeTimeLockAcquired cell s
  | .nodeTimeLockLost cell => Sys2Proof.Machine.execNodeTimeLockLost cell s
  | .nodeDcOverLimit cell volts => Sys2Proof.Machine.execNodeDcOverLimit cell volts s
  | .nodeHeadSlot cell respTime => Sys2Proof.Machine.execNodeHeadSlot cell respTime s
  | .nodeTailSlot cell => Sys2Proof.Machine.execNodeTailSlot cell s
  | .bypassCloseConfirm cell => Sys2Proof.Machine.execBypassCloseConfirm cell s
  | .bypassCloseTimeout cell => Sys2Proof.Machine.execBypassCloseTimeout cell s
  | .cellSideTrip cell chan => Sys2Proof.Machine.execCellSideTrip cell chan s
  | .train rx => Sys2Proof.Machine.execTrain rx s
  | .enum cell portB bytes => Sys2Proof.Machine.execEnum cell portB bytes s
  | .setpos cell portB bytes => Sys2Proof.Machine.execSetpos cell portB bytes s
  | .split cell portB bytes => Sys2Proof.Machine.execSplit cell portB bytes s
  | .role cell portB bytes => Sys2Proof.Machine.execRole cell portB bytes s
  | .arm cell portB bytes => Sys2Proof.Machine.execArm cell portB bytes s
  | .announce cell portB bytes => Sys2Proof.Machine.execAnnounce cell portB bytes s
  | .lstat rx content => Sys2Proof.Machine.execLstat rx content s
  | .settime cell portB bytes => Sys2Proof.Machine.execSettime cell portB bytes s
  | .bulkRead cell portB bytes => Sys2Proof.Machine.execBulkRead cell portB bytes s
  | .bulkWrite cell portB bytes => Sys2Proof.Machine.execBulkWrite cell portB bytes s
  | .slabLockGained heard => Sys2Proof.Machine.execSlabLockGained heard s
  | .slabLockLost loss => Sys2Proof.Machine.execSlabLockLost loss s
  | .eidle rx => Sys2Proof.Machine.execEidle rx s
  | .elasticBufferFault lane => Sys2Proof.Machine.execElasticBufferFault lane s
  | .trainingCheckPoint lane => Sys2Proof.Machine.execTrainingCheckPoint lane s
  | .laneRetry lane => Sys2Proof.Machine.execLaneRetry lane s
  | .keepAlive lane run => Sys2Proof.Machine.execKeepAlive lane run s
  | .parkIdleRepeat lane => Sys2Proof.Machine.execParkIdleRepeat lane s
  | .laneHealthWindow lane hdrErrs stuffs fills steps => Sys2Proof.Machine.execLaneHealthWindow lane hdrErrs stuffs fills steps s
  | .eyeMapComplete lane tick counts => Sys2Proof.Machine.execEyeMapComplete lane tick counts s
  | .sdDecimatorOutput input sum moved => Sys2Proof.Machine.execSdDecimatorOutput input sum moved s
  | .sdStuck input => Sys2Proof.Machine.execSdStuck input s
  | .pinFilterLevel pin level => Sys2Proof.Machine.execPinFilterLevel pin level s
  | .pointStale pa => Sys2Proof.Machine.execPointStale pa s
  | .pointFrozen pa => Sys2Proof.Machine.execPointFrozen pa s
  | .pointRateRun pa => Sys2Proof.Machine.execPointRateRun pa s
  | .feedbackLoss inst => Sys2Proof.Machine.execFeedbackLoss inst s
  | .observerResidual inst => Sys2Proof.Machine.execObserverResidual inst s
  | .bankCopyComplete => Sys2Proof.Machine.execBankCopyComplete s
  | .headroomRun br => Sys2Proof.Machine.execHeadroomRun br s
  | .deviationRun cell => Sys2Proof.Machine.execDeviationRun cell s
  | .bypassConfirmTimeout cell => Sys2Proof.Machine.execBypassConfirmTimeout cell s
  | .restoreTimeout cell => Sys2Proof.Machine.execRestoreTimeout cell s
  | .lpwmCarrierBoundary pair => Sys2Proof.Machine.execLpwmCarrierBoundary pair s
  | .lpwmPairTimeout pair => Sys2Proof.Machine.execLpwmPairTimeout pair s
  | .tripInputAssert input => Sys2Proof.Machine.execTripInputAssert input s
  | .jtagHaltRequest => Sys2Proof.Machine.execJtagHaltRequest s
  | .dbgPermitFall high => Sys2Proof.Machine.execDbgPermitFall high s
  | .prechargeComplete => Sys2Proof.Machine.execPrechargeComplete s
  | .prechargeTimeout => Sys2Proof.Machine.execPrechargeTimeout s
  | .rampDownComplete => Sys2Proof.Machine.execRampDownComplete s
  | .rampDownTimeout => Sys2Proof.Machine.execRampDownTimeout s
  | .branchRestartJoin br => Sys2Proof.Machine.execBranchRestartJoin br s
  | .rideThroughEntry => Sys2Proof.Machine.execRideThroughEntry s
  | .rideThroughExit => Sys2Proof.Machine.execRideThroughExit s
  | .rideThroughTimeout => Sys2Proof.Machine.execRideThroughTimeout s
  | .gridFormed => Sys2Proof.Machine.execGridFormed s
  | .pMark lane1 arrival run => Sys2Proof.Machine.execPMark lane1 arrival run s
  | .heartbeat lane1 run => Sys2Proof.Machine.execHeartbeat lane1 run s
  | .heartbeatHalfFrame => Sys2Proof.Machine.execHeartbeatHalfFrame s
  | .heartbeatMiss => Sys2Proof.Machine.execHeartbeatMiss s
  | .mirrorChunk lane1 run => Sys2Proof.Machine.execMirrorChunk lane1 run s
  | .mirrorDrop => Sys2Proof.Machine.execMirrorDrop s
  | .relayedPart lane1 down br run => Sys2Proof.Machine.execRelayedPart lane1 down br run s
  | .planAndAgeingImage lane1 run => Sys2Proof.Machine.execPlanAndAgeingImage lane1 run s
  | .roleOnChainLane lane run => Sys2Proof.Machine.execRoleOnChainLane lane run s
  | .farEndCalibrationEnd => Sys2Proof.Machine.execFarEndCalibrationEnd s
  | .fosterStep => Sys2Proof.Machine.execFosterStep s
  | .epoch => Sys2Proof.Machine.execEpoch s
  | .epochComplete => Sys2Proof.Machine.execEpochComplete s
  | .planLate => Sys2Proof.Machine.execPlanLate s
  | .applicationBoundary => Sys2Proof.Machine.execApplicationBoundary s
  | .capacitorFitComplete cell => Sys2Proof.Machine.execCapacitorFitComplete cell s
  | .dieMarginCheck margin monitor => Sys2Proof.Machine.execDieMarginCheck margin monitor s
  | .pmbusWriteResult acked => Sys2Proof.Machine.execPmbusWriteResult acked s
  | .tripHoldExpiry => Sys2Proof.Machine.execTripHoldExpiry s
  | .hostWatchdogExpiry => Sys2Proof.Machine.execHostWatchdogExpiry s
  | .rindScrub pass => Sys2Proof.Machine.execRindScrub pass s
  | .rindIntegrityError parity => Sys2Proof.Machine.execRindIntegrityError parity s
  | .cellarModelUpdate powers => Sys2Proof.Machine.execCellarModelUpdate powers s
  | .cellarDiodeReading diode reading => Sys2Proof.Machine.execCellarDiodeReading diode reading s
  | .cellarBaseUpdate => Sys2Proof.Machine.execCellarBaseUpdate s
  | .cellarRestart => Sys2Proof.Machine.execCellarRestart s
  | .cureDiodeCheck readings => Sys2Proof.Machine.execCureDiodeCheck readings s
  | .cellarHoldRelease => Sys2Proof.Machine.execCellarHoldRelease s
  | .referenceAbsent ref => Sys2Proof.Machine.execReferenceAbsent ref s
  | .referenceFrequencyWindow offsets => Sys2Proof.Machine.execReferenceFrequencyWindow offsets s
  | .pllLockDeclared band => Sys2Proof.Machine.execPllLockDeclared band s
  | .pllHoldComplete => Sys2Proof.Machine.execPllHoldComplete s
  | .coreReturnToPll => Sys2Proof.Machine.execCoreReturnToPll s
  | .pllLossOfLock => Sys2Proof.Machine.execPllLossOfLock s
  | .relockDeadline => Sys2Proof.Machine.execRelockDeadline s
  | .relockRetry => Sys2Proof.Machine.execRelockRetry s
  | .syncInEdge => Sys2Proof.Machine.execSyncInEdge s
  | .timestampInterrupt port send reading => Sys2Proof.Machine.execTimestampInterrupt port send reading s
  | .ptpSync port bytes => Sys2Proof.Machine.execPtpSync port bytes s
  | .ptpFollowUp port bytes => Sys2Proof.Machine.execPtpFollowUp port bytes s
  | .ptpAnnounce port bytes => Sys2Proof.Machine.execPtpAnnounce port bytes s
  | .ptpPdelayReq port bytes => Sys2Proof.Machine.execPtpPdelayReq port bytes s
  | .ptpPdelayResp port bytes => Sys2Proof.Machine.execPtpPdelayResp port bytes s
  | .ptpPdelayRespFollowUp port bytes => Sys2Proof.Machine.execPtpPdelayRespFollowUp port bytes s
  | .ptpDelayResp port bytes => Sys2Proof.Machine.execPtpDelayResp port bytes s
  | .announceReceiptTimeout port => Sys2Proof.Machine.execAnnounceReceiptTimeout port s
  | .ptpAcquireTimeout => Sys2Proof.Machine.execPtpAcquireTimeout s
  | .timeStepApply => Sys2Proof.Machine.execTimeStepApply s
  | .timePulseEdge out => Sys2Proof.Machine.execTimePulseEdge out s
  | .timeCapture input rising offset => Sys2Proof.Machine.execTimeCapture input rising offset s
  | .idleEntry => Sys2Proof.Machine.execIdleEntry s
  | .idleExit => Sys2Proof.Machine.execIdleExit s
  | .cureEntry => Sys2Proof.Machine.execCureEntry s
  | .wakeNAssert => Sys2Proof.Machine.execWakeNAssert s
  | .waxAlarm => Sys2Proof.Machine.execWaxAlarm s
  | .pcieWake => Sys2Proof.Machine.execPcieWake s
  | .wakeFrame port bytes => Sys2Proof.Machine.execWakeFrame port bytes s
  | .wakeTripInput input => Sys2Proof.Machine.execWakeTripInput input s
  | .powerGood => Sys2Proof.Machine.execPowerGood s
  | .powerGoodTimeout => Sys2Proof.Machine.execPowerGoodTimeout s
  | .oscillatorReady ticks => Sys2Proof.Machine.execOscillatorReady ticks s
  | .oscillatorReadyTimeout => Sys2Proof.Machine.execOscillatorReadyTimeout s
  | .wakeRetry => Sys2Proof.Machine.execWakeRetry s
  | .railCrossing rail above crossed => Sys2Proof.Machine.execRailCrossing rail above crossed s
  | .aonPowerOnReset => Sys2Proof.Machine.execAonPowerOnReset s
  | .rstNAssert => Sys2Proof.Machine.execRstNAssert s
  | .rstNRelease straps => Sys2Proof.Machine.execRstNRelease straps s
  | .porstNAssert => Sys2Proof.Machine.execPorstNAssert s
  | .porstNRelease straps => Sys2Proof.Machine.execPorstNRelease straps s
  | .strapResample straps => Sys2Proof.Machine.execStrapResample straps s
  | .bootRefclkFallback => Sys2Proof.Machine.execBootRefclkFallback s
  | .imageLoadComplete otpOk flashOk ms => Sys2Proof.Machine.execImageLoadComplete otpOk flashOk ms s
  | .twinBlockRetry => Sys2Proof.Machine.execTwinBlockRetry s
  | .holdBusAutostart => Sys2Proof.Machine.execHoldBusAutostart s
  | .vatDecision chan present elapsed => Sys2Proof.Machine.execVatDecision chan present elapsed s
  | .vatWaitLimit chan code => Sys2Proof.Machine.execVatWaitLimit chan code s
  | .traceFreeze => Sys2Proof.Machine.execTraceFreeze s
  | .persistComplete ok => Sys2Proof.Machine.execPersistComplete ok s
  | .persistTimeout => Sys2Proof.Machine.execPersistTimeout s
  | .cavePatrolRead chan burst uncorrectable corrected => Sys2Proof.Machine.execCavePatrolRead chan burst uncorrectable corrected s
  | .commandFetch queue entry ind => Sys2Proof.Machine.execCommandFetch queue entry ind s
  | .udpDatagram port mac vlan head bytes => Sys2Proof.Machine.execUdpDatagram port mac vlan head bytes s
  | .arpRequest port bytes => Sys2Proof.Machine.execArpRequest port bytes s
  | .icmpEchoRequest port bytes => Sys2Proof.Machine.execIcmpEchoRequest port bytes s
  | .spiSubmit bytes => Sys2Proof.Machine.execSpiSubmit bytes s
  | .spiFetch clocked => Sys2Proof.Machine.execSpiFetch clocked s
  | .spiRegRead addr words => Sys2Proof.Machine.execSpiRegRead addr words s
  | .spiRegWrite addr words => Sys2Proof.Machine.execSpiRegWrite addr words s
  | .pcieHotReset => Sys2Proof.Machine.execPcieHotReset s
  | .lockWaitTimeout queue => Sys2Proof.Machine.execLockWaitTimeout queue s
  | .lockExpiry queue depth num => Sys2Proof.Machine.execLockExpiry queue depth num s
  | .lockstepMismatch => Sys2Proof.Machine.execLockstepMismatch s
  | .commandWatchdogExpiry => Sys2Proof.Machine.execCommandWatchdogExpiry s
  | .sysNop p => Sys2Proof.Machine.execSysNop p s
  | .sysIdent p => Sys2Proof.Machine.execSysIdent p s
  | .sysStatus p => Sys2Proof.Machine.execSysStatus p s
  | .sysReset p => Sys2Proof.Machine.execSysReset p s
  | .sysPersist p => Sys2Proof.Machine.execSysPersist p s
  | .sysFlashRead p => Sys2Proof.Machine.execSysFlashRead p s
  | .sysImageWrite p => Sys2Proof.Machine.execSysImageWrite p s
  | .sysImageSelect p => Sys2Proof.Machine.execSysImageSelect p s
  | .cfgCommit p => Sys2Proof.Machine.execCfgCommit p s
  | .cfgBankCommit p => Sys2Proof.Machine.execCfgBankCommit p s
  | .cfgBankCopy p => Sys2Proof.Machine.execCfgBankCopy p s
  | .cfgDiscard p => Sys2Proof.Machine.execCfgDiscard p s
  | .cfgSave p => Sys2Proof.Machine.execCfgSave p s
  | .cfgLoad p => Sys2Proof.Machine.execCfgLoad p s
  | .cfgDigest p => Sys2Proof.Machine.execCfgDigest p s
  | .cfgPending p => Sys2Proof.Machine.execCfgPending p s
  | .paramRead p => Sys2Proof.Machine.execParamRead p s
  | .paramWrite p => Sys2Proof.Machine.execParamWrite p s
  | .paramInfo p => Sys2Proof.Machine.execParamInfo p s
  | .pointRead p => Sys2Proof.Machine.execPointRead p s
  | .pointReadRange p => Sys2Proof.Machine.execPointReadRange p s
  | .pointWrite p => Sys2Proof.Machine.execPointWrite p s
  | .pointDescRead p => Sys2Proof.Machine.execPointDescRead p s
  | .pointDescWrite p => Sys2Proof.Machine.execPointDescWrite p s
  | .pointCalRead p => Sys2Proof.Machine.execPointCalRead p s
  | .pointCalWrite p => Sys2Proof.Machine.execPointCalWrite p s
  | .pointCalPersist p => Sys2Proof.Machine.execPointCalPersist p s
  | .cellInfo p => Sys2Proof.Machine.execCellInfo p s
  | .cellBulkRead p => Sys2Proof.Machine.execCellBulkRead p s
  | .cellBulkWrite p => Sys2Proof.Machine.execCellBulkWrite p s
  | .cellDiscover p => Sys2Proof.Machine.execCellDiscover p s
  | .cellMapSave p => Sys2Proof.Machine.execCellMapSave p s
  | .cellTripClear p => Sys2Proof.Machine.execCellTripClear p s
  | .cellEyeRead p => Sys2Proof.Machine.execCellEyeRead p s
  | .cellBypass p => Sys2Proof.Machine.execCellBypass p s
  | .cellRestore p => Sys2Proof.Machine.execCellRestore p s
  | .convStart p => Sys2Proof.Machine.execConvStart p s
  | .convStop p => Sys2Proof.Machine.execConvStop p s
  | .convRestart p => Sys2Proof.Machine.execConvRestart p s
  | .tripClear p => Sys2Proof.Machine.execTripClear p s
  | .lpwmSet p => Sys2Proof.Machine.execLpwmSet p s
  | .lpwmEnable p => Sys2Proof.Machine.execLpwmEnable p s
  | .twinSwap p => Sys2Proof.Machine.execTwinSwap p s
  | .twinCalibrate p => Sys2Proof.Machine.execTwinCalibrate p s
  | .modeSet p => Sys2Proof.Machine.execModeSet p s
  | .modeLvgSet p => Sys2Proof.Machine.execModeLvgSet p s
  | .modeCommit p => Sys2Proof.Machine.execModeCommit p s
  | .modeGet p => Sys2Proof.Machine.execModeGet p s
  | .planGet p => Sys2Proof.Machine.execPlanGet p s
  | .planAccept p => Sys2Proof.Machine.execPlanAccept p s
  | .planReject p => Sys2Proof.Machine.execPlanReject p s
  | .planEpoch p => Sys2Proof.Machine.execPlanEpoch p s
  | .planDamageRead p => Sys2Proof.Machine.execPlanDamageRead p s
  | .planRainflowRead p => Sys2Proof.Machine.execPlanRainflowRead p s
  | .planHorizonSet p => Sys2Proof.Machine.execPlanHorizonSet p s
  | .traceSelect p => Sys2Proof.Machine.execTraceSelect p s
  | .traceTriggerSet p => Sys2Proof.Machine.execTraceTriggerSet p s
  | .traceForce p => Sys2Proof.Machine.execTraceForce p s
  | .traceRearm p => Sys2Proof.Machine.execTraceRearm p s
  | .traceStatus p => Sys2Proof.Machine.execTraceStatus p s
  | .traceRead p => Sys2Proof.Machine.execTraceRead p s
  | .logRead p => Sys2Proof.Machine.execLogRead p s
  | .logStatus p => Sys2Proof.Machine.execLogStatus p s
  | .timeGet p => Sys2Proof.Machine.execTimeGet p s
  | .timeSet p => Sys2Proof.Machine.execTimeSet p s
  | .timePulseSet p => Sys2Proof.Machine.execTimePulseSet p s
  | .timeCaptureRead p => Sys2Proof.Machine.execTimeCaptureRead p s
  | .timePtpStatus p => Sys2Proof.Machine.execTimePtpStatus p s
  | .pwrIdle p => Sys2Proof.Machine.execPwrIdle p s
  | .pwrCure p => Sys2Proof.Machine.execPwrCure p s
  | .pwrRun p => Sys2Proof.Machine.execPwrRun p s
  | .pwrStatus p => Sys2Proof.Machine.execPwrStatus p s
  | .faultRead p => Sys2Proof.Machine.execFaultRead p s
  | .faultClear p => Sys2Proof.Machine.execFaultClear p s
  | .faultForce p => Sys2Proof.Machine.execFaultForce p s
  | .faultSummary p => Sys2Proof.Machine.execFaultSummary p s
  | .dbgHalt p => Sys2Proof.Machine.execDbgHalt p s
  | .dbgResume p => Sys2Proof.Machine.execDbgResume p s
  | .laneEyeStart p => Sys2Proof.Machine.execLaneEyeStart p s
  | .laneEyeRead p => Sys2Proof.Machine.execLaneEyeRead p s
  | .cntClear p => Sys2Proof.Machine.execCntClear p s
  | .lockReserve p => Sys2Proof.Machine.execLockReserve p s
  | .lockRelease p => Sys2Proof.Machine.execLockRelease p s
  | .lockQuery p => Sys2Proof.Machine.execLockQuery p s
  | .lockReleaseAll p => Sys2Proof.Machine.execLockReleaseAll p s
  | .stuCommit => Sys2Proof.Machine.execStuCommit s
  | .laneCommit => Sys2Proof.Machine.execLaneCommit s
  | .wheyLinkCommit => Sys2Proof.Machine.execWheyLinkCommit s
  | .curdCommit => Sys2Proof.Machine.execCurdCommit s
  | .harpCommit => Sys2Proof.Machine.execHarpCommit s
  | .pressCtlCfgCommit => Sys2Proof.Machine.execPressCtlCfgCommit s
  | .cheddaringCommit => Sys2Proof.Machine.execCheddaringCommit s
  | .modeCtlCommit => Sys2Proof.Machine.execModeCtlCommit s
  | .affinageCommit => Sys2Proof.Machine.execAffinageCommit s
  | .rindCommit => Sys2Proof.Machine.execRindCommit s
  | .cellarCommit => Sys2Proof.Machine.execCellarCommit s
  | .starterStuTimeCommit => Sys2Proof.Machine.execStarterStuTimeCommit s
  | .commandBlockCommit => Sys2Proof.Machine.execCommandBlockCommit s
  | .pressCtlBankCommit => Sys2Proof.Machine.execPressCtlBankCommit s
  | .pressCtlBankCopy => Sys2Proof.Machine.execPressCtlBankCopy s
  | .modeCtlStart => Sys2Proof.Machine.execModeCtlStart s
  | .modeCtlStop => Sys2Proof.Machine.execModeCtlStop s
  | .modeCtlRestart mask => Sys2Proof.Machine.execModeCtlRestart mask s
  | .affCtlAccept => Sys2Proof.Machine.execAffCtlAccept s
  | .affCtlReject => Sys2Proof.Machine.execAffCtlReject s
  | .affCtlEpochNow => Sys2Proof.Machine.execAffCtlEpochNow s
  | .harpDbgCtlHalt => Sys2Proof.Machine.execHarpDbgCtlHalt s
  | .harpDbgCtlResume => Sys2Proof.Machine.execHarpDbgCtlResume s
  | .laneEyeCtlStart lane value => Sys2Proof.Machine.execLaneEyeCtlStart lane value s
  | .laneEyeCtlStop lane => Sys2Proof.Machine.execLaneEyeCtlStop lane s
  | .laneCntClr mask => Sys2Proof.Machine.execLaneCntClr mask s
  | .wlCntClr mask => Sys2Proof.Machine.execWlCntClr mask s
  | .twinCntClr => Sys2Proof.Machine.execTwinCntClr s
  | .vatCntClr mask => Sys2Proof.Machine.execVatCntClr mask s
  | .wlDiscCtlStart mask => Sys2Proof.Machine.execWlDiscCtlStart mask s
  | .twinCfgSwap => Sys2Proof.Machine.execTwinCfgSwap s
  | .twinCfgCalibrate => Sys2Proof.Machine.execTwinCfgCalibrate s
  | .vatCtlCommit => Sys2Proof.Machine.execVatCtlCommit s
  | .cellarPeakClr => Sys2Proof.Machine.execCellarPeakClr s
  | .sysBootCtlGo => Sys2Proof.Machine.execSysBootCtlGo s
  | .bootWindowWrite offset value => Sys2Proof.Machine.execBootWindowWrite offset value s
  | .rindHostwdKick value => Sys2Proof.Machine.execRindHostwdKick value s
  | .rindCfgInjEn en => Sys2Proof.Machine.execRindCfgInjEn en s
  | .rindForceWrite w value => Sys2Proof.Machine.execRindForceWrite w value s
  | .rindStickyClear w value => Sys2Proof.Machine.execRindStickyClear w value s
  | .harpTripStsClear mask => Sys2Proof.Machine.execHarpTripStsClear mask s
  | .cellarStsSdLatchClear => Sys2Proof.Machine.execCellarStsSdLatchClear s
  | .harpLpPerWrite pair value => Sys2Proof.Machine.execHarpLpPerWrite pair value s
  | .harpLpDutyWrite pair value => Sys2Proof.Machine.execHarpLpDutyWrite pair value s
  | .stuTpCfgArm out => Sys2Proof.Machine.execStuTpCfgArm out s
  | .cmdSqTailDoorbell queue value => Sys2Proof.Machine.execCmdSqTailDoorbell queue value s
  | .cmdCqHeadWrite queue value => Sys2Proof.Machine.execCmdCqHeadWrite queue value s
  | .cmdQCfgEnable queue value => Sys2Proof.Machine.execCmdQCfgEnable queue value s
  | .stuFrmCntLoRead => Sys2Proof.Machine.execStuFrmCntLoRead s
  | .stuFrmEpochSRead => Sys2Proof.Machine.execStuFrmEpochSRead s
  | .stuTimeSLoRead => Sys2Proof.Machine.execStuTimeSLoRead s
  | .stuCapSLoRead input => Sys2Proof.Machine.execStuCapSLoRead input s
  | .pwrWaxCntLoRead => Sys2Proof.Machine.execPwrWaxCntLoRead s
  | .affDieEolLoRead => Sys2Proof.Machine.execAffDieEolLoRead s
  | .cellarSdTimeLoRead => Sys2Proof.Machine.execCellarSdTimeLoRead s
  | .registerWrite addr value full => Sys2Proof.Machine.execRegisterWrite addr value full s
  | .localPwmEdge pair => Sys2Proof.Machine.execLocalPwmEdge pair s
  | .timePulseEnd out => Sys2Proof.Machine.execTimePulseEnd out s
  | .tripInputRelease input => Sys2Proof.Machine.execTripInputRelease input s
  | .cellSideTripRelease cell chan => Sys2Proof.Machine.execCellSideTripRelease cell chan s
  | .pcieLinkState up => Sys2Proof.Machine.execPcieLinkState up s
  | .flashAccessComplete queue ok => Sys2Proof.Machine.execFlashAccessComplete queue ok s
  | .aonSupplyUp => Sys2Proof.Machine.execAonSupplyUp s
  | .referenceReturn ref => Sys2Proof.Machine.execReferenceReturn ref s
  | .parkShutdownRepeat => Sys2Proof.Machine.execParkShutdownRepeat s
  | .waxCounterWrap => Sys2Proof.Machine.execWaxCounterWrap s
  | .ptpDelayRequestSend port => Sys2Proof.Machine.execPtpDelayRequestSend port s

end Sys2Proof.Machine
end

