-- ==== Sys2Proof/Safety.lean ====
section
/-!
DEFINITION. The terms claims are stated in: which rows act on what, when a packet's turn has come, what a quiet state is, and the facts
that a safe run keeps.
-/
namespace Sys2Proof.Machine

/-! ### Kinds of rows -/

/-- Rows that act on a cell node under the contract of chapter 04. -/
def nodeRow : Instr → Bool
  | .nodePowerUp _ | .nodePortUp _ _ | .nodeFrameBoundary _ _ _ | .nodeListMiss _ | .edgeList _ _ _ _ | .edgeFire _ _ _
  | .park _ _ _ | .dMark _ _ _ _ | .nodeTimeLockAcquired _ | .nodeTimeLockLost _ | .nodeDcOverLimit _ _ | .nodeHeadSlot _ _
  | .nodeTailSlot _ | .bypassCloseConfirm _ | .bypassCloseTimeout _ | .cellSideTrip _ _ | .enum _ _ _ | .setpos _ _ _
  | .split _ _ _ | .role _ _ _ | .arm _ _ _ | .announce _ _ _ | .settime _ _ _ | .bulkRead _ _ _ | .bulkWrite _ _ _
  | .cellSideTripRelease _ _ => true
  | .train (.node _ _) | .lstat (.node _ _) _ | .eidle (.node _ _ _) => true
  | .uplinkHead _ (.node _ _ _) | .uplinkTail _ (.node _ _ _) | .uMark _ _ (.node _ _ _) | .bulkReadRsp _ (.node _ _ _)
  | .bulkWriteAck _ (.node _ _ _) | .bulkError _ (.node _ _ _) => true
  | _ => false

/-- Rows that are accesses of BAR0 or of its registers over SPI. -/
def barRow : Instr → Bool
  | .spiRegRead _ _ | .spiRegWrite _ _ | .stuCommit | .laneCommit | .wheyLinkCommit | .curdCommit | .harpCommit
  | .pressCtlCfgCommit | .cheddaringCommit | .modeCtlCommit | .affinageCommit | .rindCommit | .cellarCommit
  | .starterStuTimeCommit | .commandBlockCommit | .pressCtlBankCommit | .pressCtlBankCopy | .modeCtlStart | .modeCtlStop
  | .modeCtlRestart _ | .affCtlAccept | .affCtlReject | .affCtlEpochNow | .harpDbgCtlHalt | .harpDbgCtlResume
  | .laneEyeCtlStart _ _ | .laneEyeCtlStop _ | .laneCntClr _ | .wlCntClr _ | .twinCntClr | .vatCntClr _ | .wlDiscCtlStart _
  | .twinCfgSwap | .twinCfgCalibrate | .vatCtlCommit | .cellarPeakClr | .sysBootCtlGo | .bootWindowWrite _ _ | .rindHostwdKick _
  | .rindCfgInjEn _ | .rindForceWrite _ _ | .rindStickyClear _ _ | .harpTripStsClear _ | .cellarStsSdLatchClear
  | .harpLpPerWrite _ _ | .harpLpDutyWrite _ _ | .stuTpCfgArm _ | .cmdSqTailDoorbell _ _ | .cmdCqHeadWrite _ _
  | .cmdQCfgEnable _ _ | .stuFrmCntLoRead | .stuFrmEpochSRead | .stuTimeSLoRead | .stuCapSLoRead _ | .pwrWaxCntLoRead
  | .affDieEolLoRead | .cellarSdTimeLoRead | .registerWrite _ _ _ => true
  | _ => false

/-- Rows of the core domain that are no BAR0 access: they have no effect while the core clock stands (R311, R391, R408). -/
def coreRow : Instr → Bool
  | .frameBoundary | .frameSnapshot | .harpListSend _ | .staleThirdFrame _ | .preparePhase | .uplinkLoss _ | .wlTimeError _ | .enumAtOppositeEnd _ _ _ | .enumEndReply _ _ _
  | .bulkTimeout _ | .resplitHeal _ | .discoveryStart | .discoveryComplete _
  | .slabLockGained _ | .slabLockLost _ | .elasticBufferFault _ | .trainingCheckPoint _ | .laneRetry _ | .keepAlive _ _
  | .parkIdleRepeat _ | .laneHealthWindow _ _ _ _ _ | .eyeMapComplete _ _ _ | .sdDecimatorOutput _ _ _ | .sdStuck _
  | .pinFilterLevel _ _ | .pointStale _ | .pointFrozen _ | .pointRateRun _ | .feedbackLoss _ | .observerResidual _
  | .bankCopyComplete | .headroomRun _ | .deviationRun _ | .bypassConfirmTimeout _ | .restoreTimeout _ | .lpwmCarrierBoundary _
  | .lpwmPairTimeout _ | .tripInputAssert _ | .jtagHaltRequest | .dbgPermitFall _ | .prechargeComplete | .prechargeTimeout
  | .rampDownComplete | .rampDownTimeout | .branchRestartJoin _ | .rideThroughEntry | .rideThroughExit | .rideThroughTimeout
  | .gridFormed | .pMark _ _ _ | .heartbeat _ _ | .heartbeatHalfFrame | .heartbeatMiss | .mirrorChunk _ _ | .mirrorDrop
  | .relayedPart _ _ _ _ | .planAndAgeingImage _ _ | .roleOnChainLane _ _ | .farEndCalibrationEnd | .fosterStep | .epoch
  | .epochComplete | .planLate | .applicationBoundary | .capacitorFitComplete _ | .dieMarginCheck _ _ | .pmbusWriteResult _
  | .tripHoldExpiry | .hostWatchdogExpiry | .rindScrub _ | .rindIntegrityError _ | .pllLockDeclared _ | .pllHoldComplete
  | .coreReturnToPll | .pllLossOfLock | .relockDeadline | .relockRetry | .syncInEdge | .timestampInterrupt _ _ _ | .ptpSync _ _
  | .ptpFollowUp _ _ | .ptpAnnounce _ _ | .ptpPdelayReq _ _ | .ptpPdelayResp _ _ | .ptpPdelayRespFollowUp _ _ | .ptpDelayResp _ _
  | .announceReceiptTimeout _ | .ptpAcquireTimeout | .timeStepApply | .timePulseEdge _ | .timeCapture _ _ _ | .idleEntry
  | .idleExit | .strapResample _ | .bootRefclkFallback | .imageLoadComplete _ _ _ | .twinBlockRetry | .holdBusAutostart
  | .vatDecision _ _ _ | .vatWaitLimit _ _ | .traceFreeze | .persistComplete _ | .persistTimeout | .cavePatrolRead _ _ _ _
  | .commandFetch _ _ _ | .udpDatagram _ _ _ _ _ | .arpRequest _ _ | .icmpEchoRequest _ _ | .spiSubmit _ | .spiFetch _
  | .pcieHotReset | .lockWaitTimeout _ | .lockExpiry _ _ _ | .lockstepMismatch | .commandWatchdogExpiry | .localPwmEdge _
  | .timePulseEnd _ | .tripInputRelease _ | .pcieLinkState _ | .flashAccessComplete _ _ | .ptpDelayRequestSend _ | .sysNop _
  | .sysIdent _ | .sysStatus _ | .sysReset _ | .sysPersist _ | .sysFlashRead _ | .sysImageWrite _ | .sysImageSelect _
  | .cfgCommit _ | .cfgBankCommit _ | .cfgBankCopy _ | .cfgDiscard _ | .cfgSave _ | .cfgLoad _ | .cfgDigest _ | .cfgPending _
  | .paramRead _ | .paramWrite _ | .paramInfo _ | .pointRead _ | .pointReadRange _ | .pointWrite _ | .pointDescRead _
  | .pointDescWrite _ | .pointCalRead _ | .pointCalWrite _ | .pointCalPersist _ | .cellInfo _ | .cellBulkRead _ | .cellBulkWrite _
  | .cellDiscover _ | .cellMapSave _ | .cellTripClear _ | .cellEyeRead _ | .cellBypass _ | .cellRestore _ | .convStart _
  | .convStop _ | .convRestart _ | .tripClear _ | .lpwmSet _ | .lpwmEnable _ | .twinSwap _ | .twinCalibrate _ | .modeSet _
  | .modeLvgSet _ | .modeCommit _ | .modeGet _ | .planGet _ | .planAccept _ | .planReject _ | .planEpoch _ | .planDamageRead _
  | .planRainflowRead _ | .planHorizonSet _ | .traceSelect _ | .traceTriggerSet _ | .traceForce _ | .traceRearm _ | .traceStatus _
  | .traceRead _ | .logRead _ | .logStatus _ | .timeGet _ | .timeSet _ | .timePulseSet _ | .timeCaptureRead _ | .timePtpStatus _
  | .pwrIdle _ | .pwrCure _ | .pwrRun _ | .pwrStatus _ | .faultRead _ | .faultClear _ | .faultForce _ | .faultSummary _
  | .dbgHalt _ | .dbgResume _ | .laneEyeStart _ | .laneEyeRead _ | .cntClear _ | .lockReserve _ | .lockRelease _ | .lockQuery _
  | .lockReleaseAll _ => true
  | .train (.lane _) | .lstat (.lane _) _ | .eidle (.lane _ _) => true
  | .uplinkHead _ (.lane _ _) | .uplinkTail _ (.lane _ _) | .uMark _ _ (.lane _ _) | .bulkReadRsp _ (.lane _ _)
  | .bulkWriteAck _ (.lane _ _) | .bulkError _ (.lane _ _) => true
  | _ => false

/-- The cell whose node a row acts on; none for the rows of the device itself. -/
def nodeCell : Instr → Option Nat
  | .nodePowerUp c | .nodePortUp c _ | .nodeFrameBoundary c _ _ | .nodeListMiss c | .edgeList c _ _ _ | .edgeFire c _ _
  | .park c _ _ | .dMark c _ _ _ | .nodeTimeLockAcquired c | .nodeTimeLockLost c | .nodeDcOverLimit c _ | .nodeHeadSlot c _
  | .nodeTailSlot c | .bypassCloseConfirm c | .bypassCloseTimeout c | .cellSideTrip c _ | .cellSideTripRelease c _
  | .enum c _ _ | .setpos c _ _ | .split c _ _ | .role c _ _ | .arm c _ _ | .announce c _ _ | .settime c _ _
  | .bulkRead c _ _ | .bulkWrite c _ _ | .train (.node c _) | .lstat (.node c _) _ | .eidle (.node c _ _)
  | .uplinkHead _ (.node c _ _) | .uplinkTail _ (.node c _ _) | .uMark _ _ (.node c _ _) | .bulkReadRsp _ (.node c _ _)
  | .bulkWriteAck _ (.node c _ _) | .bulkError _ (.node c _ _) => some c.val
  | _ => none

/-- Rows that write only fields that trigger an action (WO): R337 ignores them while a queue holds a lock. -/
def triggerRow : Instr → Bool
  | .laneCommit | .laneEyeCtlStop _ | .laneCntClr _ | .stuTpCfgArm _ | .pressCtlBankCommit | .pressCtlBankCopy
  | .cellarPeakClr | .vatCtlCommit | .vatCntClr _ | .modeCtlStart | .modeCtlStop | .modeCtlRestart _ | .twinCntClr
  | .twinCfgSwap | .twinCfgCalibrate | .affCtlAccept | .affCtlReject | .affCtlEpochNow | .sysBootCtlGo | .harpDbgCtlHalt
  | .harpDbgCtlResume | .wheyLinkCommit | .wlCntClr _ | .stuCommit | .curdCommit | .harpCommit | .pressCtlCfgCommit
  | .cheddaringCommit | .modeCtlCommit | .affinageCommit | .rindCommit | .cellarCommit | .starterStuTimeCommit
  | .commandBlockCommit | .wlDiscCtlStart _ => true
  | _ => false

/-! ### When a command starts -/

/-- The state in which queue q's turn has come for a packet: the packet is first on its queue's ready list, or the list is empty and the
packet's transport takes it (R321, R326, R330, R331). -/
def turnOf (s : State) (op : Nat) (p : Packet) : Option State :=
  let q := p.queue.toNat
  let x := getQ s q
  if clocked s && decide (q < 32) && x.mode == .active && served s && mayStart s q then
    if x.ready.isEmpty then
      match arrives s p with
      | (true, t) => if mayStart t q then some t else none
      | (false, _) => none
    else if x.ready.head? = some (BitVec.ofNat 16 op, p) then some (modQ s q fun y => { y with ready := y.ready.drop 1 })
    else none
  else none

/-- The packet is no repeat of a datagram that has been answered (R330). -/
def noReplay (s : State) (p : Packet) : Bool :=
  (replayOf s p).isNone

/-- The state from which a command starts to execute: its turn has come, it is no repeat, and checks 1 to 7 of R318 pass; the hold of
its queue's own locks over its target has restarted (R336). -/
def startOf (s : State) (r : OpRule) (p : Packet) : Option State :=
  match turnOf s r.op p with
  | none => none
  | some s0 =>
    if noReplay s0 p && preCheck s0 r p == stOk then
      match lockGate s0 p.queue.toNat (r.targets s0 p) with
      | (t, none) => some t
      | (_, some _) => none
    else none

/-- A command's completion and reply, whose length fits the reply space, in the present frame (R319). -/
def answer (s : State) (p : Packet) (status result : Nat) (reply : List Byte) : State :=
  deliver s p status result (s.frame.k % 2 ^ 32) reply

/-! ### Values that fit their encodings -/

/-- Every field of an edge list within its field of Tables 04-3 and 04-4. -/
def EdgeList.fits (l : EdgeList) : Prop :=
  l.dest < 64 ∧ l.byp < 4 ∧ l.edges.length < 32 ∧ l.path < 2 ^ 20 ∧ l.tailStart < 2 ^ 16 ∧ l.headStart < 2 ^ 16 ∧
  ∀ e ∈ l.edges, e.offset < 2 ^ 17 ∧ e.frac < 16 ∧ e.sw < 16

/-- Every field of a loop descriptor within its field of Table 07-3. -/
def LoopDesc.fits (d : LoopDesc) : Prop :=
  d.kind < 256 ∧ d.level < 256 ∧ d.order < 256 ∧ d.nu < 256 ∧ d.in0 < 2 ^ 24 ∧ d.in1 < 2 ^ 24 ∧ d.in2 < 2 ^ 24 ∧ d.in3 < 2 ^ 24 ∧
  d.out < 2 ^ 24 ∧ d.loPt < 2 ^ 24 ∧ d.hiPt < 2 ^ 24 ∧ d.obs < 2 ^ 16 ∧ d.group < 256 ∧ d.slew < 2 ^ 32 ∧ d.hold < 256 ∧
  d.tHand < 2 ^ 16

/-- Every field of a point descriptor within its field of Table 13-25. -/
def Desc.fits (d : Desc) : Prop :=
  d.rateMax < 2 ^ 16 ∧ d.staleTo < 256 ∧ d.noise < 16 ∧ d.base < 8 ∧ d.frzN < 1024 ∧ d.fs < 2 ^ 32

/-! ### Facts that a safe run keeps -/

/-- TRIP_N and SAFE_N follow their causes whenever the device is not in CURE (R286, R287, R408); PLL_LD and CLKOUT do so always (R370,
R376). -/
def PinsFollow (s : State) : Prop :=
  (s.power.mode ≠ .cure →
    s.rind.tripN = tripHeld s ∧ s.rind.safeN = (s.rind.lockout || s.boot.rstLow || s.boot.porstLow)) ∧
  s.boot.pllLd = pllIdle s ∧ s.boot.clkOut = (List.range 4).map (clkOutOf s)

/-- The two switches of no leg of a node are on together; leg j holds switches 2j and 2j + 1 (R116). -/
def LegsSafe (x : Node) : Prop := ∀ j, j < 6 → ¬(x.gates.getLsbD (2 * j) = true ∧ x.gates.getLsbD (2 * j + 1) = true)

/-- No two queues hold locks whose scopes overlap (R333). -/
def LocksApart (s : State) : Prop :=
  ∀ a ∈ s.cmd.locks, ∀ b ∈ s.cmd.locks, a.queue ≠ b.queue → overlap a.key b.key = false

/-- Nothing waits for the end of a row: no source raised by a reaction, no command at a wait point, no ready command whose turn has
come. -/
def Quiet (s : State) : Prop := s.rind.todo = [] ∧ s.cmd.waits = [] ∧ nextQueue s = none

end Sys2Proof.Machine
end

