-- ==== Sys2Proof/Certificates/Slice0/Obligations.lean ====
section
/-!
DEFINITION. The statements for the provers. Where one says that a command ends in `settle t`, t is its own effect and `settle` the end
of every row (deferred sources, waiting commands, pins, interrupt outputs); `QuietRowsEndInPinsAndInterruptsOnly` says what that leaves
alone.
-/
open Sys2Proof Sys2Proof.Machine

/-! ### The block as a whole -/

/-- A step takes the command at the front of the queue and runs it on the state with the queue's rest; on an empty queue one slab time
passes (the model's choice, log entry 1). No word of the table spells a command. The model's choice in it: log entry 2. -/
def Obligations.StepTakesTheFrontCommand : Prop :=
  (∀ (c : Instr) (rest : List Instr) (s : State), step { s with pending := c :: rest } = exec c { s with pending := rest }) ∧
  (∀ s : State, s.pending = [] → step s = .next (slabTimes s)) ∧
  (∀ (n w : Nat) (s : State), decodeTableWord n w = none ∧ s.withFetchWord n w = s)

/-- Nothing stops the block: every command in every state, and every step, answers a next state (a BAR0 access in CURE, which R398 keeps
the host from making, leaves the state as it is: the model's choice, log entry 13). -/
def Obligations.EveryCommandCompletes : Prop :=
  (∀ (i : Instr) (s : State), ∃ t, exec i s = .next t) ∧
  (∀ s : State, ∃ t, step s = .next t) ∧
  (∀ (i : Instr) (s : State), barRow i = true → s.power.mode = .cure → exec i s = .next s)

/-- While the core clock stands (a reset is held, the always-on supply is down, a Cellar shutdown, CURE) a row of the core domain changes
nothing, and so does a BAR0 access (the model's reading, log entry 12). -/
def Obligations.CoreRowsStandWithoutClock : Prop :=
  ∀ (i : Instr) (s : State), clocked s = false →
    (coreRow i = true → exec i s = .next s) ∧
    (barRow i = true → exec i s = .next s)

/-- Invariant of every step: outside CURE, TRIP_N stands asserted exactly while something holds it (the lockout latch, the hold time, the
start-up condition, a latched class-3 source) and SAFE_N exactly while the lockout latch is set or a reset pin is low; PLL_LD is held high
exactly while the main PLL is powered down, relocking or not in use, and each CLKOUT carries what it is set to (R287, R370, R376, R408). The
model's readings and choices in it: log entries 12, 16. -/
def Obligations.PinsFollowTheirCausesInEveryStep : Prop :=
  ∀ (s t : State), PinsFollow s → step s = .next t → PinsFollow t

/-- The state after reset meets the invariants: no command waits, the pins follow their causes, no two queues hold overlapping locks, no
node has both switches of a leg on, and the block is quiet. The model's readings and choices in it: log entries 5, 6. -/
def Obligations.ResetMeetsTheInvariants : Prop :=
  State.reset.pending = [] ∧ PinsFollow State.reset ∧ LocksApart State.reset ∧ (∀ c, LegsSafe (getNode State.reset c)) ∧
  Quiet State.reset

/-- The end of a row in a quiet state changes pins, interrupt outputs and what has been sent, and nothing else: every register, branch,
lane, cell, loop, mode, plan, memory, clock, fault record and power field stays. The model's choice in it: log entry 7. -/
def Obligations.QuietRowsEndInPinsAndInterruptsOnly : Prop :=
  ∀ s : State, Quiet s →
    let t := settle s
    t.regs = s.regs ∧ t.frame = s.frame ∧ t.lanes = s.lanes ∧ t.brs = s.brs ∧ t.links = s.links ∧ t.nodes = s.nodes ∧
    t.curd = s.curd ∧ t.harp = s.harp ∧ t.press = s.press ∧ t.ctls = s.ctls ∧ t.brCtls = s.brCtls ∧ t.twin = s.twin ∧
    t.mode = s.mode ∧ t.aff = s.aff ∧ t.cellar = s.cellar ∧ t.cave = s.cave ∧ t.clk = s.clk ∧ t.stu = s.stu ∧
    t.power = s.power ∧ t.fresh = s.fresh ∧ t.pending = s.pending ∧
    t.rind = { s.rind with firstNow := false, tripN := t.rind.tripN, safeN := t.rind.safeN } ∧
    t.boot = { s.boot with gpioDrive := t.boot.gpioDrive, gpioOut := t.boot.gpioOut, pllLd := t.boot.pllLd, clkOut := t.boot.clkOut } ∧
    t.cmd = { s.cmd with pend := t.cmd.pend, pba := t.cmd.pba, intN := t.cmd.intN } ∧
    ∃ out, t.tx = s.tx ++ out

/-- A node row changes the node of its cell, what has been sent and the counter of free values, and nothing else; what has been sent stays,
but for parts in progress out of that node's ports, which a PARK aborts. The model's readings and choices in it: log entries 7, 12, 81. -/
def Obligations.NodeRowsChangeTheirNodeOnly : Prop :=
  ∀ (i : Instr) (c : Nat) (s t : State), nodeCell i = some c → exec i s = .next t →
    t = { s with nodes := t.nodes, tx := t.tx, fresh := t.fresh } ∧
    (∀ d, d ≠ c → getNode t d = getNode s d) ∧
    ∃ gone out, t.tx = s.tx.diff gone ++ out ∧
      ∀ m ∈ gone, ∃ (d : Cell) (portB : Bool) (bytes l : List Byte), i = .park d (!portB) bytes ∧ d.val = c ∧
        m = .node c portB l ∧ l ∈ (getPort (getNode s c) portB).parts

/-- Invariant of every node row: no node ever turns both switches of a leg on, whatever arrives (R116). The model's readings and choices
in it: log entries 22, 81. -/
def Obligations.NodeRowsKeepLegsSafe : Prop :=
  ∀ (i : Instr) (c : Nat) (s t : State), nodeCell i = some c → (∀ d, LegsSafe (getNode s d)) → exec i s = .next t →
    ∀ d, LegsSafe (getNode t d)

/-- Reserving, releasing and the check of a command's targets keep the locks of different queues apart (R333). -/
def Obligations.LocksOfQueuesStayApart : Prop :=
  (∀ (s : State) (p : Packet) (key : LockKey) (wait hold : Nat), LocksApart s → LocksApart (reserve s p key wait hold)) ∧
  (∀ (s : State) (q : Nat) (l : List Lock) (discard : Bool), LocksApart s → LocksApart (release s q l discard)) ∧
  (∀ (s : State) (q : Nat) (keys : List LockKey), LocksApart s → LocksApart (lockGate s q keys).1)

/-! ### Encodings -/

/-- An edge list reads back from its bytes, every field at every value it can hold (R97). -/
def Obligations.EdgeListsReadBack : Prop :=
  ∀ l : EdgeList, l.fits → listOf (listB l) = l

/-- A list of at most 16 edges in order, within the window, with no switch twice at one offset and no reserved bypass code, has the form a
node accepts (R97, R98). -/
def Obligations.EdgeListsSentHaveTheAcceptedForm : Prop :=
  ∀ (l : EdgeList) (n : Nat), l.fits → l.byp ≠ 3 → l.edges.length ≤ 16 → (∀ e ∈ l.edges, e.sw ≤ 11 ∧ e.offset < n) →
    l.edges.Pairwise (fun a b => a.offset ≤ b.offset ∧ (a.sw, a.offset) ≠ (b.sw, b.offset)) → listFormOk (listB l) n = true

/-- The header and parameters of a command packet read back as the packet, every field at every value (R316, Table 13-1). -/
def Obligations.PacketsReadBack : Prop :=
  ∀ (op : Half) (p : Packet),
    packetOf p.transport p.reply (headerB op p ++ leB 4 p.crc.toNat) (p.params.flatMap fun w => leB 4 w.toNat) = (op, p)

/-- Loop and point descriptors read back from their bytes (Tables 07-3 and 13-25); the scopes of the station, phases, branches and cells
read back as lock keys from the encoding of R317. -/
def Obligations.DescriptorsAndScopesReadBack : Prop :=
  (∀ d : LoopDesc, d.fits → loopDescOf (loopDescB d) = d) ∧
  (∀ (d : Desc) (w : Nat), d.fits → pointDescOf (pointDescB d w) = d ∧ fieldAt (pointDescB d w) 8 2 / 1024 % 8 = w % 8) ∧
  scopeKey (keyScope ⟨0, 0⟩) = some ⟨0, 0⟩ ∧
  (∀ n, n < 3 → scopeKey (keyScope ⟨1, n⟩) = some ⟨1, n⟩) ∧
  (∀ n, n < 12 → scopeKey (keyScope ⟨2, n⟩) = some ⟨2, n⟩) ∧
  (∀ n, n < 576 → scopeKey (keyScope ⟨3, n⟩) = some ⟨3, n⟩) ∧
  keyScope ⟨0, 0⟩ = 0xF003

/-- A slab read from the wire is the slab that was sent, with its stuff bits removed and counted, whatever the scrambler held; a block of
64b/66b likewise; a slab of a reserved type is invalid; and no slab carries 25 identical payload bits in a row (R62, R63, R65, R66, R69). -/
def Obligations.SlabsAndBlocksReadBack : Prop :=
  (∀ (h : Nat) (t : SlabType) (l : List Byte), t ≠ .train → l.length = 14 →
    slabRead h (slabBits h t l).1 = (.slab t l, (slabBits h t l).1.length - 128, (slabBits h t l).2)) ∧
  (∀ (h : Nat) (l : List Byte), slabRead h (slabBits h .train l).1 = (.slab .train (List.replicate 14 0x33), 0, h)) ∧
  (∀ (h : Nat) (t : SlabType) (l : List Byte), isPart t = true → l.length = 8 →
    blockRead h (blockBits h t l).1 = (.data l, 0, (blockBits h t l).2)) ∧
  (∀ (h : Nat) (t : SlabType) (l : List Byte), t ∈ [SlabType.bulk, .mark, .park, .eidle, .link] → l.length = 6 →
    blockRead h (blockBits h t l).1 = (.slab t l, 0, (blockBits h t l).2)) ∧
  (∀ (h : Nat) (w : Slab), slabOf (ofBits (w.take 4)) = none → (slabRead h w).1 = .bad false) ∧
  (∀ (p : List Bool) (i : Nat) (b : Bool), ((stuff 0 none p).drop i).take 25 ≠ List.replicate 25 b)

/-! ### Rules -/

/-- The check values of the CRC-32 and the CRC-16 over the nine bytes "123456789" (R96). -/
def Obligations.CrcCheckValues : Prop :=
  crc32 [0x31, 0x32, 0x33, 0x34, 0x35, 0x36, 0x37, 0x38, 0x39] = 0xCBF43926 ∧
  crc16 [0x31, 0x32, 0x33, 0x34, 0x35, 0x36, 0x37, 0x38, 0x39] = 0x29B1

/-- ENUM at a node in any state (R103): it records h = count + 1 as its hop count from the arrival port and forwards the message with
count + 1 and a new CRC-16; where its onward port is not UP it returns ENUM with the end reply flag and count = h out of the arrival port.
A port that neither sends nor has anything waiting sends a LINK message at once (R95). -/
def Obligations.EnumRecordsHopsAndGoesOn : Prop :=
  ∀ (c : Cell) (portB : Bool) (bytes : List Byte) (s : State), linkOk bytes 1 = true → bitAt (byteAt bytes 3) 0 = false →
    let h := byteAt bytes 2 + 1
    let t := modNode s c fun x => if portB then { x with hopsB := some h } else { x with hopsA := some h }
    (portIsUp (getNode s c) (!portB) = true →
      exec (.enum c portB bytes) s = .next (forward t c (!portB) .link (linkB 1 0x80 (leB 1 h)))) ∧
    (portIsUp (getNode s c) (!portB) = false →
      exec (.enum c portB bytes) s = .next (sendOwn t c portB [(.link, linkB 1 0x80 (leB 1 h ++ leB 1 1))])) ∧
    (∀ (u : State) (d : Nat) (p : Bool) (l : List Byte), (getPort (getNode u d) p).own = 0 → (getPort (getNode u d) p).fifo = [] →
      (forward u d p .link l).tx = u.tx ++ [.node d p l] ∧
      ((getPort (getNode u d) p).fwd = 0 → (getPort (getNode u d) p).wait = [] →
        (sendOwn u d p [(.link, l)]).tx = u.tx ++ [.node d p l])) ∧
    (∀ op addr args, linkOk (linkB op addr args) (op % 256) = true)

/-- The boot window (R428): a write is taken while stage is 2, the boot strap is 1 or 2 and go has not been written, byte 0 of the header
at offset 0; any other write is ignored and sets boot_win; it always reads as 0. -/
def Obligations.BootWindowTakesAnImage : Prop :=
  (∀ (o : Fin 2097152) (v : Word) (s : State), clocked s = true → s.boot.stage = 2 →
    strapF s 0 2 = 1 ∨ strapF s 0 2 = 2 → s.boot.go = false →
    exec (.bootWindowWrite o v) s = .next (settle (modBo s fun x => { x with
      window := (List.range 4).foldl (fun t i => tset 0 t (4 * o + i) (BitVec.ofNat 8 (v.toNat / 2 ^ (8 * i)))) x.window }))) ∧
  (∀ (o : Fin 2097152) (v : Word) (s : State), clocked s = true →
    s.boot.stage ≠ 2 ∨ strapF s 0 2 = 0 ∨ strapF s 0 2 = 3 ∨ s.boot.go = true →
    exec (.bootWindowWrite o v) s = .next (settle (setFld s .sysErr_boot_win 0 1))) ∧
  (∀ (a : Nat) (s : State), 0x1000000 ≤ a → a < 0x1800000 → readBar s a = (0, s))

/-- Standing sources (R293): `standing` is the highest applied class among the sources whose latch is set, or whose sticky is set with
applied class 4, and 0 without one; RIND_STS.standing reads it; an entry into IDLE or CURE is refused from 2 on. -/
def Obligations.StandingIsTheHighestStandingClass : Prop :=
  (∀ (s : State) (n : Nat) (x : Src), (n, x) ∈ s.rind.src → x.latch = true ∨ (x.sticky = true ∧ x.applied = 4) →
    x.applied ≤ standing s) ∧
  (∀ s : State, standing s ≠ 0 → ∃ n x, (n, x) ∈ s.rind.src ∧ (x.latch = true ∨ (x.sticky = true ∧ x.applied = 4)) ∧
    x.applied = standing s) ∧
  (∀ s : State, (∀ e ∈ s.rind.src, e.2.applied ≤ 4) →
    bitsAt (readWord s .rindSts 0) Fld.rindSts_standing.spec.lo Fld.rindSts_standing.spec.width = standing s) ∧
  (∀ (s : State) (fromIdle : Bool), 2 ≤ standing s → s.mode.conv = .parked → flag s .twinCfg_enable 0 = false → s.power.mode = .run →
    powerCheck s fromIdle = stFaultStanding)

/-- A point of a cell that is not in the cell map, and every point of a branch that the capacity makes absent, reads as value 0 with stale
set and age 255, for a consumer and over BAR0 (R124). -/
def Obligations.AbsentPointsReadStale : Prop :=
  ∀ (s : State) (pa : Nat), pa < 299008 →
    (pa < 294912 ∧ (getLink s (pa / 512)).inMap = false) ∨ (branchOfPa pa < 12 ∧ brPresent s (branchOfPa pa) = false) →
    (seePt s pa).val = 0 ∧ (seePt s pa).stale = true ∧ (seePt s pa).age = 255 ∧
    (readBar s (0x100000 + 4 * pa)).2 = s ∧
    (readBar s (0x100000 + 4 * pa)).1.toNat % 65536 = 0 ∧
    bitAt (readBar s (0x100000 + 4 * pa)).1.toNat 16 = true ∧
    bitsAt (readBar s (0x100000 + 4 * pa)).1.toNat 24 8 = 255

/-- Unassigned addresses of BAR0 read as 0 and ignore writes; the Curd and Rind windows ignore writes (R17, R140, R302). -/
def Obligations.UnassignedAddressesReadZero : Prop :=
  (∀ (s : State) (a : Nat), regAt a = none → (a < 0x100000 ∨ 0x224000 ≤ a) → (a < 0x300000 ∨ 0x39B400 ≤ a) →
    readBar s a = (0, s)) ∧
  (∀ (direct : Bool) (owner : Option Nat) (s : State) (a w : Nat), regAt a = none → (a < 0x1000000 ∨ 0x1800000 ≤ a) →
    writeBar direct owner s a w = s) ∧
  (∀ a, 0x100000 ≤ a → a < 0x224000 → regAt a = none) ∧
  (∀ a, 0x300000 ≤ a → a < 0x39B400 → regAt a = none)

/-- A packet whose turn has come and whose checks fail has its completion and no other effect, but for MODE_STS.start_refused where it asks
for a start, stop or restart (Table 09-17). A bad header, a length outside the
opcode's, a scope that names nothing, the lockout and the standby have their statuses, each where the checks named before it pass (R318,
R416, R419, R424); only the recovery set runs before boot is ready; a cell scope names a cell of the map in a present branch (R10). The
model's readings and choices in it: log entries 4, 53, 58. -/
def Obligations.RefusedPacketsOnlyComplete : Prop :=
  (∀ (s s0 : State) (r : OpRule) (p : Packet) (body : State → State), turnOf s r.op p = some s0 → noReplay s0 p = true →
    preCheck s0 r p ≠ stOk →
    onCmd s r p body = .next (settle (answer (noteRefused s0 r.op (preCheck s0 r p)) p (preCheck s0 r p) 0 []))) ∧
  (∀ (s : State) (op st : Nat), op ∉ [0x0501, 0x0502, 0x0503] ∨ st ∉ [stConvState, stLockout, stLocked, stLockExpired] →
    noteRefused s op st = s) ∧
  (∀ (s : State) (op st : Nat), op ∈ [0x0501, 0x0502, 0x0503] → st ∈ [stConvState, stLockout, stLocked, stLockExpired] →
    noteRefused s op st = setFld s .modeSts_start_refused 0 1) ∧
  (∀ (s : State) (r : OpRule) (p : Packet), headerOk s (BitVec.ofNat 16 r.op) p = false → preCheck s r p = stBadHeader) ∧
  (∀ (s : State) (r : OpRule) (p : Packet), headerOk s (BitVec.ofNat 16 r.op) p = true → s.boot.ready = false →
    r.op ∉ recoveryOps → preCheck s r p = stBadOpcode) ∧
  (∀ (s : State) (r : OpRule) (p : Packet), headerOk s (BitVec.ofNat 16 r.op) p = true → s.boot.ready = true →
    s.boot.statusQueue = false → r.lenOk p.params = false → preCheck s r p = stBadLength) ∧
  (∀ (s : State) (r : OpRule) (p : Packet), headerOk s (BitVec.ofNat 16 r.op) p = true → s.boot.ready = true →
    s.boot.statusQueue = false → r.lenOk p.params = true → sizeOk s p = true → cmdScope s p.scope.toNat = none →
    preCheck s r p = stBadScope) ∧
  (∀ (s : State) (r : OpRule) (p : Packet), headerOk s (BitVec.ofNat 16 r.op) p = true → s.boot.ready = true →
    s.boot.statusQueue = false → r.lenOk p.params = true → sizeOk s p = true → scopeOk s r p = true → s.rind.lockout = true →
    r.lockout p.params = true → preCheck s r p = stLockout) ∧
  (∀ (s : State) (r : OpRule) (p : Packet), headerOk s (BitVec.ofNat 16 r.op) p = true → s.boot.ready = true →
    s.boot.statusQueue = false → r.lenOk p.params = true → sizeOk s p = true → scopeOk s r p = true → s.rind.lockout = false →
    standby s = true → r.standby = true → preCheck s r p = stConvState) ∧
  (∀ (s : State) (b c sel : Nat) (x : CmdScope), b < 12 → c < 64 → sel < 14 →
    cmdScope s (b / 4 + 4 * (b % 4) + 16 * c + 4096 * sel) = some x →
    brPresent s b = true ∧ c ≤ 47 ∧ (getLink s (48 * b + c)).inMap = true ∧ x.num = 48 * b + c)

/-- Another queue's lock over a command's target turns the command away with ST_LOCKED and the holder; an own lock that broke over it
turns it away once with ST_LOCK_EXPIRED. Neither has another effect than its completion, the hold of the own locks over the target and,
for a start, stop or restart, MODE_STS.start_refused (R335, R336, Table 09-17). The model's choice in it: log entry 4. -/
def Obligations.LocksTurnCommandsAway : Prop :=
  (∀ (s s0 : State) (r : OpRule) (p : Packet) (body : State → State) (l : Lock), turnOf s r.op p = some s0 → noReplay s0 p = true →
    preCheck s0 r p = stOk → (∀ k ∈ (getQ s0 p.queue.toNat).expired, ¬ ∃ t ∈ r.targets s0 p, overlap k t = true) →
    (s0.cmd.locks.find? fun l => l.queue ≠ p.queue.toNat && (r.targets s0 p).any (overlap l.key)) = some l →
    onCmd s r p body =
      .next (settle (answer (noteRefused (lockGate s0 p.queue.toNat (r.targets s0 p)).1 r.op stLocked) p stLocked l.queue []))) ∧
  (∀ (s s0 : State) (r : OpRule) (p : Packet) (body : State → State) (k t : LockKey), turnOf s r.op p = some s0 →
    noReplay s0 p = true → preCheck s0 r p = stOk → k ∈ (getQ s0 p.queue.toNat).expired → t ∈ r.targets s0 p → overlap k t = true →
    onCmd s r p body =
      .next (settle
        (answer (noteRefused (lockGate s0 p.queue.toNat (r.targets s0 p)).1 r.op stLockExpired) p stLockExpired 0 []))) ∧
  (∀ (s : State) (q : Nat) (keys : List LockKey),
    let t := (lockGate s q keys).1
    t = { s with cmd := t.cmd } ∧ t.cmd.locks.map (fun l => (l.queue, l.key, l.hold)) = s.cmd.locks.map (fun l => (l.queue, l.key, l.hold)) ∧
    t.cmd = { s.cmd with locks := t.cmd.locks, queues := t.cmd.queues } ∧
    ∀ l ∈ t.cmd.locks, l ∈ s.cmd.locks ∨ (l.queue = q ∧ l.since = nowQ s ∧ ∃ k ∈ keys, overlap l.key k = true))

/-- While a queue holds a lock, a write that only triggers an action is ignored and sets CMD_STS.bar_refused (R337); the submission
doorbell and the host watchdog kick are exempt. The model's choice in it: log entry 64. -/
def Obligations.TriggersAreIgnoredWhileLocked : Prop :=
  (∀ (i : Instr) (s : State), triggerRow i = true → clocked s = true → s.cmd.locks ≠ [] →
    exec i s = .next (settle { s with cmd := { s.cmd with sts := s.cmd.sts ||| 1 } })) ∧
  (∀ (s : State), clocked s = true → s.cmd.locks ≠ [] →
    exec (.rindHostwdKick 0xA5) s = .next (settle { s with rind := { s.rind with wdK := s.frame.k } })) ∧
  (∀ (q : Fin 32) (v : Word) (s : State), clocked s = true → s.cmd.locks ≠ [] → bitsAt v.toNat 0 12 < queueSize s q →
    exec (.cmdSqTailDoorbell q v) s = .next (settle (setFld s .cmdSqTail_tail q (bitsAt v.toNat 0 12))))

/-- Lane counters count to 0xFFFF_FFFF, stop there and set their bit of LANE_CNT_SAT, and touch no other register; a clear zeroes every
counter and saturation bit of the lanes it names and no other lane's (R88). -/
def Obligations.LaneCountersStopAndClear : Prop :=
  (∀ (s : State) (n k j : Nat) (r : RegName),
    (r, j) ∈ [(RegName.laneCntHdr, 0), (.laneCntStuff, 1), (.laneCntFill, 2), (.laneCntAbort, 3), (.laneCntLol, 4)] → n < 28 →
    let t := countSat s r .laneCntSat n j k
    rword t r n = min (rword s r n + k) (2 ^ 32 - 1) ∧
    (2 ^ 32 ≤ rword s r n + k → bitAt (rword t .laneCntSat n) j = true) ∧
    (rword s r n + k < 2 ^ 32 → rword t .laneCntSat n = rword s .laneCntSat n) ∧
    ∀ (r' : RegName) (i : Nat), r'.addr i ≠ r.addr n → r'.addr i ≠ RegName.laneCntSat.addr n → rword t r' i = rword s r' i) ∧
  (∀ (s : State) (m n : Nat) (r : RegName),
    r ∈ [RegName.laneCntHdr, .laneCntStuff, .laneCntFill, .laneCntAbort, .laneCntLol, .laneCntSat] → n < 28 →
    rword (laneCntClr s m) r n = if bitAt m n then 0 else rword s r n)

/-- PARAM_WRITE checks every pair before it writes any; a pair that fails leaves everything as it was, and result gives the index of the
first that fails (R338, R339); a write to an element that the capacity makes absent is ignored with ST_OK (Table 13-11, R430). The model's readings and choices in it: log entries 4, 68. -/
def Obligations.ParamWriteIsAllOrNothing : Prop :=
  (∀ (s t : State) (p : Packet) (i st : Nat),
    startOf s { op := 0x0302, lenOk := counted 1 512 2
                lockout := fun l => (pairs ((l.drop 1).map (·.toNat))).any fun x => rindClassPid x.1
                targets := fun s p => (pairs (restWords p)).flatMap fun x => pidKey s (pidOf x.1) } p = some t →
    firstFail (writeCheck t) (pairs (restWords p)) 0 = some (i, st) →
    exec (.paramWrite p) s = .next (settle (answer t p st i []))) ∧
  (∀ (f : Nat × Nat → Nat) (l : List (Nat × Nat)) (i st : Nat), firstFail f l 0 = some (i, st) ↔
    i < l.length ∧ f (l.getD i (0, 0)) = st ∧ st ≠ stOk ∧ ∀ j, j < i → f (l.getD j (0, 0)) = stOk) ∧
  (∀ (s : State) (r : RegName) (i pid v : Nat), pidOf pid = .reg r i → regPresent s r i = true → r.readOnly = true →
    writeCheck s (pid, v) = stReadOnly) ∧
  (∀ (s : State) (r : RegName) (i pid v : Nat), pidOf pid = .reg r i → regPresent s r i = false →
    writeCheck s (pid, v) = stOk ∧ ∀ q, writeParam q s (pid, v) = s) ∧
  (∀ (s : State) (pid v : Nat), pidOf pid = .bad → writeCheck s (pid, v) = stBadParam)

/-- POINT_WRITE refuses a point whose writer is not the host with ST_READ_ONLY, and a value outside the descriptor's range with ST_RANGE,
without any effect but its completion (R141). The model's readings and choices in it: log entries 4, 68. -/
def Obligations.PointWriteRefusesWithoutEffect : Prop :=
  (∀ (s t : State) (p : Packet) (i st : Nat),
    startOf s { op := 0x0312, lenOk := counted 1 256 2
                targets := fun _ p => (pairs (restWords p)).map fun x => ptKey x.1 } p = some t →
    firstFail (pointCheck t) (pairs (restWords p)) 0 = some (i, st) →
    exec (.pointWrite p) s = .next (settle (answer t p st 0 []))) ∧
  (∀ (s : State) (pa v : Nat), pa < 299008 → writerOf pa ≠ 7 → pointCheck s (pa, v) = stReadOnly) ∧
  (∀ (s : State) (pa v : Nat), pa < 299008 → writerOf pa = 7 → ptAbsent s pa = false →
    sx 16 v < h2i (getDesc s (descIdx pa)).min ∨ h2i (getDesc s (descIdx pa)).max < sx 16 v → pointCheck s (pa, v) = stRange) ∧
  (∀ pa, pa < 294912 → writerOf pa ≠ 7)

/-- The completion of Table 13-3 field by field, and where it goes: on PCIe to the completion ring with its phase bit, after the reply;
over UDP in one datagram kept for repeats; over SPI to the fetch register. A reply beyond its space ends in ST_REPLY_SPACE, with the UDP
limit as its result there (R319, R326, R330, R331); a completion that cannot be written puts its queue into ERROR with err 3 (Table 13-6). The model's readings and choices in it: log entries 60, 65. -/
def Obligations.CompletionsFollowTheirTransport : Prop :=
  (∀ (p : Packet) (ph : Bool) (st sq res k : Nat), st < 2 ^ 16 → sq < 2 ^ 16 → res < 2 ^ 32 → k < 2 ^ 32 →
    let b := completionB p ph st sq res k
    b.length = 16 ∧ fieldAt b 0 2 = p.tag.toNat ∧ byteAt b 2 = p.queue.toNat ∧ byteAt b 3 = b2n ph ∧ fieldAt b 4 2 = st ∧
    fieldAt b 6 2 = sq ∧ fieldAt b 8 4 = res ∧ fieldAt b 12 4 = k) ∧
  (∀ (s : State) (p : Packet) (st res k : Nat) (reply : List Byte), p.transport = 0 → (getQ s p.queue.toNat).mode = .active →
    p.reply < 2 ^ 64 →
    let q := p.queue.toNat
    let x := getQ s q
    let a := rword s .cmdCqBaseLo q + 2 ^ 32 * rword s .cmdCqBaseHi q + 16 * x.cqTail
    let t := deliver s p st res k reply
    let n := (x.cqTail + 1) % queueSize s q
    t.tx = s.tx ++ (if reply = [] then [] else [.dma p.reply reply]) ++ [.dma a (completionB p x.phase st x.sqHead res k)] ∧
    getQ t q = { x with cqTail := n, phase := if n = 0 then !x.phase else x.phase } ∧
    (∀ m, m ≠ q → getQ t m = getQ s m)) ∧
  (∀ (s : State) (p : Packet) (st res k : Nat) (reply : List Byte), p.transport = 0 → (getQ s p.queue.toNat).mode = .active →
    2 ^ 64 ≤ p.reply → deliver s p st res k reply = qError s p.queue.toNat 3) ∧
  (∀ (s : State) (p : Packet) (st res k : Nat) (reply : List Byte), p.transport = 1 → (getQ s p.queue.toNat).mode = .active →
    let l := completionB p false st 0 res k ++ reply
    let t := deliver s p st res k reply
    t.tx = s.tx ++ [.udp (p.reply % 2) (p.reply / 2 ^ 49) (p.reply / 2 ^ 17 % 2 ^ 32) (p.reply / 2 % 65536) l] ∧
    (getQ t p.queue.toNat).replay.getLast? = some (Done.mk p.tag p.crc l)) ∧
  (∀ (s : State) (p : Packet) (st res k : Nat) (reply : List Byte), p.transport = 2 → (getQ s p.queue.toNat).mode = .active →
    (getQ (deliver s p st res k reply) p.queue.toNat).spi = some (completionB p false st 0 res k ++ reply)) ∧
  (∀ (s : State) (p : Packet) (st res : Nat) (reply : List Byte), replySpace s p < reply.length →
    finish s p st res reply = deliver s p stReplySpace (if p.transport = 1 then udpLimit s else 0) (s.frame.k % 2 ^ 32) [])

/-- The next command comes from the highest-numbered queue that has one ready and none in execution (R321); a queue with a command in
execution starts none, a command whose turn has not come joins its queue, and one that its transport does not take has no effect but its
count of drops. The model's choice in it: log entry 4. -/
def Obligations.HighestReadyQueueStartsNext : Prop :=
  (∀ (s : State) (q : Nat), nextQueue s = some q ↔
    q < 32 ∧ queueReady s q = true ∧ ∀ m, q < m → m < 32 → queueReady s m = false) ∧
  (∀ (s : State) (r : OpRule) (p : Packet) (body : State → State), clocked s = true → served s = true → p.queue.toNat < 32 →
    (getQ s p.queue.toNat).mode = .active → (getQ s p.queue.toNat).ready = [] → ∀ t, arrives s p = (true, t) →
    mayStart t p.queue.toNat = false → replayOf t p = none →
    onCmd s r p body = .next (settle (enqueue t p.queue.toNat (BitVec.ofNat 16 r.op, p)))) ∧
  (∀ (s : State) (r : OpRule) (p : Packet) (body : State → State), clocked s = true → served s = true → p.queue.toNat < 32 →
    (getQ s p.queue.toNat).ready = [] → ∀ t, arrives s p = (false, t) →
    onCmd s r p body = .next (settle t) ∧ (t = s ∨ t = dropped s p.queue.toNat)) ∧
  (∀ (s : State) (q : Nat), executing s q = true → mayStart s q = false)

/-- CONV_START without one of the start conditions is turned away with ST_CONV_STATE and start_refused; the conditions hold of every start
that is taken (R238). A standby takes no start, stop or restart. The model's readings and choices in it: log entries 4, 71. -/
def Obligations.StartsNeedTheirConditions : Prop :=
  (∀ (s t : State) (p : Packet),
    startOf s { op := 0x0501, lockout := always, standby := true, holdBus := always, targets := headerKey } p = some t →
    t.boot.holdBus = false → t.mode.conv = .parked → startOk t = false →
    exec (.convStart p) s = .next (settle (answer (setFld t .modeSts_start_refused 0 1) p stConvState 0 []))) ∧
  (∀ s : State, startOk s = true → s.power.mode = .run ∧ reqSvc s ≠ 3 ∧
    (∀ n x, (n, x) ∈ s.rind.src → x.live = true → appliedOf s n x.detail < 3) ∧
    (∀ b, b ∈ presentBrs s → (getBr s b).disc = .done) ∧
    allLocked s = true ∧ (reqSvc s = 2 → fld0 s .modeTestCfg_branches ≠ 0) ∧
    (reqGrid s = 2 → ∃ v, rtSrc s 0 = some v ∧ v ≤ q15 s .modeBsCfg_v_dead)) ∧
  (∀ s : State, standby s = true → (convStart s).2 = false ∧ (convStop s).2 = false ∧ ∀ b, (convRestart s b).2 = false)

/-! ### Completion: chapters 02 and 03 -/

/-- Frame boundaries, snapshots, prepare phases, edge list sends and the latching reads of the frame count run while the core clock runs
(R36, R43 to R45, R51, R52, R55, Tables 02-10 and 02-11). The model's readings and choices in it: log entries 8, 10, 11, 12. -/
def Obligations.FrameRowsComplete : Prop :=
  (∀ s, clocked s = true → s.frame.running = true →
    exec .frameBoundary s =
      .next (settle (boundary (modCk (clearTx s) fun x => { x with sync := [none, none, none, none] })))) ∧
  (∀ s, clocked s = true → s.frame.running = false →
    exec .frameBoundary s =
      .next (settle (firstFrame (modCk (clearTx s) fun x => { x with sync := [none, none, none, none] })))) ∧
  (∀ s, clocked s = true → s.frame.running = true → s.frame.snapped = false →
    exec .frameSnapshot s =
      .next (settle (compute (snapBranches (applyMirror (takeConv (holdSnapshot (snapIntake s)))) (decided s))))) ∧
  (∀ s, clocked s = true → s.frame.snapped = true →
    let s1 := spillRecord (traceRecord (keepShadow s))
    (s1.power.mode = .run → s1.power.entering = false →
      exec .preparePhase s = .next (settle (level1Prepare (pressPrepare (sendImage (planAhead (sendMirror s1))))))) ∧
    (s1.power.mode ≠ .run ∨ s1.power.entering = true → exec .preparePhase s = .next (settle s1))) ∧
  (∀ (c : Cell) s, clocked s = true → mayList s c = true → (getCh s c).newCmd = true →
    exec (.harpListSend c) s = .next (settle (freshSend s c))) ∧
  (∀ (c : Cell) s, clocked s = true → mayList s c = true → (getCh s c).newCmd = false →
    exec (.harpListSend c) s = .next (settle (staleSend s c))) ∧
  (∀ (c : Cell) s, clocked s = true → mayList s c = true → (getCh s c).newCmd = false → 2 ≤ (getCh s c).staleCount →
    exec (.staleThirdFrame c) s = .next (settle (staleThird s c))) ∧
  (∀ s, clocked s = true →
    exec .stuFrmCntLoRead s = .next (settle (readsOut (frmCntRead s).2 [(frmCntRead s).1]))) ∧
  (∀ s, clocked s = true →
    exec .stuFrmEpochSRead s = .next (settle (readsOut (frmEpochRead s).2 [(frmEpochRead s).1])))

/-- Training, link status, idle, lock, buffer faults, training checks, retries, keep-alives and PARK repeats of a lane (R65, R67, R73, R81
to R86, R102). A run of slabs is first received, and a valid EIDLE in any run is acted on there; what the other messages in it do comes on top. Out of lock, 16 valid headers in a row give lock;
a part, a LINK or bulk starts only while nothing is in progress and no PARK or burst waits, and a MARK goes before them (R74). The model's
readings and choices in it: log entries 9, 12, 102. -/
def Obligations.LaneEventsComplete : Prop :=
  (∀ (n : LaneNo) s, clocked s = true → lanePresent s n = true →
    exec (.train (.lane n)) s = .next (settle (modLane s n fun x => { x with sig := true }))) ∧
  (∀ (n : LaneNo) r t l s, clocked s = true → receive s n (fun _ => 10) r = (t, [(.link, l)]) → lstatValid l = true →
    exec (.lstat (.lane n) (.slabs r)) s = .next (settle (modLane t n fun x => { x with linkSeen := true }))) ∧
  (∀ (n : LaneNo) r s, clocked s = true → exec (.eidle (.lane n r)) s = .next (settle (receive s n (fun _ => 10) r).1)) ∧
  (∀ (n : Nat) want b s,
    let t := setAwait s n false
    rxContent want s n (.slab .eidle b) = (heardIdle t n, [(.eidle, b)]) ∧
    ((getLane t n).mode = .up ∨ (getLane t n).mode = .degraded →
      heardIdle t n = modLane (toIdle t n) n fun x => { x with eqHeld := true, eidleSeen := true, sig := false, sinceKeep := 0 }) ∧
    ((getLane t n).mode ≠ .up → (getLane t n).mode ≠ .degraded →
      heardIdle t n =
        modLane (abortPart t n) n fun x => { x with eqHeld := true, eidleSeen := true, sig := false, sinceKeep := 0 })) ∧
  (∀ (n : LaneNo) r s, clocked s = true →
    exec (.slabLockGained ⟨n, r⟩) s = .next (settle (receive s n (fun _ => 10) r).1) ∧
    exec (.slabLockLost ⟨n, false, r⟩) s = .next (settle (receive s n (fun _ => 10) r).1)) ∧
  (∀ (n : LaneNo) r s, clocked s = true → lanePresent s n = true →
    exec (.slabLockLost ⟨n, true, r⟩) s =
      .next (settle (lockLost (modLane (receive s n (fun _ => 10) r).1 n fun x => { x with sig := false }) n))) ∧
  (∀ (n : LaneNo) s, clocked s = true → lanePresent s n = true →
    exec (.elasticBufferFault n) s = .next (settle (bufferFault s n))) ∧
  (∀ (n : LaneNo) s, clocked s = true → (getLane s n).mode = .training → (getLane s n).trained = false →
    (getLane s n).retry = false → (getLane s n).lock = true → (getLane s n).linkSeen = true ∨ n.val = 24 ∨ n.val = 25 →
    ((getLane s n).keepAlive = false →
      exec (.trainingCheckPoint n) s = .next (settle
        (modLane (modLane s n fun x => { x with fails := 0 }) n fun x => { x with trained := true }))) ∧
    ((getLane s n).keepAlive = true → exec (.trainingCheckPoint n) s =
      .next (settle (send (toIdle (modLane s n fun x => { x with fails := 0 }) n) (.lane n .eidle []))))) ∧
  (∀ (n : LaneNo) s, clocked s = true → (getLane s n).mode = .training → (getLane s n).trained = false →
    (getLane s n).retry = false → (getLane s n).lock = false →
    exec (.trainingCheckPoint n) s = .next (settle (attemptFailed s n))) ∧
  (∀ (n : LaneNo) s, clocked s = true → (getLane s n).mode = .down → flag s .laneCfg_enable n = true →
    63 ≤ (getLane s n).sinceTry → lanePresent s n = true → s.boot.ready = true →
    exec (.laneRetry n) s = .next (settle (modLane s n fun x => { x with retry := true }))) ∧
  (∀ (n : LaneNo) r s, clocked s = true →
    let t := (receive s n (fun _ => 10) r).1
    t.power.mode = .idle → (getLane t n).mode = .eidle → n.val ≠ 24 → n.val ≠ 25 →
    fld t .laneCfg_keepalive n ≠ 0 → fld t .laneCfg_keepalive n ≤ (getLane t n).sinceKeep + 1 →
    exec (.keepAlive n r) s = .next (settle (modLane t n fun x => { x with retry := true }))) ∧
  (∀ (n : LaneNo) l s, clocked s = true → (getLane s n).parkPend = some l →
    exec (.parkIdleRepeat n) s = .next (settle (send s (.lane n .park l)))) ∧
  (∀ (n : LaneNo) s, (getLane s n).lock = false →
    (lockNeed (laneCoding s n) ≤ (getLane s n).rx.good + 1 → rxHead s n true = lockGained s n) ∧
    rxHead s n false = modRx s n fun r => { r with good := 0 }) ∧
  (lockNeed false = 16 ∧ lossLimit false = 8) ∧
  (∀ x b64 q m, nextMessage x b64 q = some m → m ∈ q ∧ (m.1 ≠ .park → m.1 ≠ .train → x.cur = [] ∧ ∀ y ∈ q, y.1 ≠ .park ∧ y.1 ≠ .train) ∧
    (m.1 = .link ∨ m.1 = .first → ∀ y ∈ q, y.1 = .mark → 1023 < x.gap + (slabsOf b64 .mark y.2).length))

/-- A health window adds its counts, takes its equaliser steps or holds, and judges the lane by its invalid headers: an UP lane goes DOWN at
the failing count and DEGRADED at the degrading one, and a DEGRADED lane is UP again after its second good window (R76, R77, R86, R88). The
model's readings and choices in it: log entries 9, 12, 102. -/
def Obligations.HealthWindowsComplete : Prop :=
  ∀ (n : LaneNo) (hdr st fi : Nat) (steps : List EqStep) s, clocked s = true → lanePresent s n = true →
    let errs := hdr + (getLane s n).rx.errs
    let counted := countSat (countSat (countSat s .laneCntHdr .laneCntSat n 0 hdr) .laneCntStuff .laneCntSat n 1 st)
      .laneCntFill .laneCntSat n 2 fi
    let t := eqWindow counted n steps
    ((getLane counted n).rx.eqFree = false → eqIsHeld counted n = true → t = eqWindow counted n []) ∧
    ((getLane counted n).rx.eqFree = true ∨ eqIsHeld counted n = false →
      t = eqWindow (steps.foldl (eqTake n) counted) n []) ∧
    ((getLane s n).mode ≠ .up → (getLane s n).mode ≠ .degraded →
      exec (.laneHealthWindow n hdr st fi steps) s = .next (settle t)) ∧
    ((getLane s n).mode = .up ∨ (getLane s n).mode = .degraded → failHdr s ≤ errs →
      exec (.laneHealthWindow n hdr st fi steps) s = .next (settle (laneDown t n))) ∧
    ((getLane s n).mode = .up → errs < failHdr s → degrHdr s ≤ errs →
      exec (.laneHealthWindow n hdr st fi steps) s = .next (settle (degrade t n))) ∧
    ((getLane s n).mode = .up → errs < failHdr s → errs < degrHdr s → eyeGood s n = true →
      exec (.laneHealthWindow n hdr st fi steps) s = .next (settle t)) ∧
    ((getLane s n).mode = .degraded → errs < failHdr s → errs < degrHdr s → 1 ≤ (getLane s n).goodWins → eyeGood s n = true →
      exec (.laneHealthWindow n hdr st fi steps) s =
        .next (settle (setC (modLane t n fun x => { x with mode := .up, goodWins := 0 }) (130 + n) false 0)))

/-- Eye scans: a completed map goes to the Cave and its height and width are taken over; start and stop of a scan; the lane counter clear
and the commit of block 2 (R61, R78 to R80, R88). The model's readings and choices in it: log entries 8, 12, 78, 103, 129. -/
def Obligations.EyeAndLaneWritesComplete : Prop :=
  (∀ (n : LaneNo) tick counts e s, clocked s = true → (getLane s n).scan = some e → (getLane s n).mode = .degraded →
    let d := min tick s.frame.ticks
    scanPoint { e with elapsed := e.elapsed + d } = 8192 → flag s .laneEyeCtl_continuous n = false →
    let m := eyeB n e.start (nowQ s + d) e.eq e.dwell (min 0xFFFF e.paused) e.coding (eyeOf counts) counts
    exec (.eyeMapComplete n tick counts) s = .next (settle (countFld
      (modLane (dumpEyes { s with cave := { s.cave with eyeDump := s.cave.eyeDump ++ [(n.val, m)] } }) n fun x => { x with
        eye := some (eyeOf counts), scan := none }) .laneEyeCtl_map_count n))) ∧
  (∀ (n : LaneNo) (v : Word) s, clocked s = true → s.cmd.locks = [] → lanePresent s n = true →
    let t := setFld (setFld s .laneEyeCtl_continuous n (bitsAt v.toNat 3 1)) .laneEyeCtl_dwell_exp n (bitsAt v.toNat 4 5)
    (getLane s n).scan = none → exec (.laneEyeCtlStart n v) s = .next (settle (startScan t n))) ∧
  (∀ (n : LaneNo) s, clocked s = true → s.cmd.locks = [] →
    exec (.laneEyeCtlStop n) s = .next (settle (modLane s n fun x => { x with scan := none }))) ∧
  (∀ (m : Word) s, clocked s = true → s.cmd.locks = [] →
    exec (.laneCntClr m) s = .next (settle (laneCntClr s m.toNat))) ∧
  (∀ s, clocked s = true → s.cmd.locks = [] → exec .laneCommit s = .next (settle (commitLanes s)))

/-! ### Completion: chapter 04 -/

/-- What the device does with uplinks, marks and time errors of a cell in the map, with splits that heal, and with what discovery hears
(R41, R43, R100, R101, R103, R108, R110, R111, R113, R118, R227, R417); a run of slabs is first received. At a cell node the same rows go
on upstream (R94, R95). The model's readings and choices in it: log entries 9, 12, 18, 20, 102. -/
def Obligations.WheyEventsComplete : Prop :=
  (∀ (c : Cell) (n : LaneNo) r t l s, clocked s = true → n.val / 2 = c.val / 48 →
    receive s n (fun _ => 10) r = (t, [(.last, l)]) → standby t = false → (getLink t c).inMap = true →
    exec (.uplinkHead c (.lane n r)) s = .next (settle (modLink t c fun x => { x with head := some (l.take 80) }))) ∧
  (∀ (c : Cell) (n : LaneNo) r t l s, clocked s = true → n.val / 2 = c.val / 48 →
    receive s n (fun _ => 10) r = (t, [(.last, l)]) → standby t = true → (getBr t (c / 48)).relay = true →
    exec (.uplinkHead c (.lane n r)) s =
      .next (settle (peerOut t .first (leB 1 0x11 ++ leB 1 (c.val / 48) ++ l.take 80)))) ∧
  (∀ (c : Cell) (n : LaneNo) r t l h s, clocked s = true → n.val / 2 = c.val / 48 →
    receive s n (fun _ => 6) r = (t, [(.last, l)]) → standby t = false → (getLink t c).inMap = true → t.frame.snapped = false →
    (getLink t c).head = some h → uplinkOk t c h (l.take 48) = true →
    exec (.uplinkTail c (.lane n r)) s = .next (settle (uplinkAccept t c h (l.take 48)))) ∧
  (∀ (c : Cell) (n : LaneNo) r t l s, clocked s = true → n.val / 2 = c.val / 48 →
    receive s n (fun _ => 6) r = (t, [(.last, l)]) → standby t = true → (getBr t (c / 48)).relay = true →
    exec (.uplinkTail c (.lane n r)) s =
      .next (settle (peerOut t .first (leB 1 0x11 ++ leB 1 (c.val / 48) ++ l.take 48)))) ∧
  (∀ (c : Cell) a (n : LaneNo) r t l s, clocked s = true → n.val < 24 → n.val / 2 = c.val / 48 →
    receive s n (fun _ => 10) r = (t, [(.mark, l)]) → standby t = false → (getLink t c).inMap = true → t.clk.onSafe = false →
    let m := shortOf (laneCoding t n) l
    shortOk (laneCoding t n) m = true → byteAt m 0 % 16 = 2 → byteAt m 1 = c.val % 48 →
    exec (.uMark c a (.lane n r)) s =
      .next (settle (modLink t c fun x => { x with umark := some (a, sx 32 (fieldAt m 2 4)) }))) ∧
  (∀ (c x : Cell) p l s,
    exec (.uplinkHead c (.node x p l)) s = .next (fwdUp s x p .first l) ∧
    exec (.uplinkTail c (.node x p l)) s = .next (fwdUp s x p .first l) ∧
    exec (.bulkReadRsp c (.node x p l)) s = .next (fwdUp s x p .bulk l) ∧
    exec (.bulkWriteAck c (.node x p l)) s = .next (fwdUp s x p .bulk l) ∧
    exec (.bulkError c (.node x p l)) s = .next (fwdUp s x p .bulk l)) ∧
  (∀ (c x : Cell) a p l s, shortOk (getNode s x).coding l = true →
    exec (.uMark c a (.node x p l)) s =
      .next (fwdUp (draw s).2 x p .mark (markPlus (getNode s x).coding l (draw s).1))) ∧
  (∀ (c : Cell) s, clocked s = true → (getLink s c).inMap = true → 3 ≤ (getLink s c).missUp →
    exec (.uplinkLoss c) s = .next (settle (setC s (cellSrc c 1) true (BitVec.ofNat 32 c)))) ∧
  (∀ (c : Cell) s, clocked s = true → 8 ≤ (getLink s c).terrRun →
    exec (.wlTimeError c) s = .next (settle (setC s (cellSrc c 3) true (BitVec.ofNat 32 (ux 32 (getLink s c).terr))))) ∧
  (∀ (b : Br) s, clocked s = true → flag s .wlBrCfg_auto_resplit b = true → (getBr s b).resplit = true →
    (getBr s b).broken = false → 64 ≤ (getBr s b).healed → targetSplit s b = splitGoal s b →
    exec (.resplitHeal b) s = .next (settle (modBr s b fun y => { y with resplit := false }))) ∧
  (∀ (b : Br) s, clocked s = true → flag s .wlBrCfg_auto_resplit b = true → (getBr s b).resplit = true →
    (getBr s b).broken = false → 64 ≤ (getBr s b).healed → targetSplit s b ≠ splitGoal s b →
    exec (.resplitHeal b) s = .next (settle (resplitTo (modBr s b fun y => { y with resplit := false }) b (targetSplit s b)))) ∧
  (∀ (b : Br) e r t l k s, clocked s = true → receive s (2 * b + b2n e) (fun _ => 10) r = (t, [(.link, l)]) →
    enumHeard l false = some k → standby t = false → (getBr t b).disc = .enumerating →
    exec (.enumAtOppositeEnd b e r) s = .next (settle (modBr t b fun x =>
      if e then { x with enumB := some k } else { x with enumA := some k }))) ∧
  (∀ (b : Br) e r t l k s, clocked s = true → receive s (2 * b + b2n e) (fun _ => 10) r = (t, [(.link, l)]) →
    enumHeard l false = some k → standby t = true →
    exec (.enumAtOppositeEnd b e r) s = .next (settle (standbyEnum t b k))) ∧
  (∀ (b : Br) e r t l k s, clocked s = true → receive s (2 * b + b2n e) (fun _ => 10) r = (t, [(.link, l)]) →
    enumHeard l true = some k → (getBr t b).disc = .enumerating →
    exec (.enumEndReply b e r) s = .next (settle (modBr t b fun x =>
      if e then { x with replyB := some k } else { x with replyA := some k }))) ∧
  (∀ s, clocked s = true → s.boot.ready = true → s.frame.running = true →
    exec .discoveryStart s =
      .next (settle ((presentBrs s).foldl (fun t b => if (getBr t b).disc = .idle then startDisc t b else t) s))) ∧
  (∀ (b : Br) s, clocked s = true → (getBr s b).disc = .acquiring → ((mapCells s b).all fun c => (getLink s c).timeLocked) = true →
    discMismatch s b = false →
    exec (.discoveryComplete b) s = .next (settle (discEnds
      (setC (modBr s b fun x => { x with mapDone := true }) (254 + b) false (BitVec.ofNat 32 b)) b .done)))

/-- Bulk answers end the outstanding request of their cell; a request without an answer is repeated up to three times, then counted and
ended (R105, R106); a run of slabs is first received. Writes of the Whey block and its counters (R119). The model's choices in it: log
entries 12, 102. -/
def Obligations.WheyBulkAndWritesComplete : Prop :=
  (∀ (c : Cell) (n : LaneNo) r t l x s, clocked s = true → n.val / 2 = c.val / 48 →
    receive s n (fun _ => 10) r = (t, [(.bulk, l)]) → standby t = false → (getLink t c).bulk = some x →
    fieldAt l 2 2 = x.tag.toNat →
    (x.write = false → x.len = byteAt l 7 → bulkOk l 0x81 x.len = true →
      exec (.bulkReadRsp c (.lane n r)) s = .next (settle (bulkEnd t c (.data ((l.drop 8).take x.len))))) ∧
    (x.write = true → bulkOk l 0x82 0 = true →
      exec (.bulkWriteAck c (.lane n r)) s = .next (settle (bulkEnd t c .ack))) ∧
    (bulkOk l 0xC0 1 = true →
      exec (.bulkError c (.lane n r)) s = .next (settle (bulkEnd t c (.error (byteAt l 8)))))) ∧
  (∀ (c : Cell) x s, clocked s = true → (getLink s c).bulk = some x → x.tries < 3 →
    exec (.bulkTimeout c) s = .next (settle (sendBulk
      (modLink s c fun z => { z with bulk := some { x with tries := x.tries + 1 } }) c { x with tries := x.tries + 1 }))) ∧
  (∀ (c : Cell) x s, clocked s = true → (getLink s c).bulk = some x → 3 ≤ x.tries →
    exec (.bulkTimeout c) s = .next (settle (bulkEnd (countSat s .wlCntBulkto .wlCntSat (c / 48) 2 1) c .timeout))) ∧
  (∀ s, clocked s = true → s.cmd.locks = [] → holdBusBlock s 3 = false →
    exec .wheyLinkCommit s = .next (settle (stageBlock s 3 fun _ _ => true))) ∧
  (∀ (m : Word) s, clocked s = true → s.cmd.locks = [] →
    exec (.wlCntClr m) s = .next (settle ((below 12 (bitAt m.toNat)).foldl clearWlCounts s))) ∧
  (∀ (m : BitVec 12) s, clocked s = true → s.cmd.locks = [] →
    exec (.wlDiscCtlStart m) s = .next (settle ((below 12 (bitAt m.toNat)).foldl startDisc s)))

/-- Power-up, ports, boundaries, edges, time lock, the bypass and the trip channels of a cell node (R48, R82, R84, R98, R110, R115, R116,
R165, Table 04-12). The frame count after power-up is a free value. The model's readings and choices in it: log entries 21, 22,
81, 102, 105. -/
def Obligations.NodeEventsComplete : Prop :=
  (∀ (c : Cell) s, exec (.nodePowerUp c) s = .next (modNode (drawBelow s (2 ^ 48)).2 c fun x =>
    { Node.zero with present := true, byClosed := x.byClosed, k := (drawBelow s (2 ^ 48)).1 })) ∧
  (∀ (c : Cell) pB s, exec (.nodePortUp c pB) s = .next (modNode s c fun x => { x with
      portUp := x.portUp ||| (if pB then 2 else 1)
      portSig := x.portSig ||| (if pB then 2 else 1)
      mode := if x.mode = .init then .unaddr else x.mode })) ∧
  (∀ (c : Cell) x v s,
    exec (.nodeFrameBoundary c x v) s = .next (modNode (portFlush s c) c fun y => nodeBoundary y x v)) ∧
  (∀ (c : Cell) s, (getNode s c).mode = .run → 3 ≤ (getNode s c).miss →
    exec (.nodeListMiss c) s = .next (modNode s c toSafe)) ∧
  (∀ (c : Cell) pB tick bytes s, transparent (getNode s c) = false → byteAt bytes 0 % 64 = (getNode s c).pos →
    (getNode s c).counted = false ∨ (listOf bytes).kLo.toNat = (getNode s c).k % 65536 →
    ((getNode s c).token.map (·.1)) = some (listOf bytes).holder → ((getNode s c).serve.map (·.1)) = some pB →
    tick < (getNode s c).ticks → (getNode s c).rxList = none →
    listFormOk bytes (windowTicks (getNode s c) ((getNode s c).k + 1)) = true →
    exec (.edgeList c pB tick bytes) s = .next (modNode s c fun y => { y with
      rxList := some (listOf bytes, y.ticks - tick)
      path := some (listOf bytes).path
      ignoreMarks := false
      counted := true
      k := if y.counted then y.k else y.k - y.k % 65536 + (listOf bytes).kLo.toNat })) ∧
  (∀ (c : Cell) i d e s, (schedule (getNode s c))[i]? = some e → (getNode s c).mode = .run → i ∉ (getNode s c).fired →
    exec (.edgeFire c i d) s = .next (modNode s c fun x => { fireEdge x e d with fired := i :: x.fired })) ∧
  (∀ (c : Cell) s, (getNode s c).locked = false → 16 ≤ (getNode s c).good →
    exec (.nodeTimeLockAcquired c) s = .next (modNode s c fun x => { x with locked := true })) ∧
  (∀ (c : Cell) s, (getNode s c).locked = true → 4 ≤ (getNode s c).bad ∨ 1024 ≤ (getNode s c).noMark →
    (getNode s c).mode ≠ .run →
    exec (.nodeTimeLockLost c) s = .next (modNode s c fun x => { x with locked := false, good := 0 })) ∧
  (∀ (c : Cell) s, (getNode s c).locked = true → 4 ≤ (getNode s c).bad ∨ 1024 ≤ (getNode s c).noMark →
    (getNode s c).mode = .run →
    exec (.nodeTimeLockLost c) s = .next (modNode s c fun x => toSafe { x with locked := false, good := 0 })) ∧
  (∀ (c : Cell) v s, (getNode s c).mode ≠ .init →
    Config.nodeByte c 20 % 256 + 256 * (Config.nodeByte c 21 % 256) < v →
    exec (.nodeDcOverLimit c v) s = .next (modNode s c fun x => startClose (toSafe x))) ∧
  (∀ (c : Cell) r p s, slotPort (getNode s c) = some p →
    let x := getNode s c
    let h := match x.token with | some (b, _) => b2n b | none => 0
    let m := markB x.coding (leB 1 (2 + 16 * h) ++ leB 1 x.pos ++ leB 4 0)
    exec (.nodeHeadSlot c r) s = .next (modNode (sendOwn s c p [(.mark, m), (.first, nodeHead x p r)]) c
      fun y => { y with headSent := some (nodeHead x p r), tOn := [], tOff := [], ilock := 0, tripSince := 0 })) ∧
  (∀ (c : Cell) p hd s, slotPort (getNode s c) = some p → (getNode s c).headSent = some hd →
    let x := getNode s c
    let l := leB 2 x.k ++ ((List.range 20).flatMap fun i => leB 2 (x.samples.getD i 0).toNat) ++ leB 2 x.tsts.toNat
    exec (.nodeTailSlot c) s = .next (sendOwn (modNode s c fun y => { y with headSent := none }) c p
      [(.first, l ++ leB 4 (crc32 (hd ++ l)).toNat)])) ∧
  (∀ (c : Cell) s, (getNode s c).byClosing = true → (getNode s c).gates.toNat % 16 = 0 →
    exec (.bypassCloseConfirm c) s = .next (modNode s c fun x => { x with byClosed := true, byClosing := false })) ∧
  (∀ (c : Cell) s, exec (.bypassCloseTimeout c) s = .next (modNode s c fun x => { x with byClosing := false })) ∧
  (∀ (c : Cell) ch s, exec (.cellSideTrip c ch) s = .next (modNode s c fun x => tripNode x ch)) ∧
  (∀ (c : Cell) ch s, exec (.cellSideTripRelease c ch) s =
    .next (modNode s c fun x => modTrip x ch fun t => { t with active := false })) ∧
  (∀ (c : Cell) p s, exec (.train (.node c p)) s = .next (send (modNode s c fun x => { x with
      portUp := x.portUp ||| (if p then 2 else 1)
      portSig := x.portSig ||| (if p then 2 else 1)
      mode := if x.mode = .init then .unaddr else x.mode }) (.nodeTrain c p))) ∧
  (∀ (c : Cell) p bytes s, lstatValid bytes = true →
    exec (.lstat (.node c p) (.bytes bytes)) s = .next (send s (.node c p (linkB 7 0x41 (leB 1
      (b2n ((getNode s c).portUp.getLsbD (b2n p)) + 2 * b2n ((getNode s c).portUp.getLsbD (1 - b2n p)))))))) ∧
  (∀ (c : Cell) p bytes s, exec (.eidle (.node c p bytes)) s = .next (modNode s c fun x => { x with
      portSig := x.portSig &&& ~~~(if p then 2 else 1)
      portUp := x.portUp &&& ~~~(if p then 2 else 1) }))

/-- What a node does with messages that name it: LINK messages, PARK, D-MARK and bulk requests (R75, R94, R101 to R106, R109, R110, Table
04-12). A LINK message that is not hop-addressed to the node goes on besides. While a port sends own content, what it forwards waits in its
FIFO, and is dropped and counted where that is full; its own content waits behind what it sends; a PARK aborts both (R75, R95). The model's readings and choices in it: log entries 21, 81, 82.
-/
def Obligations.NodeMessagesComplete : Prop :=
  (∀ (c : Cell) pB bytes s, linkOk bytes 2 = true → hopForMe (getNode s c) pB (byteAt bytes 1) = true →
    bitAt (byteAt bytes 1) 7 = false → (getNode s c).mode ≠ .run → (getNode s c).mode ≠ .init →
    exec (.setpos c pB bytes) s = .next (modNode s c fun x => { gatesOff x with
      mode := .parked, pos := byteAt bytes 2, nb := byteAt bytes 3, miss := 0, armAt := none
      serve := some (pB, false), splitOn := false, splitNext := none, path := none })) ∧
  (∀ (c : Cell) pB bytes s, linkOk bytes 3 = true → bitAt (byteAt bytes 1) 7 = true → transparent (getNode s c) = false →
    exec (.split c pB bytes) s = .next (modNode (fwdAcross s c pB bytes) c fun x => { x with
      splitNext := some (byteAt bytes 2, k16 bytes 3) })) ∧
  (∀ (c : Cell) pB bytes s, linkOk bytes 4 = true → bitAt (byteAt bytes 1) 7 = true → (getNode s c).token = none →
    exec (.role c pB bytes) s = .next (modNode (fwdAcross s c pB bytes) c fun x => { x with
      token := some (bitAt (byteAt bytes 2) 0, k16 bytes 3) })) ∧
  (∀ (c : Cell) pB bytes h old s, linkOk bytes 4 = true → bitAt (byteAt bytes 1) 7 = true → (getNode s c).token = some (h, old) →
    1 ≤ (k16 bytes 3 + 65536 - old) % 65536 → (k16 bytes 3 + 65536 - old) % 65536 ≤ 32767 →
    exec (.role c pB bytes) s = .next (modNode (fwdAcross s c pB bytes) c fun x => { x with
      token := some (bitAt (byteAt bytes 2) 0, k16 bytes 3) })) ∧
  (∀ (c : Cell) pB bytes s, linkOk bytes 5 = true → bitAt (byteAt bytes 1) 7 = true →
    ((getNode s c).mode = .parked ∨ (getNode s c).mode = .safe) → (getNode s c).locked = true →
    (getNode s c).token.isSome = true → (getNode s c).splitOn = true →
    exec (.arm c pB bytes) s = .next (modNode (fwdAcross s c pB bytes) c fun x => { x with armAt := some (k16 bytes 2) })) ∧
  (∀ (c : Cell) pB bytes s, linkOk bytes 6 = true → bitAt (byteAt bytes 1) 7 = true → byteAt bytes 2 ≤ 2 →
    (k16 bytes 4, byteAt bytes 2, byteAt bytes 3, fieldAt bytes 6 4) ∉ (getNode s c).announce →
    exec (.announce c pB bytes) s = .next (modNode (fwdAcross s c pB bytes) c fun x => { x with
      announce := x.announce ++ [(k16 bytes 4, byteAt bytes 2, byteAt bytes 3, fieldAt bytes 6 4)] })) ∧
  (∀ (c : Cell) pB bytes s, linkOk bytes 8 = true → bitAt (byteAt bytes 1) 7 = true → (getNode s c).mode ≠ .run →
    exec (.settime c pB bytes) s = .next (modNode (fwdAcross s c pB bytes) c fun x => { x with
      err := x.err + 64 * sx 32 (fieldAt bytes 2 4) })) ∧
  (∀ (c : Cell) pB bytes s, (getNode s c).coding = false → shortOk false bytes = true → byteAt bytes 0 % 64 = 0x3F →
    (getNode s c).pos ≠ 0x3F → transparent (getNode s c) = false →
    exec (.park c pB bytes) s = .next (modNode (fwdPark s c pB bytes) c fun y => { gatesOff y with
      mode := .parked, armAt := none })) ∧
  (∀ (c : Cell) pB bytes s, (getNode s c).coding = false → shortOk false bytes = true → byteAt bytes 0 % 64 = (getNode s c).pos →
    transparent (getNode s c) = false →
    exec (.park c pB bytes) s = .next (modNode (fwdPark s c pB bytes) c fun y =>
      if bitAt (byteAt bytes 0) 6 then startClose { gatesOff y with mode := .parked, armAt := none }
      else { gatesOff y with mode := .parked, armAt := none })) ∧
  (∀ (c : Cell) pB (rx : Int) bytes p s, shortOk (getNode s c).coding bytes = true → byteAt bytes 0 % 16 = 1 →
    transparent (getNode s c) = false → ((getNode s c).serve.map (·.1)) = some pB →
    ((getNode s c).token.map (·.1)) = some (bitAt (byteAt bytes 0) 4) → (getNode s c).ignoreMarks = false →
    (getNode s c).path = some p →
    let corr := sx 32 (fieldAt bytes 2 4)
    let e := rx - corr - p
    exec (.dMark c pB rx bytes) s = .next (modNode (fwdDown (draw s).2 c pB .mark
        (markB (getNode s c).coding (bytes.take 2 ++ leB 4 (ux 32 (corr + (draw s).1))))) c fun y =>
      unlockCheck (lockCheck { y with
        markRx := rx
        corrDn := corr
        noMark := 0
        len := if y.locked then y.len else s.frame.len
        err := if y.mode = .run then e - clampI (-8) 8 e else 0
        good := if absI e ≤ 64 then min 16 (y.good + 1) else 0
        bad := if 128 < absI e then min 4 (y.bad + 1) else 0 }))) ∧
  (∀ (c : Cell) pB bytes d s, bitAt (byteAt bytes 0) 6 = false → transparent (getNode s c) = false →
    byteAt bytes 0 % 64 = (getNode s c).pos → bulkOk bytes 1 0 = true →
    (nodeRead s c (fieldAt bytes 4 3) (byteAt bytes 7)).1 = some d →
    exec (.bulkRead c pB bytes) s = .next (sendOwn (nodeRead s c (fieldAt bytes 4 3) (byteAt bytes 7)).2 c pB
      [(.bulk, bulkB (byteAt bytes 0 % 128) 0x81 (BitVec.ofNat 16 (fieldAt bytes 2 2)) (fieldAt bytes 4 3) (byteAt bytes 7) d)])) ∧
  (∀ (c : Cell) pB bytes y s, bitAt (byteAt bytes 0) 6 = false → transparent (getNode s c) = false →
    byteAt bytes 0 % 64 = (getNode s c).pos → bulkOk bytes 2 (byteAt bytes 7) = true →
    nodeWrite (getNode s c) (fieldAt bytes 4 3) ((bytes.drop 8).take (byteAt bytes 7)) = (y, 0) →
    exec (.bulkWrite c pB bytes) s = .next (sendOwn (modNode s c fun _ => y) c pB
      [(.bulk, bulkB (byteAt bytes 0 % 128) 0x82 (BitVec.ofNat 16 (fieldAt bytes 2 2)) (fieldAt bytes 4 3) (byteAt bytes 7) [])])) ∧
  (∀ (s : State) (c : Nat) (p : Bool) (t : SlabType) (l : List Byte),
    let x := getNode s c
    let q := getPort x p
    (q.own ≠ 0 ∨ q.fifo ≠ [] → slabSum x.coding q.fifo + slabCount x.coding [(t, l)] ≤ fifoSize x c →
      forward s c p t l = modNode s c fun x => modPort x p fun q => { q with fifo := q.fifo ++ [[(t, l)]] }) ∧
    (q.own ≠ 0 ∨ q.fifo ≠ [] → fifoSize x c < slabSum x.coding q.fifo + slabCount x.coding [(t, l)] →
      forward s c p t l = modNode s c fun x => { x with fwdDrop := satInc 0xFFFF x.fwdDrop }) ∧
    (q.fwd ≠ 0 ∨ q.own ≠ 0 → ∀ ls, sendOwn s c p ls = modNode s c fun x => modPort x p fun q => { q with wait := waitIn q.wait ls }) ∧
    getPort (getNode (parkOut s c p l) c) p = { q with own := 0, fwd := 3, parts := [] })

/-! ### Completion: chapters 05 to 08 -/

/-- Curd rows: decimator outputs of a running input, stuck inputs, filtered pin levels (a GPIO that the device drives follows its output),
and the hygiene runs of an input point (R128, R135, R137, R139, R142, R445). The
model's readings and choices in it: log entries 9, 12, 14, 69, 132. -/
def Obligations.CurdRowsComplete : Prop :=
  (∀ (i : Fin 32) sum s, clocked s = true → flag s .curdSdCfg_enable i = true → flag s .curdSdClk_enable (sdClk s i) = true →
    s.curd.stuck.getLsbD i = false → tget 0 s.curd.sdSkip i = 0 → s.frame.realign = false → s.frame.realignPrev = false →
    let y := sample s (stPa i) (sdRaw (flag s .curdSdCfg_osr i) sum)
    exec (.sdDecimatorOutput i sum false) s = .next (settle (hygLive (sdLimits y.1 i y.2) (stPa i)))) ∧
  (∀ (i : Fin 32) s, clocked s = true → flag s .curdSdCfg_enable i = true → flag s .curdSdClk_enable (sdClk s i) = true →
    exec (.sdStuck i) s = .next (settle (setC
      { s with curd := { s.curd with stuck := s.curd.stuck ||| BitVec.ofNat 32 (2 ^ i.val) } } (474 + i) true
      (BitVec.ofNat 32 (stPa i))))) ∧
  (∀ (i : Fin 17) level s, clocked s = true → i.val < 16 →
    let v := if s.boot.gpioDrive.getLsbD i then s.boot.gpioOut.getLsbD i else level
    (v = true → exec (.pinFilterLevel i level) s = .next (settle (extInput
      { s with curd := { s.curd with pins := s.curd.pins ||| BitVec.ofNat 17 (2 ^ i.val) } } i))) ∧
    (v = false → exec (.pinFilterLevel i level) s = .next (settle (extInput
      { s with curd := { s.curd with pins := s.curd.pins &&& ~~~(BitVec.ofNat 17 (2 ^ i.val)) } } i)))) ∧
  (∀ s, clocked s = true →
    exec (.pinFilterLevel 16 false) s = .next (settle
      { s with curd := { s.curd with pins := s.curd.pins ||| BitVec.ofNat 17 (2 ^ 16) } }) ∧
    exec (.pinFilterLevel 16 true) s = .next (settle
      { s with curd := { s.curd with pins := s.curd.pins &&& ~~~(BitVec.ofNat 17 (2 ^ 16)) } })) ∧
  (∀ (pa : Pa) s, clocked s = true → isInput pa = true → ptAbsent s pa = false →
    (getDesc s (descIdx pa)).staleTo ≠ 0 → (getDesc s (descIdx pa)).staleTo ≤ (getPt s pa).age →
    exec (.pointStale pa) s = .next (settle (hygLive (modPt s pa fun p => { p with stale := true }) pa))) ∧
  (∀ (pa : Pa) s, clocked s = true → isInput pa = true → ptAbsent s pa = false →
    1 ≤ (getDesc s (descIdx pa)).noise → 2 ≤ (getDesc s (descIdx pa)).frzN →
    (getDesc s (descIdx pa)).frzN ≤ (getPt s pa).same →
    exec (.pointFrozen pa) s = .next (settle (hygLive (modPt s pa fun p => { p with frozen := true }) pa))) ∧
  (∀ (pa : Pa) s, clocked s = true → isInput pa = true → ptAbsent s pa = false → 8 ≤ (getPt s pa).rateRun →
    exec (.pointRateRun pa) s = .next (settle (raiseE (modPt s pa fun p => { p with rateRun := 0 }) (hygSrc pa 3)
      (BitVec.ofNat 32 pa)))) ∧
  (∀ s t, clocked s = true → s.cmd.locks = [] → commitBlock s 4 = (t, none) → exec .curdCommit s = .next (settle t))

/-- Local pairs, the device's trip inputs and the debug halt (R158, R159, R161 to R164, R167, R169, R170). The model's readings and
choices in it: log entries 9, 12, 24, 130. -/
def Obligations.HarpRowsComplete : Prop :=
  (∀ (j : Pair) s, clocked s = true → (getPair s j).running = true → s.harp.halted = false → s.clk.onSafe = false →
    exec (.lpwmCarrierBoundary j) s = .next (settle (lpBoundary s j)) ∧
    exec (.localPwmEdge j) s = .next (settle (modPair s j (lpFire (outputsHeld s) (lpDt s j) 4)))) ∧
  (∀ (j : Pair) s, clocked s = true → (getPair s j).armed = true → flag s .harpLpCfg_enable j = true →
    exec (.lpwmPairTimeout j) s = .next (settle (raiseE (modPair s j fun x => { x with armed := false, perNext := none }) (634 + j)
      (BitVec.ofNat 32 j)))) ∧
  (∀ (i : Fin 12) s, clocked s = true → flag s .harpTripCfg_enable i = true → s.harp.tripLive.getLsbD i = false →
    exec (.tripInputAssert i) s = .next (settle (tripAssert s i))) ∧
  (∀ (i : Fin 12) s, clocked s = true → exec (.tripInputRelease i) s = .next (settle
    (setC { s with harp := { s.harp with
      tripLive := s.harp.tripLive &&& ~~~(BitVec.ofNat 12 (2 ^ i.val))
      tripRaw := s.harp.tripRaw &&& ~~~(BitVec.ofNat 12 (2 ^ i.val)) } } (646 + i) false 0))) ∧
  (∀ s, clocked s = true → s.harp.permit = true → exec .jtagHaltRequest s = .next (settle (harpHalt s).1)) ∧
  (∀ s, clocked s = true → s.cmd.locks = [] → s.harp.permit = true →
    exec .harpDbgCtlHalt s = .next (settle (harpHalt s).1)) ∧
  (∀ s, clocked s = true → s.cmd.locks = [] → s.harp.halted = true →
    exec .harpDbgCtlResume s = .next (settle { s with harp := { s.harp with resumeNext := true } })) ∧
  (∀ s, clocked s = true → s.harp.permit = true → s.harp.halted = true →
    exec (.dbgPermitFall false) s = .next (settle (raiseE { s with harp := { s.harp with permit := false } } 682 0))) ∧
  (∀ high s, clocked s = true → s.harp.halted = false →
    exec (.dbgPermitFall high) s = .next (settle { s with harp := { s.harp with permit := high } })) ∧
  (∀ (m : BitVec 12) s, clocked s = true → s.harp.tripLive &&& m = 0 →
    exec (.harpTripStsClear m) s =
      .next (settle (tripClearMask s m.toNat))) ∧
  (∀ (j : Pair) (v : Word) s, clocked s = true →
    exec (.harpLpPerWrite j v) s = .next (settle (modPair (putWord s .harpLpPer j (v.toNat % 2 ^ 24)) j fun x => { x with
      armed := true, perNext := some (lpPeriod (v.toNat % 2 ^ 24)) }))) ∧
  (∀ (j : Pair) (v : Word) s, clocked s = true →
    exec (.harpLpDutyWrite j v) s = .next (settle (lpDutyWrite s j v.toNat))) ∧
  (∀ s t, clocked s = true → s.cmd.locks = [] → commitBlock s 5 = (t, none) → exec .harpCommit s = .next (settle t))

/-- Press and Cheddaring rows: fallback and observer sources, coefficient banks, and the branch checks (R187, R192, R198, R217 to R219).
The model's readings and choices in it: log entries 9, 12, 23, 76, 108, 127. -/
def Obligations.PressAndCheddaringRowsComplete : Prop :=
  (∀ n s, clocked s = true →
    exec (.feedbackLoss n) s = .next (settle (gridConds (fbConds s (sigmaOf (getLoop s n).scope.toNat)))) ∧
    exec (.observerResidual n) s = .next (settle (fbConds s (sigmaOf (getLoop s n).scope.toNat)))) ∧
  (∀ s, clocked s = true → s.press.copyBusy = true → s.press.activeB = false →
    exec .bankCopyComplete s = .next (settle
      { s with press := { s.press with bankB := s.press.bankA, copyBusy := false, coefOwner := [] } })) ∧
  (∀ s, clocked s = true → s.press.copyBusy = true → s.press.activeB = true →
    exec .bankCopyComplete s = .next (settle
      { s with press := { s.press with bankA := s.press.bankB, copyBusy := false, coefOwner := [] } })) ∧
  (∀ s, clocked s = true → s.cmd.locks = [] → bankBusy s = false →
    exec .pressCtlBankCopy s = .next (settle { s with press := { s.press with copyBusy := true } })) ∧
  (∀ s, clocked s = true → s.cmd.locks = [] → bankBusy s = false →
    bankBad s = false →
    exec .pressCtlBankCommit s = .next (settle { s with press := { s.press with swapPending := true, coefOwner := [] } })) ∧
  (∀ s t, clocked s = true → s.cmd.locks = [] → commitBlock s 6 = (t, none) → exec .pressCtlCfgCommit s = .next (settle t)) ∧
  (∀ (b : Br) s, clocked s = true → hrN s ≤ (getBc s b).hrRun →
    exec (.headroomRun b) s = .next (settle (setC s (770 + b) true (BitVec.ofNat 32 b)))) ∧
  (∀ (c : Cell) s, clocked s = true → 100 ≤ (getCtl s c).devRun →
    exec (.deviationRun c) s = .next (settle (setC s (cellSrc c 18) true (BitVec.ofNat 32 c)))) ∧
  (∀ (c : Cell) k s, clocked s = true → (getCtl s c).bypBy = some k → k ≤ s.frame.k →
    exec (.bypassConfirmTimeout c) s = .next (settle (raiseE (modCtl s c fun x => { x with bypBy := none }) (757 + c / 48)
      (BitVec.ofNat 32 c)))) ∧
  (∀ (c : Cell) k s, clocked s = true → (getCtl s c).restBy = some k → k ≤ s.frame.k →
    exec (.restoreTimeout c) s = .next (settle (modCtl s c fun x => { x with restBy := none, bypOpen := false }))) ∧
  (∀ s t, clocked s = true → s.cmd.locks = [] → commitBlock s 7 = (t, none) → exec .cheddaringCommit s = .next (settle t))

/-- Twin rows: what a device in twin does with its peer's marks, heartbeats, mirrors, images and relays, and its own writes (R222 to R231,
R234, R273); a run of slabs is first received. The model's readings and choices in it: log entries 9, 12, 26, 32, 102, 106, 115. -/
def Obligations.TwinRowsComplete : Prop :=
  (∀ l1 (a : Int) r t l s, clocked s = true → peerLive s l1 = true →
    receive s (26 + b2n l1) (peerBlocks r.slabs.length) r = (t, [(.mark, l)]) → t.twin.role ≠ .off →
    let m := shortOf (laneCoding t (26 + b2n l1)) l
    shortOk (laneCoding t (26 + b2n l1)) m = true → byteAt m 0 % 16 = 4 →
    let dk := sx 8 ((byteAt m 1 + 256 - t.frame.k % 256) % 256)
    exec (.pMark l1 a r) s = .next (settle (followPeer (modTw t fun x => { x with
      tOwn := some (a - 16 * (tF t : Nat) * dk - sx 32 (fieldAt m 2 4)) })))) ∧
  (∀ l1 r t l s, clocked s = true → peerLive s l1 = true →
    receive s (26 + b2n l1) (peerBlocks r.slabs.length) r = (t, [(.last, l)]) →
    exec (.heartbeat l1 r) s = .next (settle (heartbeat t (l.take 24))) ∧
    exec (.mirrorChunk l1 r) s = .next (settle (mirrorChunk t (l.take 116))) ∧
    exec (.planAndAgeingImage l1 r) s = .next (settle (imageHeard t (l.take 116)))) ∧
  (∀ l1 (b : Br) r t l s, clocked s = true → peerLive s l1 = true →
    receive s (26 + b2n l1) (peerBlocks r.slabs.length) r = (t, [(.last, l)]) → byteAt l 1 = b.val →
    (t.twin.role = .standby → exec (.relayedPart l1 true b r) s = .next (settle (relayDown t l))) ∧
    (t.twin.role = .primary → exec (.relayedPart l1 false b r) s = .next (settle (relayUp t l)))) ∧
  (∀ s, clocked s = true → s.twin.role = .primary →
    exec .heartbeatHalfFrame s = .next (settle (sendRole (peerBoth s (heartbeatB s true))))) ∧
  (∀ s, clocked s = true → s.twin.role = .standby →
    exec .heartbeatMiss s = .next (settle (heartbeatMiss s s.twin.peerYield false))) ∧
  (∀ s, clocked s = true → standby s = true → s.twin.rxChunks ≠ [] → mirrorFrame s + 2 ≤ s.frame.k →
    exec .mirrorDrop s = .next (settle (dropMirror s))) ∧
  (∀ (n : LaneNo) r t l s, clocked s = true → n.val < 24 → receive s n (fun _ => 10) r = (t, [(.link, l)]) →
    linkOk l 4 = true → bitAt (byteAt l 2) 0 = !(fld0 t .twinCfg_end == 1) →
    (t.twin.role = .primary → newerEpoch (fieldAt l 3 2) t.twin.epoch = true →
      let u := demote t (fieldAt l 3 2)
      exec (.roleOnChainLane n r) s = .next (settle
        (if u.twin.role = .standby ∧ fieldAt l 3 2 = u.twin.epoch then modTw u fun x => { x with roleSeen := true } else u))) ∧
    (t.twin.role = .standby → fieldAt l 3 2 = t.twin.epoch →
      exec (.roleOnChainLane n r) s = .next (settle (modTw t fun x => { x with roleSeen := true })))) ∧
  (∀ s, clocked s = true → s.twin.role = .standby →
    exec .farEndCalibrationEnd s = .next (settle (modTw s fun x => { x with calValid := true }))) ∧
  (∀ s, clocked s = true → s.twin.role = .primary → s.twin.calLeft = some 0 →
    exec .farEndCalibrationEnd s = .next (settle (endCal s))) ∧
  (∀ s, clocked s = true → s.cmd.locks = [] → exec .twinCntClr s = .next (settle (clearTwinCounts s))) ∧
  (∀ s, clocked s = true → s.cmd.locks = [] → s.twin.role = .primary → s.twin.peerReady = true → s.twin.swapAt = none →
    exec .twinCfgSwap s = .next (settle (modTw s fun x => { x with swapAt := some (s.frame.k + 5) }))) ∧
  (∀ s, clocked s = true → s.cmd.locks = [] → calAllowed s = true →
    exec .twinCfgCalibrate s = .next (settle (startCal s)))

/-! ### Completion: chapters 09 to 12 -/

/-- Converter state and grid rows (R237, R240, R242, R247, R249, R256); host starts, stops and restarts are those of a device outside
HOLD-BUS. The model's readings and choices in it: log entries 9, 12, 71, 126. -/
def Obligations.ModeRowsComplete : Prop :=
  (∀ s, clocked s = true → s.mode.conv = .precharge → 100 ≤ s.mode.preRun →
    exec .prechargeComplete s = .next (settle (modMo s fun x => { x with preDone := true }))) ∧
  (∀ s, clocked s = true → s.mode.conv = .precharge → s.mode.preRun < 100 → stateFor s (fld0 s .modePrechgCfg_t_pre) = true →
    exec .prechargeTimeout s = .next (settle (modMo s fun x => { x with preTimeout := true }))) ∧
  (∀ s, clocked s = true → s.mode.conv = .rampDown → 100 ≤ s.mode.rdRun →
    exec .rampDownComplete s = .next (settle (modMo s fun x => { x with rdDone := true }))) ∧
  (∀ s, clocked s = true → s.mode.conv = .rampDown → s.mode.rdRun < 100 → stateFor s (fld0 s .modeLimCfg2_t_rd) = true →
    exec .rampDownTimeout s = .next (settle (modMo s fun x => { x with rdTimeout := true }))) ∧
  (∀ (b : Br) s, clocked s = true → (getBc s b).joining = true → 100 ≤ tget 0 s.mode.joinRun b →
    exec (.branchRestartJoin b) s =
      .next (settle (modMo s fun x => { x with joinDone := x.joinDone ||| BitVec.ofNat 12 (2 ^ b.val) }))) ∧
  (∀ s, clocked s = true → rtInNow s = true →
    exec .rideThroughEntry s = .next (settle (modMo s fun x => { x with rtEnter := true }))) ∧
  (∀ s, clocked s = true → rtOutNow s = true →
    exec .rideThroughExit s = .next (settle (modMo s fun x => { x with rtExit := true }))) ∧
  (∀ s, clocked s = true → s.mode.rt = true → fld0 s .modeRtCfg2_t_max ≠ 0 →
    msFrames s (fld0 s .modeRtCfg2_t_max) ≤ s.mode.rtFor → s.mode.rtLong = false →
    exec .rideThroughTimeout s = .next (settle (raiseE (modMo s fun x => { x with rtLong := true }) 792 0))) ∧
  (∀ s, clocked s = true → formedNow s = true →
    exec .gridFormed s = .next (settle (modMo s fun x => { x with formReq := true }))) ∧
  (∀ s, clocked s = true → s.cmd.locks = [] → s.boot.holdBus = false → standby s = false → s.mode.conv = .parked →
    startOk s = true → exec .modeCtlStart s = .next (settle (modMo s fun x => { x with startReq := true }))) ∧
  (∀ s t, clocked s = true → s.cmd.locks = [] → s.boot.holdBus = false → convStop s = (t, true) →
    exec .modeCtlStop s = .next (settle t)) ∧
  (∀ (m : BitVec 12) s, clocked s = true → s.cmd.locks = [] → s.boot.holdBus = false →
    exec (.modeCtlRestart m) s =
      .next (settle ((below 12 (bitAt m.toNat)).foldl (fun t b => (hostRestart t b).1) s))) ∧
  (∀ s t, clocked s = true → s.cmd.locks = [] → commitBlock s 8 = (t, none) → exec .modeCtlCommit s = .next (settle t))

/-- Ageing, epochs, plans, fits, margins and the regulator (R260, R266, R268, R271, R272, R274, R275, R276, R278). The model's readings
and choices in it: log entries 9, 12, 30, 31, 33, 78, 111 to 114, 131. -/
def Obligations.AffinageRowsComplete : Prop :=
  (∀ s, clocked s = true → standby s = false → s.frame.k % 8 = 0 → s.aff.stepAt ≠ s.frame.k + 1 →
    exec .fosterStep s =
      .next (settle (modAf ((affCells s).foldl fosterCell s) fun a => { a with stepAt := s.frame.k + 1 }))) ∧
  (∀ s h, clocked s = true → epochDue s = some h → s.aff.epochHour ≠ h + 1 → standby s = false → s.aff.busy = false →
    let t := modAf (if s.aff.pol = 0 ∨ fld0 s .affCfg_policy = 0 then takeTargets s else s) fun a => { a with epochHour := h + 1 }
    exec .epoch s = .next (settle (startEpoch t))) ∧
  (∀ s, clocked s = true → s.cmd.locks = [] → standby s = false → s.aff.busy = false →
    (s.cellar.mode ≠ .shed → exec .affCtlEpochNow s = .next (settle (epochWork s))) ∧
    (s.cellar.mode = .shed → exec .affCtlEpochNow s = .next (settle (modAf s fun a => { a with deferred := true })))) ∧
  (∀ s, clocked s = true → s.aff.busy = true → s.cellar.mode ≠ .shed →
    exec .epochComplete s = .next (settle (postEvent
      (modAf ((affCells s).foldl publishCell s) fun a => { a with
        busy := false, seq := (a.seq + 1) % 2 ^ 32, proposed := s.aff.pol == 1, imgHour := 0 }) 0x3001
      (leB 4 ((((affCells s).foldl publishCell s).aff.seq + 1) % 2 ^ 32) ++ leB 1 (b2n (s.aff.pol == 1)))))) ∧
  (∀ s, clocked s = true → s.cellar.mode = .shed → exec .epochComplete s = .next (settle s)) ∧
  (∀ s, clocked s = true → s.aff.busy = true → exec .planLate s = .next (settle (raiseE
    (setFld (modAf ((affCells s).foldl (fun t c => modPlan t c fun x => { x with pend := none }) s) fun a => { a with busy := false })
      .affSts_plan_late 0 1) 793 0))) ∧
  (∀ s, clocked s = true → applyDue s = true →
    exec .applicationBoundary s = .next (settle (persistHour (applicationBoundary s)))) ∧
  (∀ (c : Cell) lack l s, clocked s = true → (getPlan s c).fit = some (0, lack, l) →
    exec (.capacitorFitComplete c) s = .next (settle (fitEnd s c))) ∧
  (∀ m (k : Fin 64) s, clocked s = true → exec (.dieMarginCheck m k) s = .next (settle (dieCheck s m k))) ∧
  (∀ v s, clocked s = true → s.aff.vWant = some v →
    exec (.pmbusWriteResult true) s =
      .next (settle (modAf s fun a => { a with vAck := v, vWant := none, attempts := 0 }))) ∧
  (∀ v s, clocked s = true → s.aff.vWant = some v → s.aff.attempts + 1 < 3 →
    exec (.pmbusWriteResult false) s =
      .next (settle (modAf (sendVout s (voltMv v)) fun a => { a with attempts := a.attempts + 1 }))) ∧
  (∀ v s, clocked s = true → s.aff.vWant = some v → 3 ≤ s.aff.attempts + 1 →
    exec (.pmbusWriteResult false) s =
      .next (settle (setC (modAf s fun a => { a with vWant := none, attempts := 0, pmbusFail := true }) 796 true 0))) ∧
  (∀ s, clocked s = true → s.cmd.locks = [] → s.aff.proposed = true →
    exec .affCtlAccept s = .next (settle (modAf (takeTargets s) fun a => { a with proposed := false, imgHour := 0 })) ∧
    exec .affCtlReject s = .next (settle (rejectPlan s))) ∧
  (∀ s, clocked s = true → exec .affDieEolLoRead s = .next (settle (readsOut
    { s with aff := { s.aff with eolHi := BitVec.ofNat 16 (s.aff.eol / 2 ^ 32) } } [BitVec.ofNat 32 s.aff.eol]))) ∧
  (∀ s t, clocked s = true → s.cmd.locks = [] → commitBlock s 9 = (t, none) → exec .affinageCommit s = .next (settle t))

/-- Rind rows: the end of the trip hold, the host watchdog, copy errors, injection, and the sticky clears (R286, R291, R292, R294, R300).
The model's readings and choices in it: log entries 9, 12, 25, 37, 38, 116. -/
def Obligations.RindRowsComplete : Prop :=
  (∀ s, clocked s = true → msFrames s (max 1 (fld0 s .rindCfg_trip_hold)) ≤ s.frame.k - s.rind.tripK →
    exec .tripHoldExpiry s = .next (settle { s with rind := { s.rind with holding := false } })) ∧
  (∀ s, clocked s = true → fld0 s .rindHostwdCfg_period ≠ 0 →
    msFrames s (fld0 s .rindHostwdCfg_period) ≤ s.frame.k - s.rind.wdK →
    exec .hostWatchdogExpiry s = .next (settle (raiseE { s with rind := { s.rind with wdK := s.frame.k } } 2 0))) ∧
  (∀ n l s, clocked s = true →
    exec (.rindScrub ⟨some n, l⟩) s = .next (settle (integrity (l.foldl sramError s) 1 (BitVec.ofNat 32 n))) ∧
    exec (.rindScrub ⟨none, l⟩) s = .next (settle (l.foldl sramError s))) ∧
  (∀ s, clocked s = true →
    exec (.rindIntegrityError true) s = .next (settle (integrity s 0 0)) ∧
    exec (.rindIntegrityError false) s = .next (settle (integrity s 1 0))) ∧
  (∀ s, clocked s = true →
    exec (.rindHostwdKick 0xA5) s = .next (settle { s with rind := { s.rind with wdK := s.frame.k } })) ∧
  (∀ (v : Byte) s, clocked s = true → v ≠ 0xA5 → exec (.rindHostwdKick v) s = .next (settle (raiseE s 2 0))) ∧
  (∀ s, clocked s = true →
    exec (.rindCfgInjEn true) s = .next (settle (setFld s .rindCfg_inj_en 0 1)) ∧
    exec (.rindCfgInjEn false) s = .next (settle
      (((s.rind.src.filter fun (_, x) => x.force).map (·.1)).foldl (fun t n => setForce t n false)
        (setFld s .rindCfg_inj_en 0 0)))) ∧
  (∀ (w : Fin 36) (v : Word) s, clocked s = true → flag s .rindCfg_inj_en 0 = true →
    exec (.rindForceWrite w v) s = .next (settle (forceWord s w v.toNat))) ∧
  (∀ (w : Fin 36) (v : Word) s t, clocked s = true →
    clearMany s (((below 32 (bitAt v.toNat)).map (32 * w.val + ·)).filter fun n => decide (n < 946)) = (t, false) →
    exec (.rindStickyClear w v) s = .next (settle t)) ∧
  (∀ s t, clocked s = true → s.cmd.locks = [] → commitBlock s 10 = (t, none) → exec .rindCommit s = .next (settle t))

/-- Cellar rows run while its own clock runs; what follows them in the core domain runs where the core clock does (R304 to R312, R315).
The model's readings and choices in it: log entries 12, 35, 116. -/
def Obligations.CellarRowsComplete : Prop :=
  (∀ l s, cellarRuns s = true →
    let p := (List.range 16).map (nodePower l)
    let t := cellarUpdate (modCe s fun x => takeTc { x with power := p, rise := eulerStep x.rise p })
    exec (.cellarModelUpdate l) s = .next (if clocked t then settle t else updPins t)) ∧
  (∀ (j : Fin 4) r s, cellarRuns s = true →
    let t := diodeReading s j r
    exec (.cellarDiodeReading j r) s = .next (if clocked t then settle t else updPins t)) ∧
  (∀ m s, cellarRuns s = true → clocked s = true → baseMedian s = some m →
    exec .cellarBaseUpdate s =
      .next (settle (modCe s fun x => { x with base := x.base + asr (m - x.base) 10, baseOk := true }))) ∧
  (∀ s, cellarRuns s = true → s.cellar.mode = .shutdown → clocked (shutdownPark s) = false →
    exec .parkShutdownRepeat s = .next (updPins (shutdownPark s))) ∧
  (∀ s, cellarRuns s = true → s.cellar.mode = .shutdown → cooled s = true →
    exec .cellarRestart s = .next (settle (internalReset s 4 true))) ∧
  (∀ (i : Fin 5) s, cellarRuns s = true →
    exec (.referenceAbsent i) s = .next (if clocked (refLost s i) then settle (refLost s i) else updPins (refLost s i)) ∧
    exec (.referenceReturn i) s =
      .next (if clocked (bootGo (refBack s i)) then settle (bootGo (refBack s i)) else updPins (bootGo (refBack s i)))) ∧
  (∀ l s, cellarRuns s = true → exec (.referenceFrequencyWindow l) s =
    .next (if clocked (refWindow s l) then settle (refWindow s l) else updPins (refWindow s l))) ∧
  (∀ s, clocked s = true → exec .cellarStsSdLatchClear s =
    .next (settle (setC (modCe s fun x => { x with sdLatch := false }) 801 false 0))) ∧
  (∀ s, clocked s = true → s.cmd.locks = [] →
    exec .cellarPeakClr s = .next (settle (modCe s fun x => { x with peak := x.tC }))) ∧
  (∀ s, clocked s = true → exec .cellarSdTimeLoRead s = .next (settle (readsOut
    (modCe s fun x => { x with sdTimeHi := BitVec.ofNat 16 (x.sdTime / 2 ^ 32) }) [BitVec.ofNat 32 s.cellar.sdTime]))) ∧
  (∀ s t, clocked s = true → s.cmd.locks = [] → commitBlock s 11 = (t, none) → exec .cellarCommit s = .next (settle t))

/-! ### Completion: chapters 14 to 17 -/

/-- Arbiter decisions, patrol reads, the trace ring's freeze and persists, and the arbiter's writes (R347, R352, R356, R358 to R361,
R364). The model's readings and choices in it: log entries 12, 33, 36, 129. -/
def Obligations.CaveRowsComplete : Prop :=
  (∀ (ch : Fin 2) (l : List (Nat × Nat)) n s, clocked s = true → exec (.vatDecision ch l n) s = .next (settle (vatDecide s ch l n))) ∧
  (∀ (ch : Fin 2) (q : Fin 16) s, clocked s = true →
    exec (.vatWaitLimit ch q) s =
      .next (settle (starveCheck (modVat s ch q fun x => { x with wait := max 20001 x.wait }) ch q))) ∧
  (∀ (ch : Fin 2) b corrected s, clocked s = true →
    exec (.cavePatrolRead ch b false corrected) s = .next (settle (patrolRead s ch b false corrected))) ∧
  (∀ (ch : Fin 2) b corrected s, clocked s = true →
    exec (.cavePatrolRead ch b true corrected) s = .next (settle
      (if fwBurst b then procRestart (patrolRead s ch b true corrected) else patrolRead s ch b true corrected))) ∧
  (∀ t s, clocked s = true → s.cave.mode = .post → s.cave.trigK = some t → t + s.cave.postLen < s.frame.k →
    exec .traceFreeze s = .next (settle (postEvent (modCv s fun x => { x with
      mode := .frozen
      ring := ((sinceFirst x.ring).filter fun r => decide (t ≤ r.k + x.preLen) && decide (r.k ≤ t + x.postLen)).map fun r =>
        { r with trig := r.k == t } }) 0x4001 (leB 4 t)))) ∧
  (∀ x ok s, clocked s = true → s.cave.persist = some x → 
    exec (.persistComplete ok) s = .next (settle (persistEnd s (ok && !persistLate s)))) ∧
  (∀ s, clocked s = true → persistLate s = true → exec .persistTimeout s = .next (settle (persistEnd s false))) ∧
  (∀ s, clocked s = true → s.cmd.locks = [] → exec .vatCtlCommit s = .next (settle (commitVat s))) ∧
  (∀ (m : BitVec 2) s, clocked s = true → s.cmd.locks = [] →
    exec (.vatCntClr m) s = .next (settle (modCv s fun x => { x with
      waitMax := x.waitMax.filter fun (i, _) => !m.getLsbD (i / 16)
      grants := x.grants.filter fun (i, _) => !m.getLsbD (i / 16) })))

/-- Clock and time rows: lock, hold, return, loss, deadline and retry of the main PLL; SYNC_IN; steps, pulses, captures, the latching
reads of station time and the commits of blocks 1 and 12 (R37, R369, R373, R375, R377, R380, R386, R387, Tables 15-10 and 15-13). The
model's readings and choices in it: log entries 9, 12, 39, 40, 78, 119. -/
def Obligations.ClockAndTimeRowsComplete : Prop :=
  (∀ (b : Fin 63) s, clocked s = true → s.clk.relock = .locking →
    exec (.pllLockDeclared b) s = .next (settle (modCk s fun x => { x with
      locked := true
      relock := .holding
      band := if x.band = 63 then b else x.band }))) ∧
  (∀ s, clocked s = true → s.clk.relock = .holding →
    exec .pllHoldComplete s = .next (settle (modCk s fun x => { x with relock := .ready }))) ∧
  (∀ s, clocked s = true → s.clk.relock = .ready →
    exec .coreReturnToPll s = .next (settle
      (setC (modCk s fun x => { x with relock := .idle, onSafe := false, nwLock := x.nw }) 802 false 0))) ∧
  (∀ s, clocked s = true → s.clk.onSafe = false →
    exec .pllLossOfLock s = .next (settle (setC ((List.range 12).foldl forceOff
      (modCk (rateCut s) fun x => { x with locked := false, onSafe := true, relockNext := some x.refUse })) 802 true 0))) ∧
  (∀ s, clocked s = true → relocking s = true →
    exec .relockDeadline s = .next (settle
      (setC (setFld (modCk s fun x => { x with relock := .failed, locked := false }) .strSts_relock_fail 0 1) 802 true 0))) ∧
  (∀ s, clocked s = true → s.clk.relock = .failed → flag s .strCfg_auto_sw 0 = false →
    exec .relockRetry s = .next (settle (startRelock s (flag s .strCfg_ref_sel 0)))) ∧
  (∀ s, clocked s = true → (∀ n, n < 4 → flag s .strClkoutCfg_sync_en n = false) →
    exec .syncInEdge s = .next (settle s)) ∧
  (∀ s, clocked s = true → (∀ n, n < 4 → flag s .strClkoutCfg_sync_en n = true) → s.clk.onSafe = false →
    exec .syncInEdge s = .next (settle ((List.range 4).foldl
      (fun t n => modCk t fun x => { x with sync := lset x.sync n (some 16) }) s))) ∧
  (∀ s t, clocked s = true → s.cmd.locks = [] → commitBlock s 12 = (t, none) → exec .starterStuTimeCommit s = .next (settle t)) ∧
  (∀ s, clocked s = true → s.cmd.locks = [] → sfld s .stuFrmCfg_frame_len 0 = s.frame.len.val →
    exec .stuCommit s = .next (settle (modFr (stageBlock s 1 fun _ _ => true) fun x => { x with lenPending := none }))) ∧
  (∀ s, clocked s = true → s.cmd.locks = [] → sfld s .stuFrmCfg_frame_len 0 ≠ s.frame.len.val → allParked s = true →
    exec .stuCommit s = .next (settle (announceLength (modFr (stageBlock s 1 fun _ _ => true) fun x => { x with
      lenPending := some (BitVec.ofNat 2 (sfld s .stuFrmCfg_frame_len 0)).toFin })))) ∧
  (∀ d by_ s, clocked s = true → s.stu.step = some (d, by_) → allParked s = true → s.frame.snapped = false →
    s.mode.conv ≠ .precharge → exec .timeStepApply s = .next (settle (applyStep false s))) ∧
  (∀ start d by_ s, s.stu.step = some (d, by_) →
    (allParked s = false ∨ start = true → applyStep start s = s) ∧
    (allParked s = true → start = false →
      let q := ((nowQ s : Int) + d).toNat
      let t := applyStep start s
      t.stu.step = none ∧ t.stu.pulses = s.stu.pulses.map (pulseStep q) ∧
      t.stu.time = ((s.stu.time : Int) + d * 2 ^ 32).toNat % (2 ^ 48 * 4000000000 * 2 ^ 32))) ∧
  (∀ (o : Fin 4) e s, clocked s = true →
    let p := s.stu.pulses.getD o ⟨0, 0, 0, none, none⟩
    p.next = some e → e < nowQ s + s.frame.ticks →
    exec (.timePulseEdge o) s = .next (settle (modSt s fun x => { x with pulses := lset x.pulses o { p with
      next := if p.period = 0 then none else some (e + p.period)
      till := if flag s .stuTpCfg_enable o then some (e + p.width) else none } }))) ∧
  (∀ (o : Fin 4) e s, clocked s = true →
    let p := s.stu.pulses.getD o ⟨0, 0, 0, none, none⟩
    p.till = some e → e < nowQ s + s.frame.ticks →
    exec (.timePulseEnd o) s =
      .next (settle (modSt s fun x => { x with pulses := lset x.pulses o { p with till := none } }))) ∧
  (∀ (i : Fin 2) rising off s, clocked s = true → flag s .stuCapCfg_enable i = true → flag s .stuCapCfg_edge i = !rising →
    exec (.timeCapture i rising off) s = .next (settle (capture s i rising off))) ∧
  (∀ s, clocked s = true → exec .stuTimeSLoRead s = .next (settle (readsOut (timeRead s).2 [(timeRead s).1]))) ∧
  (∀ (i : Fin 2) s, clocked s = true →
    exec (.stuCapSLoRead i) s = .next (settle (readsOut (capRead s i).2 [(capRead s i).1]))) ∧
  (∀ (o : Fin 4) s t, clocked s = true → s.cmd.locks = [] → armPulse s o = (t, false) →
    exec (.stuTpCfgArm o) s = .next (settle t))

/-- The PTP receiver: what each message does when the port takes the frame that carries it (R381 to R385). The model's readings and choices in it: log entries
12, 43, 44, 119. -/
def Obligations.PtpRowsComplete : Prop :=
  (∀ (p : Fin 2) out r s, clocked s = true →
    exec (.timestampInterrupt p out r) s = .next (settle (timestamp s p out r))) ∧
  (∀ (p : Fin 2) l m t u s, clocked s = true → ptpFrameIn s p l = some m → takeStamp s p = (some t, u) → ptpTakes u p 0 44 m = true →
    fromMaster u p m = true → -4 ≤ ptpInterval m → ptpInterval m ≤ 1 → twoStep m = true →
    exec (.ptpSync p l) s = .next (settle
      (modSt u fun x => { x with sync2 := lset x.sync2 p (some (ptpSeq m, t, corrOf m, ptpInterval m)) }))) ∧
  (∀ (p : Fin 2) l m t u s, clocked s = true → ptpFrameIn s p l = some m → takeStamp s p = (some t, u) → ptpTakes u p 0 44 m = true →
    fromMaster u p m = true → -4 ≤ ptpInterval m → ptpInterval m ≤ 1 → twoStep m = false →
    exec (.ptpSync p l) s = .next (settle (syncDone (modSt u fun x => { x with sync2 := lset x.sync2 p none })
      (t - stampAt m 34 - corrOf m) (ptpInterval m)))) ∧
  (∀ (p : Fin 2) l m t c i s, clocked s = true → ptpFrameIn s p l = some m → ptpTakes s p 8 44 m = true → fromMaster s p m = true →
    s.stu.sync2.getD p none = some (ptpSeq m, t, c, i) →
    exec (.ptpFollowUp p l) s = .next (settle (syncDone (modSt s fun x => { x with sync2 := lset x.sync2 p none })
      (t - stampAt m 34 - c - corrOf m) i))) ∧
  (∀ (p : Fin 2) l m s, clocked s = true → ptpFrameIn s p l = some m → ptpTakes s p 0xB 64 m = true → beAt m 61 2 < 255 → s.stu.masters.getD p none = none →
    exec (.ptpAnnounce p l) s =
      .next (settle (bmca (modSt s fun x => { x with
        masters := lset x.masters p (some (masterOf m)), lastMaster := some (masterOf m) })))) ∧
  (∀ (p : Fin 2) l m t u s, clocked s = true → ptpFrameIn s p l = some m → takeStamp s p = (some t, u) → ptpTakes u p 2 54 m = true →
    exec (.ptpPdelayReq p l) s = .next (settle (ptpSendEvent u ⟨p, true, ptpSeq m, ptpSender m, corrOf m⟩
      (ptpB u p 3 0x0200 0 (ptpSeq m) 5 (stampB t ++ ptpSender m))))) ∧
  (∀ (p : Fin 2) l m t4 t1 r u s, clocked s = true → ptpFrameIn s p l = some m → takeStamp s p = (some t4, u) → ptpTakes u p 3 54 m = true →
    fld0 u .stuPtpCfg_profile = 0 → reqFor u p m = some (t1, r) → twoStep m = true →
    exec (.ptpPdelayResp p l) s = .next (settle (modSt u fun x => { x with
      req := lset x.req p (some (ptpSeq m, t1, some (t4, stampAt m 34 - corrOf m))) }))) ∧
  (∀ (p : Fin 2) l m t1 t4 t2 s, clocked s = true → ptpFrameIn s p l = some m → ptpTakes s p 0xA 54 m = true → fld0 s .stuPtpCfg_profile = 0 →
    reqFor s p m = some (some t1, some (t4, t2)) →
    exec (.ptpPdelayRespFollowUp p l) s =
      .next (settle (pdelaySample s p ((t4 - t1 - (stampAt m 34 - t2) - corrOf m) / 2)))) ∧
  (∀ (p : Fin 2) l m t3 r d s, clocked s = true → ptpFrameIn s p l = some m → ptpTakes s p 9 54 m = true → fld0 s .stuPtpCfg_profile = 1 →
    fromMaster s p m = true → reqFor s p m = some (some t3, r) → s.stu.syncDiff = some d →
    exec (.ptpDelayResp p l) s = .next (settle (pdelaySample s p ((d + (stampAt m 34 - t3 - corrOf m)) / 2)))) ∧
  (∀ (p : Fin 2) s, clocked s = true → ptpPortOn s p = true → fld0 s .stuPtpCfg_profile = 0 →
    exec (.ptpDelayRequestSend p) s = .next (settle (ptpSendEvent
      (modSt s fun x => { x with seqId := x.seqId + 1, req := lset x.req p (some (s.stu.seqId, none, none)) })
      ⟨p, false, s.stu.seqId, [], 0⟩
      (ptpB (modSt s fun x => { x with seqId := x.seqId + 1, req := lset x.req p (some (s.stu.seqId, none, none)) })
        p 2 0 0 s.stu.seqId 5 (zeroB 20))))) ∧
  (∀ (p : Fin 2) s, clocked s = true →
    exec (.announceReceiptTimeout p) s =
      .next (settle (bmca (modSt s fun x => { x with masters := lset x.masters p none })))) ∧
  (∀ s, clocked s = true → flag s .stuPtpCfg_enable 0 = true → s.stu.quality = .acquiring ∨ s.stu.quality = .free →
    exec .ptpAcquireTimeout s = .next (settle (ptpFaults (modSt s fun x => { x with alarm := true }))))

/-- Power rows: IDLE, the entry into CURE, wake sources, the wake sequence and its failures, rails (R391 to R406). A row of the Wax domain
runs while the always-on supply is up and no reset is held; its effects in the core domain follow where the core clock runs. The model's
readings and choices in it: log entries 12, 15, 54, 55, 56, 121. -/
def Obligations.PowerRowsComplete : Prop :=
  (∀ s, clocked s = true → s.power.idleReq = true → s.power.mode = .run →
    exec .idleEntry s = .next (settle
      (powerEvent (quiet (modPw (takeCfg s) fun x => { x with mode := .idle, idleReq := false })) 0))) ∧
  (∀ n s, clocked s = true → s.power.exitReq = some (n + 1) → n + 1 ≠ 0xFF → s.power.mode = .idle →
    exec .idleExit s = .next (settle (powerEvent (resume (modPw (modPw (takeCfg s) fun x => { x with exitReq := none }) fun x =>
      { x with mode := .run, lockWait := true, lastSrc := n + 1 })) (n + 1)))) ∧
  (∀ s, waxRuns s = true → clocked s = true → s.power.entering = true →
    let t := enterCure s
    exec .cureEntry s = .next (if clocked t then settle t else updPins t)) ∧
  (∀ s, waxRuns s = true → s.power.mode = .cure → s.power.wakeStep ≠ some 1 ∨ s.power.attempts ≠ 0 ∨ s.power.wakeFail = true →
    (bitAt s.power.wakeCfg 0 = true →
      let t := startWake (modPw s fun x => { x with wakeNSeen := true }) [1]
      exec .wakeNAssert s = .next (if clocked t then settle t else updPins t)) ∧
    (s.power.alarm ≠ 0 →
      let t := startWake s [2]
      exec .waxAlarm s = .next (if clocked t then settle t else updPins t)) ∧
    (bitAt s.power.wakeCfg 1 = true →
      let t := startWake s [3]
      exec .pcieWake s = .next (if clocked t then settle t else updPins t)) ∧
    (∀ (p : Fin 2) bytes, bitAt s.power.wakeCfg (2 + p) = true → wakeFrameOk s p bytes = true →
      let t := startWake s [4 + p.val]
      exec (.wakeFrame p bytes) s = .next (if clocked t then settle t else updPins t)) ∧
    (∀ (i : Fin 12), bitAt s.power.wakeCfg (4 + i) = true →
      let t := startWake s [0x10 + i.val]
      exec (.wakeTripInput i) s = .next (if clocked t then settle t else updPins t))) ∧
  (∀ c s, s.power.mode = .cure → s.power.wakeStep = some 1 → s.power.attempts = 0 → s.power.wakeFail = false →
    let d := drawBelow s 2
    (d.1 = 1 → wakeBy s c = modPw d.2 fun x => { x with
      lastSrc := min s.power.lastSrc c, srcMask := x.srcMask ||| srcBit c }) ∧
    (d.1 ≠ 1 → wakeBy s c = d.2)) ∧
  (∀ s, waxRuns s = true → s.power.mode = .cure → s.power.wakeStep = some 1 →
    exec .powerGood s = .next (updPins (modPw s fun x => { x with wakeStep := some 2 })) ∧
    exec .powerGoodTimeout s = .next (updPins (wakeFails s))) ∧
  (∀ n s, waxRuns s = true → s.power.wakeStep = some 2 →
    exec (.oscillatorReady n) s = .next (if clocked (awake s n) then settle (awake s n) else updPins (awake s n))) ∧
  (∀ s, waxRuns s = true → s.power.mode = .cure → s.power.wakeStep = some 2 →
    exec .oscillatorReadyTimeout s = .next (updPins (wakeFails s))) ∧
  (∀ s, waxRuns s = true → s.power.mode = .cure → s.power.wakeStep = some 3 →
    exec .wakeRetry s = .next (updPins (sendVout (modPw s fun x => { x with wakeStep := some 1 }) (voltMv s.aff.vAck)))) ∧
  (∀ s, waxRuns s = true → s.power.mode = .cure →
    exec .waxCounterWrap s = .next (updPins (modPw s fun x => { x with wakeFail := true, wakeStep := none }))) ∧
  (∀ (r : Fin 9) above beyond s, waxRuns s = true →
    let t := railCross s r above beyond
    exec (.railCrossing r above beyond) s = .next (if clocked t then settle t else updPins t)) ∧
  (∀ l s, waxRuns s = true → s.power.mode = .cure →
    let t := cureDiodes s l
    exec (.cureDiodeCheck l) s = .next (if clocked t then settle t else updPins t)) ∧
  (∀ s, waxRuns s = true → s.power.mode = .cure → s.power.holdOn = true →
    (validDiodes s).all (fun (_, v) => decide (v < 1600)) = true →
    let t := startWake (modPw s fun x => { x with holdOn := false }) s.power.held
    exec .cellarHoldRelease s = .next (if clocked t then settle t else updPins t)) ∧
  (∀ s, clocked s = true → exec .pwrWaxCntLoRead s = .next (settle (readsOut
    (modPw s fun x => { x with cntHi := BitVec.ofNat 16 (x.waxCnt / 2 ^ 32) }) [BitVec.ofNat 32 s.power.waxCnt])))

/-- Reset pins, straps and boot (R407, R408, R410, R414 to R416, R422, R426, R428, R449, R450). The model's readings and choices in it:
log entries 12, 48, 49, 50, 51, 120. -/
def Obligations.ResetAndBootRowsComplete : Prop :=
  (∀ s, s.boot.rstLow = false → s.boot.porstLow = false →
    exec .rstNAssert s = .next (updPins (modBo (markReset (resetCore s true false) 2) fun x => { x with rstLow := true }))) ∧
  (∀ s, s.boot.rstLow = false → s.boot.porstLow = true →
    exec .rstNAssert s = .next (updPins (modBo s fun x => { x with rstLow := true }))) ∧
  (∀ st s, s.boot.rstLow = true → s.boot.porstLow = false → s.boot.aonUp = true →
    exec (.rstNRelease st) s = .next (updPins (modBo (modBo s fun x => { x with rstLow := false }) fun x => { x with
      straps := st, sample := st, sampling := true }))) ∧
  (∀ s, s.boot.porstLow = false →
    exec .porstNAssert s = .next (updPins (modBo (markReset (resetCore s false false) 1) fun x => { x with porstLow := true }))) ∧
  (∀ st s, s.boot.porstLow = true → s.boot.rstLow = false → s.boot.aonUp = true →
    exec (.porstNRelease st) s = .next (updPins (modBo (modBo s fun x => { x with porstLow := false }) fun x => { x with
      straps := st, sample := st, sampling := true }))) ∧
  (∀ s, ∃ t, exec .aonPowerOnReset s = .next t ∧ t.boot.aonUp = false ∧ t.boot.rstLow = true ∧ t.boot.porstLow = true ∧
    t.rind.lockout = false ∧ t.boot.rstSts = 0 ∧ t.power = State.reset.power ∧
    t.cellar = { State.reset.cellar with clkFb := s.clk.absent.getLsbD 0 && s.clk.absent.getLsbD 1 } ∧
    t.mode = State.reset.mode) ∧
  (∀ s, s.boot.aonUp = false →
    exec .aonSupplyUp s = .next (updPins (modBo s fun x => { x with aonUp := true, rstSts := 1 }))) ∧
  (∀ s, clocked s = true → s.boot.sampling = true →
    exec (.strapResample s.boot.sample) s =
      .next (settle (restart (modBo s fun x => { x with straps := x.sample &&& ~~~0, sampling := false })))) ∧
  (∀ s, clocked s = true → s.boot.stage = 0 → s.boot.sampling = false → s.clk.absent.getLsbD 0 = true →
    exec .bootRefclkFallback s = .next (settle (refFaults (bootGo (modBo s fun x => { x with refFallback := true }))))) ∧
  (∀ flashOk ms s, clocked s = true → s.boot.stage = 2 → bootSrc s = 0 →
    exec (.imageLoadComplete false flashOk ms) s = .next (settle (enterRecovery s))) ∧
  (∀ ms v n fb s, clocked s = true → s.boot.stage = 2 → bootSrc s = 0 → chooseSlot s = some (v, n, fb) →
    exec (.imageLoadComplete true true ms) s = .next (settle (firmwareStart s v n fb true ms))) ∧
  (∀ s, clocked s = true → 1 < s.boot.twinRetry → s.boot.twinWords = [] → peerSeen s = false →
    exec .twinBlockRetry s = .next (settle (modBo (discardAll s 7) fun x => { x with twinRetry := x.twinRetry - 1 }))) ∧
  (∀ t s, clocked s = true → s.boot.twinRetry ≠ 0 → s.boot.twinWords = [] → peerSeen s = true → commitBlock s 7 = (t, none) →
    exec .twinBlockRetry s = .next (settle (modBo t fun x => { x with twinRetry := 0, twinWords := [] }))) ∧
  (∀ s, clocked s = true → autoStartOk s = true →
    exec .holdBusAutostart s = .next (settle
      (modBo (convStart s).1 fun x => { x with hbStarts := recentStarts s ++ [nowQ s] }))) ∧
  (∀ s, clocked s = true → s.cmd.locks = [] → s.boot.stage = 2 → bootSrc s ≠ 0 →
    exec .sysBootCtlGo s = .next (settle (modBo s fun x => { x with go := true })))

/-! ### Completion: register accesses and transports -/

/-- BAR0 writes and SPI register accesses, and the commit of the command block (R15, R331, R343, R429). The model's readings and choices
in it: log entries 12, 61, 65, 78. -/
def Obligations.RegisterRowsComplete : Prop :=
  (∀ a (v : Word) s, clocked s = true →
    exec (.registerWrite a v true) s = .next (settle (writeBar true none s a v.toNat)) ∧
    exec (.registerWrite a v false) s = .next (settle (setFld s .sysErr_partial 0 1))) ∧
  (∀ (a : BitVec 24) n s, clocked s = true → spiOn s = true →
    exec (.spiRegRead a n) s =
      .next (settle (readsOut (readWords s (4 * a.toNat) n).2 (readWords s (4 * a.toNat) n).1))) ∧
  (∀ (a : BitVec 24) (v : Word) s, clocked s = true → spiOn s = true →
    exec (.spiRegWrite a [v]) s = .next (settle (writeBar true none s (4 * (a.toNat + 0)) v.toNat))) ∧
  (∀ s, clocked s = true → s.cmd.locks = [] →
    exec .commandBlockCommit s = .next (settle (endStatusQueue (applyBlock (stageBlock s 13 fun _ _ => true) 13))))

/-- Queues, packets and transports (R325 to R327, R329 to R331, R334, R336, R342, R407). The model's readings and choices in it: log
entries 12, 45, 59, 61, 63, 65. -/
def Obligations.TransportRowsComplete : Prop :=
  (∀ (q : Fin 32) (v : Word) s, clocked s = true → bitsAt v.toNat 0 12 < queueSize s q →
    exec (.cmdSqTailDoorbell q v) s = .next (settle (setFld s .cmdSqTail_tail q (bitsAt v.toNat 0 12)))) ∧
  (∀ (q : Fin 32) (v : Word) s, clocked s = true → bitsAt v.toNat 0 12 < queueSize s q →
    (bitsAt v.toNat 0 12 + queueSize s q - fld s .cmdCqHead_head q) % queueSize s q ≤
      ((getQ s q).cqTail + queueSize s q - fld s .cmdCqHead_head q) % queueSize s q →
    exec (.cmdCqHeadWrite q v) s = .next (settle (setFld s .cmdCqHead_head q (bitsAt v.toNat 0 12)))) ∧
  (∀ (q : Fin 32) (v : Word) s, clocked s = true →
    exec (.cmdQCfgEnable q v) s = .next (settle (qCfgWrite s q v.toNat))) ∧
  (∀ (q : Fin 32) e ind s, clocked s = true → mayFetch s q = true →
    let b := padB 65 e
    let k := packetOf 0 (fieldAt b 56 9) b ((padB (fieldAt b 6 2) ((b.drop 16).take 40)).take (fieldAt b 6 2 / 4 * 4))
    (bitAt (byteAt b 2) 1 = false → bitAt (byteAt e 2) 1 = false → k.2.queue.toNat = q.val → exec (.commandFetch q (some e) ind) s = .next (settle
      (enqueue (modQ s q fun x => { x with sqHead := (x.sqHead + 1) % queueSize s q }) q k))) ∧
    (bitAt (byteAt e 2) 1 = true → vatStarving s (hostDma q) = true → exec (.commandFetch q (some e) ind) s = .next (settle s)) ∧
    exec (.commandFetch q none ind) s = .next (settle (qError s q 2))) ∧
  (∀ (p : Fin 2) mac vlan h m s, clocked s = true →
    (udpHeadOk s p vlan h m = false ∨ beAt h 22 2 ≠ fld0 s .cmdUdpCfg_port →
      exec (.udpDatagram p mac vlan h m) s = .next (settle s)) ∧
    (udpHeadOk s p vlan h m = true → beAt h 22 2 = fld0 s .cmdUdpCfg_port → udpOn s p = true →
      let l := m.take (beAt h 24 2 - 8)
      let q := byteAt l 3
      16 ≤ l.length → q < 32 →
      (udpAccepts s q (beAt h 12 4) = false → exec (.udpDatagram p mac vlan h m) s = .next (settle (dropped s q))) ∧
      ((getQ s q).mode = .active → fld s .cmdQCfg_transport q = 1 → rword s .cmdUdpPeer q = 0 →
        (getQ s q).ready.length < queueSize s q → (getQ s q).replay = [] →
        exec (.udpDatagram p mac vlan h m) s = .next (settle (enqueue
          (modQ s q fun y => { y with peer := some (p.val, mac, beAt h 12 4, beAt h 20 2) }) q
          (packetOf 1 (Packet.source p mac (beAt h 12 4) (beAt h 20 2)) l (l.drop 16))))))) ∧
  (∀ (p : Fin 2) l a s, clocked s = true → ethPayload s 0x0806 l = some a → fld s .cmdEthIp_ip p ≠ 0 → 28 ≤ a.length →
    a.take 8 = netB 2 1 ++ netB 2 0x0800 ++ netB 1 6 ++ netB 1 4 ++ netB 2 1 → beAt a 24 4 = fld s .cmdEthIp_ip p →
    exec (.arpRequest p l) s = .next (settle (send s (.eth p (padB 60 (ethB s p ((a.drop 8).take 6) 0x0806 ++
      (a.take 6 ++ netB 2 2 ++ macB s p ++ netB 4 (fld s .cmdEthIp_ip p) ++ (a.drop 8).take 6 ++ (a.drop 14).take 4))))))) ∧
  (∀ (p : Fin 2) l d s, clocked s = true → ethPayload s 0x0800 l = some d →
    let ip := fld s .cmdEthIp_ip p
    let n := beAt d 2 2
    let m := (d.take n).drop 20
    let pad := fun (x : List Byte) => if x.length % 2 = 0 then x else x ++ [0]
    ip ≠ 0 → byteAt d 0 = 0x45 → 28 ≤ n → n ≤ d.length → beAt d 6 2 % 0x4000 = 0 → byteAt d 9 = 1 → inetSum (d.take 20) = 0 →
    beAt d 16 4 = ip → byteAt m 0 = 8 → byteAt m 1 = 0 → inetSum (pad m) = 0 →
    let x := drawBelow s 65536
    let y := drawBelow x.2 256
    let head := fun c => netB 1 0x45 ++ [d.getD 1 0] ++ netB 2 n ++ netB 2 x.1 ++ netB 2 0 ++ netB 1 y.1 ++ netB 1 1 ++ netB 2 c ++
      netB 4 ip ++ (d.drop 12).take 4
    let body := fun c => netB 2 0 ++ netB 2 c ++ m.drop 4
    let f := ethB s p ((l.drop 6).take 6) 0x0800 ++ head (inetSum (head 0)) ++ body (inetSum (pad (body 0)))
    exec (.icmpEchoRequest p l) s = .next (settle (send y.2 (.eth p (padB (max 60 f.length) f))))) ∧
  (∀ l s, clocked s = true → spiServes s = true → executing s (spiQueue s) = false → (getQ s (spiQueue s)).ready = [] →
    (getQ s (spiQueue s)).spi = none → (packetOf 2 0 l (l.drop 16)).2.queue.toNat = spiQueue s →
    exec (.spiSubmit l) s = .next (settle (enqueue s (spiQueue s) (packetOf 2 0 l (l.drop 16))))) ∧
  (∀ n d s, clocked s = true → spiOn s = true → (getQ s (spiQueue s)).spi = some d → 17 ≤ n →
    exec (.spiFetch n) s = .next (settle (modQ
      (readsOut s ((((1 : Byte) :: d).take n).map fun b => b.setWidth 32)) (spiQueue s) fun x => { x with spi := none }))) ∧
  (∀ n s, clocked s = true → spiOn s = true → (getQ s (spiQueue s)).spi = none → n < 17 →
    exec (.spiFetch n) s = .next (settle (readsOut s ((([(0 : Byte)]).take n).map fun b => b.setWidth 32)))) ∧
  (∀ s, clocked s = true → exec .pcieHotReset s = .next (settle (pcieReset s))) ∧
  (∀ s, clocked s = true →
    exec (.pcieLinkState true) s = .next (settle (setC { s with cmd := { s.cmd with link := true } } 908 false 0)) ∧
    exec (.pcieLinkState false) s =
      .next (settle (pcieReset (setC { s with cmd := { s.cmd with link := false } } 908 true 0)))) ∧
  (∀ (q : Fin 32) w key hold l s, clocked s = true → lockWait s q = some w → w.wait = .lock key hold →
    otherLock s q key = some l →
    exec (.lockWaitTimeout q) s = .next (settle (finish (unwait s w) w.packet stLockHeld l.queue []))) ∧
  (∀ (q : Fin 32) (d : Fin 4) n l s, clocked s = true →
    (s.cmd.locks.find? fun l => l.queue = q.val && l.key = (⟨d.val, n⟩ : LockKey)) = some l →
    l.since + l.hold * 4000000 < nowQ s + s.frame.ticks → executing s q = false →
    exec (.lockExpiry q d n) s = .next (settle (breakLock s l 0))) ∧
  (∀ s, clocked s = true →
    exec .lockstepMismatch s = .next (settle (procRestart (raiseE s 906 0))) ∧
    exec .commandWatchdogExpiry s = .next (settle (procRestart (raiseE s 907 0))))

/-! ### Completion: the opcodes of chapter 13

`startOf s r p = some t`: the packet's turn has come in s, it is no repeat, checks 1 to 7 of R318 pass under the opcode's rule r, and t is
the state its meaning runs from. -/

/-- SYS and CFG opcodes (R340, Tables 13-12 and 13-13). Those that use the flash wait for it. The model's readings and choices in it: log
entries 4, 67, 75. -/
def Obligations.SysAndCfgCommandsComplete : Prop :=
  (∀ s t p, startOf s { op := 0x0101, kinds := anyScope } p = some t →
    exec (.sysNop p) s = .next (settle (answer t p stOk 0 []))) ∧
  (∀ s t p, startOf s { op := 0x0102 } p = some t → (identB t).length ≤ replySpace t p →
    exec (.sysIdent p) s = .next (settle (answer t p stOk (identB t).length (identB t)))) ∧
  (∀ s t p, startOf s { op := 0x0103 } p = some t → (statusB t).length ≤ replySpace t p →
    exec (.sysStatus p) s = .next (settle (answer t p stOk (statusB t).length (statusB t)))) ∧
  (∀ s t p, startOf s { op := 0x0104, lenOk := words 1 } p = some t → pw p 0 = 0x5A5A →
    t.mode.conv = .parked ∨ t.mode.conv = .safe →
    exec (.sysReset p) s = .next (settle (internalReset (answer t p stOk 0 []) 3 false))) ∧
  (∀ s t p, startOf s { op := 0x0105 } p = some t →
    exec (.sysPersist p) s = .next (settle (waitFor t 0x0105 p .flash))) ∧
  (∀ s t p, startOf s { op := 0x0106, lenOk := words 2 } p = some t → pw p 1 ≤ 65536 → pw p 0 + pw p 1 ≤ flashSize →
    exec (.sysFlashRead p) s = .next (settle (waitFor t 0x0106 p .flash))) ∧
  (∀ s t p, startOf s { op := 0x0107, lenOk := fun l => decide (2 ≤ l.length) && decide (l.length ≤ 1026) } p = some t →
    t.mode.conv = .parked → pw p 0 ≤ 1 → pw p 1 + 4 * (p.params.length - 2) ≤ 0x800000 →
    exec (.sysImageWrite p) s = .next (settle (waitFor t 0x0107 p .flash))) ∧
  (∀ s t p, startOf s { op := 0x0108, lenOk := words 2 } p = some t → pw p 0 ≤ 1 →
    exec (.sysImageSelect p) s = .next (settle (waitFor t 0x0108 p .flash))) ∧
  (∀ s t p, startOf s { op := 0x0201, lenOk := words 1, targets := stationTarget
                        lockout := fun l => (l.getD 0 0) == 10
                        holdBus := fun l => let n := (l.getD 0 0).toNat; decide (5 ≤ n) && decide (n ≤ 9) } p = some t →
    blockCode (pw p 0) = true → ∀ u, commitBlock t (pw p 0) = (u, none) →
    (pw p 0 ≠ 1 ∨ u.frame.lenPending = none →
      exec (.cfgCommit p) s = .next (settle (deliver u p stOk 0 ((u.frame.k + 1) % 2 ^ 32) []))) ∧
    (pw p 0 = 1 → u.frame.lenPending ≠ none →
      exec (.cfgCommit p) s = .next (settle (deliver u p stOk 0 ((u.frame.k + framesToSecond u) % 2 ^ 32) [])))) ∧
  (∀ s t u p, startOf s { op := 0x0202, targets := stationTarget } p = some t → bankBusy t = false → bankCommit t = (u, true) →
    exec (.cfgBankCommit p) s = .next (settle (deliver u p stOk 0 ((u.frame.k + 1) % 2 ^ 32) []))) ∧
  (∀ s t p, startOf s { op := 0x0203, targets := stationTarget } p = some t → bankBusy t = false →
    exec (.cfgBankCopy p) s = .next (settle (waitFor (bankCopy t) 0x0203 p .copy))) ∧
  (∀ s t p, startOf s { op := 0x0204, lenOk := words 1, targets := stationTarget } p = some t → blockCode (pw p 0) = true →
    exec (.cfgDiscard p) s = .next (settle (answer (discardAll t (pw p 0)) p stOk 0 []))) ∧
  (∀ s t p, startOf s { op := 0x0205 } p = some t →
    exec (.cfgSave p) s = .next (settle (waitFor t 0x0205 p .flash))) ∧
  (∀ s t p, startOf s { op := 0x0206, targets := stationTarget } p = some t →
    exec (.cfgLoad p) s = .next (settle (waitFor t 0x0206 p .flash))) ∧
  (∀ s t p, startOf s { op := 0x0207 } p = some t →
    exec (.cfgDigest p) s = .next (settle (answer t p stOk (cfgDigest t).toNat []))) ∧
  (∀ s t p, startOf s { op := 0x0208 } p = some t →
    exec (.cfgPending p) s = .next (settle (answer t p stOk (pendingBlocks t) [])))

/-- PARAM and POINT opcodes (R134, R140, R141, R338 to R340, Tables 13-14 and 13-25). The model's readings and choices in it: log entries
4, 68, 75. -/
def Obligations.ParamAndPointCommandsComplete : Prop :=
  (∀ s t u l p, startOf s { op := 0x0301, lenOk := counted 1 1024 1 } p = some t → readParams t (restWords p) 1 [] = .ok (l, u) →
    l.length ≤ replySpace t p → l.length ≤ replySpace u p →
    exec (.paramRead p) s = .next (settle (answer u p stOk l.length l))) ∧
  (∀ s t p, startOf s { op := 0x0302, lenOk := counted 1 512 2
                        lockout := fun l => (pairs ((l.drop 1).map (·.toNat))).any fun x => rindClassPid x.1
                        targets := fun s p => (pairs (restWords p)).flatMap fun x => pidKey s (pidOf x.1) } p = some t →
    firstFail (writeCheck t) (pairs (restWords p)) 0 = none →
    exec (.paramWrite p) s =
      .next (settle (answer ((pairs (restWords p)).foldl (writeParam p.queue.toNat) t) p stOk 0 []))) ∧
  (∀ s t p, startOf s { op := 0x0303, lenOk := words 1 } p = some t → pidOf (pw p 0) ≠ .bad →
    16 ≤ replySpace (paramFacts t (pidOf (pw p 0))).2 p →
    let x := pidOf (pw p 0)
    let f := (paramFacts t x).1
    let l := leB 4 f.1 ++ leB 4 f.2.1 ++ leB 4 f.2.2.1 ++ leB 4 (f.2.2.2 + 256 * (((pidKey t x).map keyScope).headD 0))
    exec (.paramInfo p) s = .next (settle (answer (paramFacts t x).2 p stOk 16 l))) ∧
  (∀ s t p, startOf s { op := 0x0310, lenOk := counted 1 2048 1 } p = some t →
    (∀ pa ∈ restWords p, pa < 299008) → ((restWords p).flatMap (pointB t)).length ≤ replySpace t p →
    exec (.pointRead p) s = .next (settle (deliver t p stOk ((restWords p).flatMap (pointB t)).length
      (t.curd.snapK % 2 ^ 32) ((restWords p).flatMap (pointB t))))) ∧
  (∀ s t p, startOf s { op := 0x0311, lenOk := words 2 } p = some t → 1 ≤ pw p 1 → pw p 1 ≤ 16384 → pw p 0 + pw p 1 ≤ 299008 →
    let l := ((List.range (pw p 1)).map (pw p 0 + ·)).flatMap (pointB t)
    l.length ≤ replySpace t p →
    exec (.pointReadRange p) s = .next (settle (deliver t p stOk l.length (t.curd.snapK % 2 ^ 32) l))) ∧
  (∀ s t p, startOf s { op := 0x0312, lenOk := counted 1 256 2
                        targets := fun _ p => (pairs (restWords p)).map fun x => ptKey x.1 } p = some t →
    firstFail (pointCheck t) (pairs (restWords p)) 0 = none →
    exec (.pointWrite p) s = .next (settle (answer { t with curd := { t.curd with
      hostNext := t.curd.hostNext ++ (pairs (restWords p)).map fun x => (x.1, BitVec.ofNat 16 x.2) } } p stOk 0 []))) ∧
  (∀ s t p, startOf s { op := 0x0313, lenOk := words 1 } p = some t → pw p 0 < 299008 →
    let l := pointDescB (getDesc t (descIdx (pw p 0))) (writerOf (pw p 0))
    l.length ≤ replySpace t p → exec (.pointDescRead p) s = .next (settle (answer t p stOk l.length l))) ∧
  (∀ s t p, startOf s { op := 0x0314, lenOk := words 5, targets := fun _ p => [ptKey (pw p 0)] } p = some t → pw p 0 < 299008 →
    fieldAt (paramBytes p 1) 8 2 / 1024 % 8 = writerOf (pw p 0) → descBytesOk (paramBytes p 1) = true →
    exec (.pointDescWrite p) s = .next (settle (answer { t with curd := { t.curd with
      descNext := t.curd.descNext ++ [(descIdx (pw p 0), pointDescOf (paramBytes p 1))] } } p stOk 0 []))) ∧
  (∀ s t p, startOf s { op := 0x0315, lenOk := words 1 } p = some t → pw p 0 < 299008 → calibrated (pw p 0) = true →
    exec (.pointCalRead p) s =
      .next (settle (answer t p stOk ((userCal t (pw p 0)).1.toNat + 65536 * (userCal t (pw p 0)).2.toNat) []))) ∧
  (∀ s t p, startOf s { op := 0x0316, lenOk := words 2, targets := fun _ p => [ptKey (pw p 0)] } p = some t → pw p 0 < 299008 →
    calibrated (pw p 0) = true →
    exec (.pointCalWrite p) s = .next (settle (answer { t with curd := { t.curd with
      ucal := tset (0x4000, 0) t.curd.ucal (pw p 0) (BitVec.ofNat 16 (pw p 1), BitVec.ofNat 16 (pw p 1 / 65536)) } } p stOk 0 []))) ∧
  (∀ s t p, startOf s { op := 0x0317 } p = some t →
    exec (.pointCalPersist p) s = .next (settle (waitFor t 0x0317 p .flash)))

/-- CELL opcodes (R340, Table 13-15). Those that ask a node, or wait for a discovery or a restore, end with it. The model's readings and
choices in it: log entries 4, 70. -/
def Obligations.CellCommandsComplete : Prop :=
  (∀ s t p, startOf s { op := 0x0401, kinds := [.cell] } p = some t →
    let l := cellInfoB t (scopeNum t p)
    l.length ≤ replySpace t p → exec (.cellInfo p) s = .next (settle (answer t p stOk l.length l))) ∧
  (∀ s t p, startOf s { op := 0x0402, kinds := [.cell], lenOk := words 1 } p = some t → 1 ≤ bulkLen (pw p 0) →
    bulkLen (pw p 0) ≤ 64 → bulkLen (pw p 0) ≤ replySpace t p →
    exec (.cellBulkRead p) s = .next (settle (askNode t 0x0402 p (scopeNum t p)
      (.bulk (scopeNum t p) false (bitsAt (pw p 0) 0 24) (bulkLen (pw p 0)) [])))) ∧
  (∀ s t p, startOf s { op := 0x0403, kinds := [.cell], lenOk := bulkWords, targets := headerKey } p = some t →
    1 ≤ bulkLen (pw p 0) → bulkLen (pw p 0) ≤ 64 →
    bitsAt (pw p 0) 0 24 + bulkLen (pw p 0) ≤ 0x100 ∨ 0x120 ≤ bitsAt (pw p 0) 0 24 →
    exec (.cellBulkWrite p) s = .next (settle (askNode t 0x0403 p (scopeNum t p) (.bulk (scopeNum t p) true
      (bitsAt (pw p 0) 0 24) (bulkLen (pw p 0)) ((paramBytes p 1).take (bulkLen (pw p 0))))))) ∧
  (∀ s t p, startOf s { op := 0x0404, kinds := [.branch], standby := true, targets := headerKey } p = some t →
    brParked t (scopeNum t p) = true → discBusy t (scopeNum t p) = false →
    exec (.cellDiscover p) s = .next (settle (waitFor (startDisc t (scopeNum t p)) 0x0404 p (.disc (scopeNum t p))))) ∧
  (∀ s t p, startOf s { op := 0x0405 } p = some t →
    exec (.cellMapSave p) s = .next (settle (waitFor t 0x0405 p .flash))) ∧
  (∀ s t p, startOf s { op := 0x0410, kinds := [.cell], lenOk := words 1, targets := headerKey } p = some t → pw p 0 ≤ 2 →
    exec (.cellTripClear p) s = .next (settle (askNode t 0x0410 p (scopeNum t p) (.trip (scopeNum t p) (pw p 0))))) ∧
  (∀ s t p, startOf s { op := 0x0411, kinds := [.cell], lenOk := eyeWords } p = some t → pw p 0 ≤ 1 → eyePartOk (eyePart p) = true →
    (eyePart p).2 ≤ replySpace t p → (eyePart p).2 ≠ 0 →
    exec (.cellEyeRead p) s = .next (settle (askNode t 0x0411 p (scopeNum t p)
      (.eye (scopeNum t p) (0x20000 + 16448 * pw p 0 + (eyePart p).1) (eyePart p).2 [])))) ∧
  (∀ s t p, startOf s { op := 0x0412, kinds := [.cell], standby := true, targets := headerKey } p = some t →
    let u := faultDecision t (scopeNum t p) 0x20
    exec (.cellBypass p) s = .next (settle (answer u p stOk (roleCode (getCtl u (scopeNum t p)).role) []))) ∧
  (∀ s t p, startOf s { op := 0x0413, kinds := [.cell], standby := true, targets := headerKey } p = some t →
    brParked t (scopeNum t p / 48) = true → (getCtl t (scopeNum t p)).role = .bypassed →
    exec (.cellRestore p) s = .next (settle (waitFor (startRestore t (scopeNum t p)) 0x0413 p (.restore (scopeNum t p)))))

/-- CONV, TRIP, LPWM, TWIN and MODE opcodes (R340, Tables 13-16 and 13-17). The model's readings and choices in it: log entries 4, 71, 75.
-/
def Obligations.ConvAndModeCommandsComplete : Prop :=
  (∀ s t p, startOf s { op := 0x0501, lockout := always, standby := true, holdBus := always, targets := headerKey } p = some t →
    t.boot.holdBus = false → standby t = false → t.mode.conv = .parked → startOk t = true →
    exec (.convStart p) s = .next (settle (answer (modMo t fun x => { x with startReq := true }) p stOk 0 []))) ∧
  (∀ s t u p, startOf s { op := 0x0502, standby := true } p = some t → hostStop t = (u, true) →
    exec (.convStop p) s = .next (settle (answer u p stOk 0 []))) ∧
  (∀ s t u p, startOf s { op := 0x0503, kinds := [.branch], lockout := always, standby := true, holdBus := always, targets := headerKey } p
      = some t → (t.mode.conv = .run ∧ class2Live t (scopeNum t p) = true → False) → hostRestart t (scopeNum t p) = (u, true) →
    exec (.convRestart p) s = .next (settle (answer u p stOk 0 []))) ∧
  (∀ s t u p, startOf s { op := 0x0504, lenOk := words 1, targets := headerKey } p = some t → pw p 0 ≤ 11 →
    tripClear t (pw p 0) = (u, true) →
    exec (.tripClear p) s = .next (settle (answer u p stOk 0 []))) ∧
  (∀ s t p, startOf s { op := 0x0505, lenOk := words 3, targets := headerKey } p = some t → pw p 0 ≤ 11 → pw p 1 < 2 ^ 24 →
    pw p 2 < 2 ^ 28 →
    exec (.lpwmSet p) s =
      .next (settle (answer (lpDutyWrite (lpPerWrite t (pw p 0) (pw p 1)) (pw p 0) (pw p 2)) p stOk 0 []))) ∧
  (∀ s t p, startOf s { op := 0x0506, lenOk := words 2, targets := headerKey } p = some t →
    exec (.lpwmEnable p) s = .next (settle (answer ((below 12 (bitAt (pw p 0))).foldl (fun u j =>
      lpCfgWrite (setFld u .harpLpCfg_enable j (b2n (bitAt (pw p 1) j))) j (flag u .harpLpCfg_centre j)) t) p stOk 0 []))) ∧
  (∀ s t p, startOf s { op := 0x0507, standby := true, targets := headerKey } p = some t → t.twin.role = .primary →
    t.twin.peerReady = true → t.twin.swapAt = none →
    exec (.twinSwap p) s = .next (settle (answer (modTw t fun x => { x with swapAt := some (t.frame.k + 5) }) p stOk
      ((t.frame.k + 5) % 2 ^ 32) []))) ∧
  (∀ s t p, startOf s { op := 0x0508, standby := true, targets := headerKey } p = some t → calAllowed t = true →
    exec (.twinCalibrate p) s = .next (settle (waitFor (startCal t) 0x0508 p .calibrate))) ∧
  (∀ s t p, startOf s { op := 0x0601, lenOk := words 2, targets := stationTarget } p = some t → pw p 0 < 2 ^ 7 → pw p 1 < 2 ^ 4 →
    exec (.modeSet p) s = .next (settle (answer
      ([(0, Fld.modeReq_grid), (1, .modeReq_flow), (2, .modeReq_svc), (3, .modeReq_rt_en)].foldl (fun u x =>
        if bitAt (pw p 1) x.1 then setSfld u x.2 0 (bitsAt (pw p 0) x.2.spec.lo x.2.spec.width) (some p.queue.toNat) else u) t)
      p stOk 0 []))) ∧
  (∀ s t p, startOf s { op := 0x0602, lenOk := words 2, targets := stationTarget } p = some t → pw p 0 ≤ 11 →
    pw p 1 - (pw p 1 &&& RegName.mask .modeLvgCfg fun _ => true) = 0 →
    exec (.modeLvgSet p) s =
      .next (settle (answer (putShadow t .modeLvgCfg (pw p 0) (pw p 1) (some p.queue.toNat)) p stOk 0 []))) ∧
  (∀ s t p, startOf s { op := 0x0603, holdBus := always, targets := stationTarget } p = some t →
    ∀ u, commitBlock t 8 = (u, none) →
    exec (.modeCommit p) s = .next (settle (deliver u p stOk 0 ((u.frame.k + 1) % 2 ^ 32) []))) ∧
  (∀ s t p, startOf s { op := 0x0604 } p = some t →
    let l := regsB t [(.modeSts, 0), (.modeEff, 0), (.modeLvEff, 0)]
    l.length ≤ replySpace t p → exec (.modeGet p) s = .next (settle (answer t p stOk l.length l)))

/-- PLAN, TRACE and LOG opcodes (R340, Tables 13-18 and 13-19). The model's readings and choices in it: log entries 4, 71, 72, 118. -/
def Obligations.PlanAndTraceCommandsComplete : Prop :=
  (∀ s t p, startOf s { op := 0x0701, kinds := [.cell] } p = some t →
    let l := ((List.range 37).flatMap fun i => leB 2 (seePt t (cellPa (scopeNum t p) (252 + i))).val.toNat) ++ zeroB 2 ++
      regsB t [(.affPlanSeq, 0)]
    l.length ≤ replySpace t p → exec (.planGet p) s = .next (settle (answer t p stOk l.length l))) ∧
  (∀ s t p, startOf s { op := 0x0702, lenOk := words 1 } p = some t → planAwaits t (pw p 0) = true →
    exec (.planAccept p) s = .next (settle (answer (acceptPlan t) p stOk 0 []))) ∧
  (∀ s t p, startOf s { op := 0x0703, lenOk := words 1 } p = some t → planAwaits t (pw p 0) = true →
    exec (.planReject p) s = .next (settle (answer (rejectPlan t) p stOk 0 []))) ∧
  (∀ s t p, startOf s { op := 0x0704 } p = some t → t.aff.busy = false →
    exec (.planEpoch p) s = .next (settle (waitFor (startEpoch t) 0x0704 p .epoch))) ∧
  (∀ s t p, startOf s { op := 0x0705, kinds := [.cell] } p = some t →
    let l := (List.range 12).flatMap fun sw => leB 6 (getWear t (12 * scopeNum t p + sw)).dmg ++ zeroB 2
    l.length ≤ replySpace t p → exec (.planDamageRead p) s = .next (settle (answer t p stOk l.length l))) ∧
  (∀ s t x p, startOf s { op := 0x0706, kinds := [.switch] } p = some t → t.aff.busy = false → cmdScope t p.scope.toNat = some x →
    let l := (List.range 256).flatMap fun i => leB 6 (tget 0 t.cave.bins (256 * (12 * x.num + x.sw) + i))
    l.length ≤ replySpace t p → p.transport.val ≠ 0 ∨ vatStarving t (hostDma p.queue.toNat) = false →
    exec (.planRainflowRead p) s = .next (settle (answer t p stOk 1536 l))) ∧
  (∀ s t p, startOf s { op := 0x0707, lenOk := words 2, targets := stationTarget } p = some t →
    exec (.planHorizonSet p) s = .next (settle (waitFor
      (putWord (putWord t .affHorizonLo 0 (pw p 0)) .affHorizonHi 0 (pw p 1 % 65536)) 0x0707 p .flash))) ∧
  (∀ s t p, startOf s { op := 0x0801, lenOk := counted 0 8192 1, targets := stationTarget } p = some t →
    (restWords p).all (fun pa => decide (pa < 299008)) = true →
    exec (.traceSelect p) s = .next (settle (answer (modCv t fun x => { x with listNext := some (restWords p) }) p stOk 0 []))) ∧
  (∀ s t p, startOf s { op := 0x0802, lenOk := words 4 } p = some t → pw p 0 < 299008 → pw p 1 < 2 ^ 18 →
    pw p 2 + pw p 3 + 1 ≤ traceDepth t.cave.list.length →
    exec (.traceTriggerSet p) s = .next (settle (answer (modCv t fun x => { x with
      arm := some (pw p 0, BitVec.ofNat 16 (pw p 1), bitsAt (pw p 1) 16 2, pw p 2, pw p 3)
      lastVal := snapVal t (pw p 0) }) p stOk 0 []))) ∧
  (∀ s t p, startOf s { op := 0x0803 } p = some t →
    exec (.traceForce p) s = .next (settle (answer (traceTrigger t 3) p stOk 0 []))) ∧
  (∀ s t p, startOf s { op := 0x0804 } p = some t → t.cave.mode = .frozen →
    exec (.traceRearm p) s = .next (settle (answer (modCv t fun x => { x with rearmNext := true }) p stOk 0 []))) ∧
  (∀ s t p, startOf s { op := 0x0804 } p = some t → t.cave.mode = .post →
    exec (.traceRearm p) s = .next (settle (answer (modCv t fun x => { x with
      mode := .recording, trigK := none, src := 0 }) p stOk 0 []))) ∧
  (∀ s t p, startOf s { op := 0x0805 } p = some t → (traceStatusB t).length ≤ replySpace t p →
    exec (.traceStatus p) s = .next (settle (answer t p stOk (traceStatusB t).length (traceStatusB t)))) ∧
  (∀ s t fr p, startOf s { op := 0x0806, lenOk := words 2 } p = some t → traceFrames t (pw p 0) (pw p 1) = some fr →
    let l := fr.flatMap (traceB t.cave.list.length t.cave.trigK)
    l.length ≤ replySpace t p → p.transport.val ≠ 0 ∨ vatStarving t (hostDma p.queue.toNat) = false →
    exec (.traceRead p) s = .next (settle (answer t p stOk l.length l))) ∧
  (∀ s t p, startOf s { op := 0x0807, lenOk := words 2 } p = some t → 1 ≤ pw p 1 → pw p 1 ≤ 1024 →
    let es := (t.cave.log.dropWhile fun e => e.index.toNat ≠ pw p 0).take (pw p 1)
    es.length = pw p 1 → (es.flatMap logB).length ≤ replySpace t p → p.transport.val ≠ 0 ∨ vatStarving t (hostDma p.queue.toNat) = false →
    exec (.logRead p) s = .next (settle (answer t p stOk (64 * pw p 1) (es.flatMap logB)))) ∧
  (∀ s t p, startOf s { op := 0x0808 } p = some t →
    let l := leB 4 (match t.cave.log.head? with | some e => e.index.toNat | none => 0) ++
      regsB t [(.caveLogNew, 0), (.caveLogOvr, 0)] ++ leB 4 0
    l.length ≤ replySpace t p → exec (.logStatus p) s = .next (settle (answer t p stOk l.length l))) ∧
  (∀ s op p res l, p.transport.val = 0 → l.length ≤ replySpace s p → vatStarving s (hostDma p.queue.toNat) = true →
    finishCave s op p res l = waitFor s op p (.dma res l))

/-- TIME and PWR opcodes (R340, Tables 13-20 and 13-21). The alarm of PWR_CURE is stated for the time 0, which sets none. The model's
readings and choices in it: log entries 4, 15, 72. -/
def Obligations.TimeAndPowerCommandsComplete : Prop :=
  (∀ s t p, startOf s { op := 0x0901 } p = some t →
    let q := (instant t).1
    let u := (instant t).2
    let l := leB 8 (secsOf q) ++ leB 4 (nsWord q) ++ leB 4 (qualityCode t.stu.quality)
    l.length ≤ replySpace u p → exec (.timeGet p) s = .next (settle (answer u p stOk l.length l))) ∧
  (∀ s t p, startOf s { op := 0x0902, lenOk := words 3 } p = some t → allParked t = true → flag t .stuPtpCfg_enable 0 = false →
    pw p 2 < 1000000000 →
    let want : Nat := 4000000000 * (pw p 0 + 2 ^ 32 * bitsAt (pw p 1) 0 16) + 4 * pw p 2
    exec (.timeSet p) s = .next (settle (answer (setQuality (modSt (instant t).2 fun x => { x with
      step := some ((want : Int) - ((instant t).1 : Int), true) }) .set) p stOk 0 []))) ∧
  (∀ s t u p, startOf s { op := 0x0903, lenOk := words 6 } p = some t → pw p 0 ≤ 3 → pw p 3 < 1000000000 →
    armPulse ([(RegName.stuTpStartSLo, pw p 1), (.stuTpStartSHi, pw p 2 % 65536), (.stuTpStartNs, pw p 3),
      (.stuTpPeriod, pw p 4), (.stuTpWidth, pw p 5)].foldl (fun v x => putWord v x.1 (pw p 0) x.2) t) (pw p 0) = (u, false) →
    exec (.timePulseSet p) s = .next (settle (answer u p stOk 0 []))) ∧
  (∀ s t u p, startOf s { op := 0x0903, lenOk := words 6 } p = some t → pw p 0 ≤ 3 → pw p 3 < 1000000000 →
    armPulse ([(RegName.stuTpStartSLo, pw p 1), (.stuTpStartSHi, pw p 2 % 65536), (.stuTpStartNs, pw p 3),
      (.stuTpPeriod, pw p 4), (.stuTpWidth, pw p 5)].foldl (fun v x => putWord v x.1 (pw p 0) x.2) t) (pw p 0) = (u, true) →
    exec (.timePulseSet p) s = .next (settle (answer (setFld t .stuTpCfg_refused (pw p 0) 1) p stRange 0 []))) ∧
  (∀ s t p, startOf s { op := 0x0904, lenOk := words 1 } p = some t → pw p 0 ≤ 1 →
    let c := t.stu.caps.getD (pw p 0) (0, 0, false, false, false)
    let l := timeB c.1 ++ leB 2 c.2.1 ++
      leB 1 (fld t .stuCapCfg_ovr (pw p 0) + 2 * b2n c.2.2.2.2 + 4 * b2n c.2.2.2.1) ++ zeroB 3
    l.length ≤ replySpace t p → exec (.timeCaptureRead p) s = .next (settle (answer t p stOk l.length l))) ∧
  (∀ s t p, startOf s { op := 0x0905 } p = some t → (ptpStatusB t).1.length ≤ replySpace (ptpStatusB t).2 p →
    exec (.timePtpStatus p) s =
      .next (settle (answer (ptpStatusB t).2 p stOk (ptpStatusB t).1.length (ptpStatusB t).1))) ∧
  (∀ s t p, startOf s { op := 0x0A01, holdBus := always, targets := stationTarget } p = some t → powerCheck t false = stOk →
    exec (.pwrIdle p) s = .next (settle (answer (modPw t fun x => { x with idleReq := true }) p stOk 0 []))) ∧
  (∀ s t p, startOf s { op := 0x0A02, lenOk := words 2, holdBus := always, targets := stationTarget } p = some t →
    powerCheck t true = stOk → pw p 0 = 0 → bitsAt (pw p 1) 0 16 = 0 →
    exec (.pwrCure p) s = .next (settle (modPw (answer (drawBelow (instant t).2 (2 ^ 32)).2 p stOk 0 []) fun x => { x with
      cureReq := true, alarmAt := 0 }))) ∧
  (∀ s t p, startOf s { op := 0x0A03 } p = some t → t.power.mode = .idle →
    exec (.pwrRun p) s = .next (settle (answer (wakeBy t 0x20) p stOk 0 []))) ∧
  (∀ s t p, startOf s { op := 0x0A04 } p = some t →
    exec (.pwrStatus p) s =
      .next (settle (answer t p stOk (powerCode t.power.mode + 256 * (t.power.lastSrc % 256)) [])))

/-- FAULT, DBG, LANE, CNT and LOCK opcodes (R333 to R336, R340, Tables 13-22 and 13-23). The model's readings and choices in it: log
entries 4, 73. -/
def Obligations.DiagnosticCommandsComplete : Prop :=
  (∀ s t p, startOf s { op := 0x0B01, lenOk := words 2 } p = some t → 1 ≤ pw p 1 → pw p 1 ≤ 512 → pw p 0 + pw p 1 ≤ sourceCount →
    let l := (List.range (pw p 1)).flatMap fun i => recordB (getSrc t (pw p 0 + i))
    l.length ≤ replySpace t p → exec (.faultRead p) s = .next (settle (answer t p stOk l.length l))) ∧
  (∀ s t l p, startOf s { op := 0x0B02, kinds := [.station, .cell], lockout := always
                          lenOk := fun l => l.length == 2 || (l.length == 1 && l.getD 0 0 != 0) } p = some t →
    clearNames t p = some l → (clearMany t l).2 = false →
    exec (.faultClear p) s = .next (settle (answer (clearMany t l).1 p stOk 0 []))) ∧
  (∀ s t u p, startOf s { op := 0x0B03, lenOk := words 2, lockout := always } p = some t → sourceIs (pw p 0) = true →
    forceSrc t (pw p 0) (bitAt (pw p 1) 0) = (u, true) →
    exec (.faultForce p) s = .next (settle (answer u p stOk 0 []))) ∧
  (∀ s t p, startOf s { op := 0x0B04 } p = some t →
    let l := regsB t ([(.rindFirst, 0), (.rindSts, 0)] ++ (List.range 18).map fun i => (.rindCellAny, i))
    l.length ≤ replySpace t p → exec (.faultSummary p) s = .next (settle (answer t p stOk l.length l))) ∧
  (∀ s t u p, startOf s { op := 0x0B10 } p = some t → harpHalt t = (u, true) →
    exec (.dbgHalt p) s = .next (settle (answer u p stOk 0 []))) ∧
  (∀ s t p, startOf s { op := 0x0B11 } p = some t → t.harp.halted = true →
    exec (.dbgResume p) s = .next (settle (answer { t with harp := { t.harp with resumeNext := true } } p stOk
      ((t.frame.k + 1) % 2 ^ 32) []))) ∧
  (∀ s t p, startOf s { op := 0x0B20, lenOk := words 2 } p = some t → lanePresent t (pw p 0) = true →
    16 ≤ bitsAt (pw p 1) 4 5 → bitsAt (pw p 1) 4 5 ≤ 30 → (getLane t (pw p 0)).scan = none →
    exec (.laneEyeStart p) s = .next (settle (answer (startScan
      (setFld (setFld t .laneEyeCtl_continuous (pw p 0) (bitsAt (pw p 1) 0 1)) .laneEyeCtl_dwell_exp (pw p 0) (bitsAt (pw p 1) 4 5))
      (pw p 0)) p stOk 0 []))) ∧
  (∀ s t p, startOf s { op := 0x0B21, lenOk := eyeWords } p = some t → tget [] t.cave.eyes (pw p 0) ≠ [] →
    eyePartOk (eyePart p) = true →
    let l := ((tget [] t.cave.eyes (pw p 0)).drop (eyePart p).1).take (eyePart p).2
    l.length ≤ replySpace t p → p.transport.val ≠ 0 ∨ vatStarving t (hostDma p.queue.toNat) = false →
    exec (.laneEyeRead p) s = .next (settle (answer t p stOk
      ((eyePart p).2 + 2 ^ 31 * b2n (slotBad t (eyeAt (pw p 0)) 16448)) l))) ∧
  (∀ s t p, startOf s { op := 0x0B22, lenOk := words 2 } p = some t → pw p 0 = 0 →
    exec (.cntClear p) s = .next (settle (answer (laneCntClr t (pw p 1 % 2 ^ 28)) p stOk 0 []))) ∧
  (∀ s t p, startOf s { op := 0x0C01, kinds := lockScopes, lenOk := words 1 } p = some t → bitsAt (pw p 0) 0 16 ≤ 1000 →
    bitsAt (pw p 0) 16 16 ≤ 10000 →
    let key := (headerKey t p).headD stationKey
    (∀ l ∈ locksOf t p.queue.toNat, keyLt l.key key = true) → t.cmd.locks.length < 64 → (locksOf t p.queue.toNat).length < 16 →
    otherLock t p.queue.toNat key = none →
    exec (.lockReserve p) s = .next (settle (answer { t with cmd := { t.cmd with
        locks := t.cmd.locks ++ [⟨p.queue.toNat, key, holdOf t (pw p 0), nowQ t⟩]
        broken := t.cmd.broken.filter fun k => !overlap key k } } p
      (if t.cmd.broken.any (overlap key) then stLockBroken else stOk) (holdOf t (pw p 0)) []))) ∧
  (∀ s t p, startOf s { op := 0x0C02, kinds := lockScopes, lenOk := words 1 } p = some t →
    let l := (locksOf t p.queue.toNat).filter fun x => x.key = (headerKey t p).headD stationKey
    l ≠ [] → exec (.lockRelease p) s = .next (settle (answer (release t p.queue.toNat l (bitAt (pw p 0) 0)) p stOk 0 []))) ∧
  (∀ s t p, startOf s { op := 0x0C03, kinds := lockScopes } p = some t →
    (t.cmd.locks.find? fun l => overlap l.key ((headerKey t p).headD stationKey)) = none →
    exec (.lockQuery p) s = .next (settle (answer t p stOk 0xFF []))) ∧
  (∀ s t p, startOf s { op := 0x0C04, lenOk := words 1 } p = some t →
    exec (.lockReleaseAll p) s = .next (settle
      (answer (release t p.queue.toNat (locksOf t p.queue.toNat) (bitAt (pw p 0) 0)) p stOk 0 [])))

/-- The flash access that a command waits for: each opcode's effect, and ST_FLASH when it fails (R321, R340, R412, R413, R435). The
model's readings and choices in it: log entries 17, 67, 127, 163. -/
def Obligations.FlashAccessEndsItsCommand : Prop :=
  ∀ (q : Fin 32) w s, clocked s = true → (s.cmd.waits.find? fun w => w.queue = q.val ∧ w.wait = .flash) = some w →
    let t := unwait s w
    let p := w.packet
    exec (.flashAccessComplete q false) s = .next (settle (answer
      (if w.opcode = 0x0106 ∨ w.opcode = 0x0108 ∨ w.opcode = 0x0206 then raiseE t 829 0 else t) p stFlash 0 [])) ∧
    (w.opcode = 0x0105 → exec (.flashAccessComplete q true) s =
      .next (settle (answer (saveRwu t (rwuNow t ++ calNow t)) p stOk 0 []))) ∧
    (w.opcode = 0x0106 → (flashRead t (pw p 0) (pw p 1)).length ≤ replySpace t p →
      exec (.flashAccessComplete q true) s = .next (settle (answer t p stOk
        (flashRead t (pw p 0) (pw p 1)).length (flashRead t (pw p 0) (pw p 1))))) ∧
    (w.opcode = 0x0107 → exec (.flashAccessComplete q true) s =
      .next (settle (answer (flashPut t (slotBase (pw p 0) + pw p 1) (paramBytes p 2)) p stOk 0 []))) ∧
    (∀ v crc, w.opcode = 0x0108 → slotImage t (pw p 0) = some (v, crc) → crc = pw p 1 →
      exec (.flashAccessComplete q true) s = .next (settle (answer (flashPut t (0x1000 * (newerRecord t).2)
        (recordOf (match (newerRecord t).1 with | some (n, _) => n + 1 | none => 1) (pw p 0) crc)) p stOk 0 []))) ∧
    (w.opcode = 0x0205 → exec (.flashAccessComplete q true) s =
      .next (settle (answer (modFlash t fun x => { x with cfg := saveCfg x.cfg (configImage t) }) p stOk 0 []))) ∧
    (w.opcode = 0x0206 → bankBusy t = true → exec (.flashAccessComplete q true) s = .next (settle (answer t p stBusy 0 []))) ∧
    (∀ l, w.opcode = 0x0206 → bankBusy t = false → newestCfg t = some l → exec (.flashAccessComplete q true) s =
      .next (settle (answer (loadImage t l (some p.queue.toNat)) p stOk 0 []))) ∧
    (w.opcode = 0x0317 → exec (.flashAccessComplete q true) s =
      .next (settle (answer (saveRwu t (savedRegs t ++ calNow t)) p stOk 0 []))) ∧
    (w.opcode = 0x0405 → exec (.flashAccessComplete q true) s =
      .next (settle (answer (modFlash t fun x => { x with map := saveImage x.map (mapWords t) }) p stOk 0 []))) ∧
    (w.opcode = 0x0707 → exec (.flashAccessComplete q true) s =
      .next (settle (answer (saveRwu t (horizonWords t)) p stOk 0 [])))
end

