-- ==== Sys2Proof/Laws/Tbl.lean ====
section
/-!
SUPPORT. Sparse tables: what a read answers after a write, and that every table operation keeps the canonical form.
-/
namespace Sys2Proof.Machine

variable {α : Type}

@[simp] theorem tget_nil (d : α) (k : Nat) : tget d [] k = d := rfl

theorem tget_tput_same (d : α) (t : Tbl α) (k : Nat) (v : α) : tget d (tput t k v) k = v := by
  induction t with
  | nil => simp [tput, tget]
  | cons e t ih =>
    obtain ⟨a, w⟩ := e
    simp only [tput]
    split
    · simp [tget]
    · split
      · simp [tget]
      · rename_i h; simp [tget, h, ih]

theorem tget_tput_ne (d : α) (t : Tbl α) {k j : Nat} (v : α) (h : j ≠ k) : tget d (tput t k v) j = tget d t j := by
  induction t with
  | nil => simp [tput, tget, Ne.symm h]
  | cons e t ih =>
    obtain ⟨a, w⟩ := e
    simp only [tput]
    split
    · simp [tget, Ne.symm h]
    · split
      · rename_i hk; subst hk; simp [tget, Ne.symm h]
      · by_cases ha : a = j <;> simp [tget, ha, ih]

theorem tget_tdel_same (d : α) (t : Tbl α) (k : Nat) : tget d (tdel t k) k = d := by
  induction t with
  | nil => rfl
  | cons e t ih =>
    obtain ⟨a, w⟩ := e
    by_cases h : a = k <;> simp [tdel, tget, h, ih]

theorem tget_tdel_ne (d : α) (t : Tbl α) {k j : Nat} (h : j ≠ k) : tget d (tdel t k) j = tget d t j := by
  induction t with
  | nil => rfl
  | cons e t ih =>
    obtain ⟨a, w⟩ := e
    by_cases hk : a = k
    · subst hk; simp [tdel, tget, Ne.symm h, ih]
    · simp only [tdel, tget, if_neg hk, ih]

variable [DecidableEq α]

/-- A read after a write to the same entry gives the value written. -/
@[simp] theorem tget_tset_same (d : α) (t : Tbl α) (k : Nat) (v : α) : tget d (tset d t k v) k = v := by
  unfold tset; split
  · rename_i h; rw [tget_tdel_same, h]
  · exact tget_tput_same d t k v

/-- A write leaves every other entry alone. -/
theorem tget_tset_ne (d : α) (t : Tbl α) {k j : Nat} (v : α) (h : j ≠ k) : tget d (tset d t k v) j = tget d t j := by
  unfold tset; split
  · exact tget_tdel_ne d t h
  · exact tget_tput_ne d t v h

theorem tget_tset (d : α) (t : Tbl α) (k j : Nat) (v : α) : tget d (tset d t k v) j = if j = k then v else tget d t j := by
  by_cases h : j = k
  · subst h; simp
  · simp [h, tget_tset_ne d t v h]

@[simp] theorem tget_tmod_same (d : α) (t : Tbl α) (k : Nat) (f : α → α) : tget d (tmod d t k f) k = f (tget d t k) :=
  tget_tset_same d t k _

theorem tget_tmod_ne (d : α) (t : Tbl α) {k j : Nat} (f : α → α) (h : j ≠ k) : tget d (tmod d t k f) j = tget d t j :=
  tget_tset_ne d t _ h

theorem tget_tmod (d : α) (t : Tbl α) (k j : Nat) (f : α → α) :
    tget d (tmod d t k f) j = if j = k then f (tget d t k) else tget d t j := by
  unfold tmod; exact tget_tset d t k j _

/-! ### The canonical form -/

/-- Every key of the table is above n. -/
def keysAbove (n : Nat) (t : Tbl α) : Prop := ∀ e ∈ t, n < e.1

theorem tblWf_cons {d : α} {a : Nat} {v : α} {t : Tbl α} :
    tblWf d ((a, v) :: t) = true ↔ v ≠ d ∧ keysAbove a t ∧ tblWf d t = true := by
  induction t generalizing a v with
  | nil => simp [tblWf, keysAbove]
  | cons e t ih =>
    obtain ⟨b, w⟩ := e
    simp only [tblWf, Bool.and_eq_true, decide_eq_true_eq]
    constructor
    · rintro ⟨⟨hab, hv⟩, h⟩
      refine ⟨hv, ?_, h⟩
      intro x hx
      rcases List.mem_cons.mp hx with rfl | hx
      · exact hab
      · exact Nat.lt_trans hab ((ih.mp h).2.1 x hx)
    · rintro ⟨hv, hk, h⟩
      exact ⟨⟨hk _ List.mem_cons_self, hv⟩, h⟩

omit [DecidableEq α] in
theorem keysAbove_tput {n k : Nat} {t : Tbl α} {v : α} (hk : n < k) (h : keysAbove n t) : keysAbove n (tput t k v) := by
  induction t with
  | nil => intro x hx; simp [tput] at hx; subst hx; exact hk
  | cons e t ih =>
    obtain ⟨a, w⟩ := e
    have ha : n < a := h (a, w) List.mem_cons_self
    have ht : keysAbove n t := fun x hx => h x (List.mem_cons_of_mem _ hx)
    simp only [tput]
    split
    · intro x hx; rcases List.mem_cons.mp hx with rfl | hx
      · exact hk
      · exact h x hx
    · split
      · intro x hx; rcases List.mem_cons.mp hx with rfl | hx
        · exact hk
        · exact ht x hx
      · intro x hx; rcases List.mem_cons.mp hx with rfl | hx
        · exact ha
        · exact ih ht x hx

omit [DecidableEq α] in
theorem keysAbove_tdel {n k : Nat} {t : Tbl α} (h : keysAbove n t) : keysAbove n (tdel t k) := by
  induction t with
  | nil => exact h
  | cons e t ih =>
    obtain ⟨a, w⟩ := e
    have ht : keysAbove n t := fun x hx => h x (List.mem_cons_of_mem _ hx)
    simp only [tdel]
    split
    · exact ih ht
    · intro x hx; rcases List.mem_cons.mp hx with rfl | hx
      · exact h (a, w) List.mem_cons_self
      · exact ih ht x hx

omit [DecidableEq α] in
theorem keysAbove_mono {n m : Nat} {t : Tbl α} (hnm : n < m) (h : keysAbove m t) : keysAbove n t :=
  fun x hx => Nat.lt_trans hnm (h x hx)

theorem tput_wf {d : α} {t : Tbl α} (k : Nat) {v : α} (hv : v ≠ d) (h : tblWf d t = true) : tblWf d (tput t k v) = true := by
  induction t with
  | nil => simp [tput, tblWf, hv]
  | cons e t ih =>
    obtain ⟨a, w⟩ := e
    obtain ⟨hw, hka, ht⟩ := tblWf_cons.mp h
    simp only [tput]
    split
    · rename_i hlt
      refine tblWf_cons.mpr ⟨hv, ?_, h⟩
      intro x hx; rcases List.mem_cons.mp hx with rfl | hx
      · exact hlt
      · exact Nat.lt_trans hlt (hka x hx)
    · split
      · rename_i he; subst he; exact tblWf_cons.mpr ⟨hv, hka, ht⟩
      · refine tblWf_cons.mpr ⟨hw, keysAbove_tput (by omega) hka, ih ht⟩

theorem tdel_wf {d : α} {t : Tbl α} (k : Nat) (h : tblWf d t = true) : tblWf d (tdel t k) = true := by
  induction t with
  | nil => exact h
  | cons e t ih =>
    obtain ⟨a, w⟩ := e
    obtain ⟨hw, hka, ht⟩ := tblWf_cons.mp h
    simp only [tdel]
    split
    · exact ih ht
    · exact tblWf_cons.mpr ⟨hw, keysAbove_tdel hka, ih ht⟩

/-- Setting an entry keeps the canonical form. -/
theorem tset_wf {d : α} {t : Tbl α} (k : Nat) (v : α) (h : tblWf d t = true) : tblWf d (tset d t k v) = true := by
  unfold tset; split
  · exact tdel_wf k h
  · rename_i hv; exact tput_wf k hv h

/-- Changing an entry keeps the canonical form. -/
theorem tmod_wf {d : α} {t : Tbl α} (k : Nat) (f : α → α) (h : tblWf d t = true) : tblWf d (tmod d t k f) = true :=
  tset_wf k _ h

end Sys2Proof.Machine
end

