-- ==== Sys2Proof/Laws/State.lean ====
section
/-!
SUPPORT. What each update of the state leaves alone, one lemma per field of the state and per update, and what a read of an entry gives
after a write of it.
-/
namespace Sys2Proof.Machine

variable (s : State)

/-! ### modLane -/

@[simp] theorem modLane_regs (n : Nat) (f : Lane → Lane) : (modLane s n f).regs = s.regs := rfl
@[simp] theorem modLane_frame (n : Nat) (f : Lane → Lane) : (modLane s n f).frame = s.frame := rfl
@[simp] theorem modLane_brs (n : Nat) (f : Lane → Lane) : (modLane s n f).brs = s.brs := rfl
@[simp] theorem modLane_links (n : Nat) (f : Lane → Lane) : (modLane s n f).links = s.links := rfl
@[simp] theorem modLane_nodes (n : Nat) (f : Lane → Lane) : (modLane s n f).nodes = s.nodes := rfl
@[simp] theorem modLane_curd (n : Nat) (f : Lane → Lane) : (modLane s n f).curd = s.curd := rfl
@[simp] theorem modLane_harp (n : Nat) (f : Lane → Lane) : (modLane s n f).harp = s.harp := rfl
@[simp] theorem modLane_press (n : Nat) (f : Lane → Lane) : (modLane s n f).press = s.press := rfl
@[simp] theorem modLane_ctls (n : Nat) (f : Lane → Lane) : (modLane s n f).ctls = s.ctls := rfl
@[simp] theorem modLane_brCtls (n : Nat) (f : Lane → Lane) : (modLane s n f).brCtls = s.brCtls := rfl
@[simp] theorem modLane_twin (n : Nat) (f : Lane → Lane) : (modLane s n f).twin = s.twin := rfl
@[simp] theorem modLane_mode (n : Nat) (f : Lane → Lane) : (modLane s n f).mode = s.mode := rfl
@[simp] theorem modLane_aff (n : Nat) (f : Lane → Lane) : (modLane s n f).aff = s.aff := rfl
@[simp] theorem modLane_cellar (n : Nat) (f : Lane → Lane) : (modLane s n f).cellar = s.cellar := rfl
@[simp] theorem modLane_cave (n : Nat) (f : Lane → Lane) : (modLane s n f).cave = s.cave := rfl
@[simp] theorem modLane_clk (n : Nat) (f : Lane → Lane) : (modLane s n f).clk = s.clk := rfl
@[simp] theorem modLane_stu (n : Nat) (f : Lane → Lane) : (modLane s n f).stu = s.stu := rfl
@[simp] theorem modLane_rind (n : Nat) (f : Lane → Lane) : (modLane s n f).rind = s.rind := rfl
@[simp] theorem modLane_power (n : Nat) (f : Lane → Lane) : (modLane s n f).power = s.power := rfl
@[simp] theorem modLane_boot (n : Nat) (f : Lane → Lane) : (modLane s n f).boot = s.boot := rfl
@[simp] theorem modLane_cmd (n : Nat) (f : Lane → Lane) : (modLane s n f).cmd = s.cmd := rfl
@[simp] theorem modLane_tx (n : Nat) (f : Lane → Lane) : (modLane s n f).tx = s.tx := rfl
@[simp] theorem modLane_fresh (n : Nat) (f : Lane → Lane) : (modLane s n f).fresh = s.fresh := rfl
@[simp] theorem modLane_pending (n : Nat) (f : Lane → Lane) : (modLane s n f).pending = s.pending := rfl

/-! ### modBr -/

@[simp] theorem modBr_regs (n : Nat) (f : Branch → Branch) : (modBr s n f).regs = s.regs := rfl
@[simp] theorem modBr_frame (n : Nat) (f : Branch → Branch) : (modBr s n f).frame = s.frame := rfl
@[simp] theorem modBr_lanes (n : Nat) (f : Branch → Branch) : (modBr s n f).lanes = s.lanes := rfl
@[simp] theorem modBr_links (n : Nat) (f : Branch → Branch) : (modBr s n f).links = s.links := rfl
@[simp] theorem modBr_nodes (n : Nat) (f : Branch → Branch) : (modBr s n f).nodes = s.nodes := rfl
@[simp] theorem modBr_curd (n : Nat) (f : Branch → Branch) : (modBr s n f).curd = s.curd := rfl
@[simp] theorem modBr_harp (n : Nat) (f : Branch → Branch) : (modBr s n f).harp = s.harp := rfl
@[simp] theorem modBr_press (n : Nat) (f : Branch → Branch) : (modBr s n f).press = s.press := rfl
@[simp] theorem modBr_ctls (n : Nat) (f : Branch → Branch) : (modBr s n f).ctls = s.ctls := rfl
@[simp] theorem modBr_brCtls (n : Nat) (f : Branch → Branch) : (modBr s n f).brCtls = s.brCtls := rfl
@[simp] theorem modBr_twin (n : Nat) (f : Branch → Branch) : (modBr s n f).twin = s.twin := rfl
@[simp] theorem modBr_mode (n : Nat) (f : Branch → Branch) : (modBr s n f).mode = s.mode := rfl
@[simp] theorem modBr_aff (n : Nat) (f : Branch → Branch) : (modBr s n f).aff = s.aff := rfl
@[simp] theorem modBr_cellar (n : Nat) (f : Branch → Branch) : (modBr s n f).cellar = s.cellar := rfl
@[simp] theorem modBr_cave (n : Nat) (f : Branch → Branch) : (modBr s n f).cave = s.cave := rfl
@[simp] theorem modBr_clk (n : Nat) (f : Branch → Branch) : (modBr s n f).clk = s.clk := rfl
@[simp] theorem modBr_stu (n : Nat) (f : Branch → Branch) : (modBr s n f).stu = s.stu := rfl
@[simp] theorem modBr_rind (n : Nat) (f : Branch → Branch) : (modBr s n f).rind = s.rind := rfl
@[simp] theorem modBr_power (n : Nat) (f : Branch → Branch) : (modBr s n f).power = s.power := rfl
@[simp] theorem modBr_boot (n : Nat) (f : Branch → Branch) : (modBr s n f).boot = s.boot := rfl
@[simp] theorem modBr_cmd (n : Nat) (f : Branch → Branch) : (modBr s n f).cmd = s.cmd := rfl
@[simp] theorem modBr_tx (n : Nat) (f : Branch → Branch) : (modBr s n f).tx = s.tx := rfl
@[simp] theorem modBr_fresh (n : Nat) (f : Branch → Branch) : (modBr s n f).fresh = s.fresh := rfl
@[simp] theorem modBr_pending (n : Nat) (f : Branch → Branch) : (modBr s n f).pending = s.pending := rfl

/-! ### modLink -/

@[simp] theorem modLink_regs (n : Nat) (f : CellLink → CellLink) : (modLink s n f).regs = s.regs := rfl
@[simp] theorem modLink_frame (n : Nat) (f : CellLink → CellLink) : (modLink s n f).frame = s.frame := rfl
@[simp] theorem modLink_lanes (n : Nat) (f : CellLink → CellLink) : (modLink s n f).lanes = s.lanes := rfl
@[simp] theorem modLink_brs (n : Nat) (f : CellLink → CellLink) : (modLink s n f).brs = s.brs := rfl
@[simp] theorem modLink_nodes (n : Nat) (f : CellLink → CellLink) : (modLink s n f).nodes = s.nodes := rfl
@[simp] theorem modLink_curd (n : Nat) (f : CellLink → CellLink) : (modLink s n f).curd = s.curd := rfl
@[simp] theorem modLink_harp (n : Nat) (f : CellLink → CellLink) : (modLink s n f).harp = s.harp := rfl
@[simp] theorem modLink_press (n : Nat) (f : CellLink → CellLink) : (modLink s n f).press = s.press := rfl
@[simp] theorem modLink_ctls (n : Nat) (f : CellLink → CellLink) : (modLink s n f).ctls = s.ctls := rfl
@[simp] theorem modLink_brCtls (n : Nat) (f : CellLink → CellLink) : (modLink s n f).brCtls = s.brCtls := rfl
@[simp] theorem modLink_twin (n : Nat) (f : CellLink → CellLink) : (modLink s n f).twin = s.twin := rfl
@[simp] theorem modLink_mode (n : Nat) (f : CellLink → CellLink) : (modLink s n f).mode = s.mode := rfl
@[simp] theorem modLink_aff (n : Nat) (f : CellLink → CellLink) : (modLink s n f).aff = s.aff := rfl
@[simp] theorem modLink_cellar (n : Nat) (f : CellLink → CellLink) : (modLink s n f).cellar = s.cellar := rfl
@[simp] theorem modLink_cave (n : Nat) (f : CellLink → CellLink) : (modLink s n f).cave = s.cave := rfl
@[simp] theorem modLink_clk (n : Nat) (f : CellLink → CellLink) : (modLink s n f).clk = s.clk := rfl
@[simp] theorem modLink_stu (n : Nat) (f : CellLink → CellLink) : (modLink s n f).stu = s.stu := rfl
@[simp] theorem modLink_rind (n : Nat) (f : CellLink → CellLink) : (modLink s n f).rind = s.rind := rfl
@[simp] theorem modLink_power (n : Nat) (f : CellLink → CellLink) : (modLink s n f).power = s.power := rfl
@[simp] theorem modLink_boot (n : Nat) (f : CellLink → CellLink) : (modLink s n f).boot = s.boot := rfl
@[simp] theorem modLink_cmd (n : Nat) (f : CellLink → CellLink) : (modLink s n f).cmd = s.cmd := rfl
@[simp] theorem modLink_tx (n : Nat) (f : CellLink → CellLink) : (modLink s n f).tx = s.tx := rfl
@[simp] theorem modLink_fresh (n : Nat) (f : CellLink → CellLink) : (modLink s n f).fresh = s.fresh := rfl
@[simp] theorem modLink_pending (n : Nat) (f : CellLink → CellLink) : (modLink s n f).pending = s.pending := rfl

/-! ### modNode -/

@[simp] theorem modNode_regs (n : Nat) (f : Node → Node) : (modNode s n f).regs = s.regs := rfl
@[simp] theorem modNode_frame (n : Nat) (f : Node → Node) : (modNode s n f).frame = s.frame := rfl
@[simp] theorem modNode_lanes (n : Nat) (f : Node → Node) : (modNode s n f).lanes = s.lanes := rfl
@[simp] theorem modNode_brs (n : Nat) (f : Node → Node) : (modNode s n f).brs = s.brs := rfl
@[simp] theorem modNode_links (n : Nat) (f : Node → Node) : (modNode s n f).links = s.links := rfl
@[simp] theorem modNode_curd (n : Nat) (f : Node → Node) : (modNode s n f).curd = s.curd := rfl
@[simp] theorem modNode_harp (n : Nat) (f : Node → Node) : (modNode s n f).harp = s.harp := rfl
@[simp] theorem modNode_press (n : Nat) (f : Node → Node) : (modNode s n f).press = s.press := rfl
@[simp] theorem modNode_ctls (n : Nat) (f : Node → Node) : (modNode s n f).ctls = s.ctls := rfl
@[simp] theorem modNode_brCtls (n : Nat) (f : Node → Node) : (modNode s n f).brCtls = s.brCtls := rfl
@[simp] theorem modNode_twin (n : Nat) (f : Node → Node) : (modNode s n f).twin = s.twin := rfl
@[simp] theorem modNode_mode (n : Nat) (f : Node → Node) : (modNode s n f).mode = s.mode := rfl
@[simp] theorem modNode_aff (n : Nat) (f : Node → Node) : (modNode s n f).aff = s.aff := rfl
@[simp] theorem modNode_cellar (n : Nat) (f : Node → Node) : (modNode s n f).cellar = s.cellar := rfl
@[simp] theorem modNode_cave (n : Nat) (f : Node → Node) : (modNode s n f).cave = s.cave := rfl
@[simp] theorem modNode_clk (n : Nat) (f : Node → Node) : (modNode s n f).clk = s.clk := rfl
@[simp] theorem modNode_stu (n : Nat) (f : Node → Node) : (modNode s n f).stu = s.stu := rfl
@[simp] theorem modNode_rind (n : Nat) (f : Node → Node) : (modNode s n f).rind = s.rind := rfl
@[simp] theorem modNode_power (n : Nat) (f : Node → Node) : (modNode s n f).power = s.power := rfl
@[simp] theorem modNode_boot (n : Nat) (f : Node → Node) : (modNode s n f).boot = s.boot := rfl
@[simp] theorem modNode_cmd (n : Nat) (f : Node → Node) : (modNode s n f).cmd = s.cmd := rfl
@[simp] theorem modNode_tx (n : Nat) (f : Node → Node) : (modNode s n f).tx = s.tx := rfl
@[simp] theorem modNode_fresh (n : Nat) (f : Node → Node) : (modNode s n f).fresh = s.fresh := rfl
@[simp] theorem modNode_pending (n : Nat) (f : Node → Node) : (modNode s n f).pending = s.pending := rfl

/-! ### modCtl -/

@[simp] theorem modCtl_regs (n : Nat) (f : CellCtl → CellCtl) : (modCtl s n f).regs = s.regs := rfl
@[simp] theorem modCtl_frame (n : Nat) (f : CellCtl → CellCtl) : (modCtl s n f).frame = s.frame := rfl
@[simp] theorem modCtl_lanes (n : Nat) (f : CellCtl → CellCtl) : (modCtl s n f).lanes = s.lanes := rfl
@[simp] theorem modCtl_brs (n : Nat) (f : CellCtl → CellCtl) : (modCtl s n f).brs = s.brs := rfl
@[simp] theorem modCtl_links (n : Nat) (f : CellCtl → CellCtl) : (modCtl s n f).links = s.links := rfl
@[simp] theorem modCtl_nodes (n : Nat) (f : CellCtl → CellCtl) : (modCtl s n f).nodes = s.nodes := rfl
@[simp] theorem modCtl_curd (n : Nat) (f : CellCtl → CellCtl) : (modCtl s n f).curd = s.curd := rfl
@[simp] theorem modCtl_harp (n : Nat) (f : CellCtl → CellCtl) : (modCtl s n f).harp = s.harp := rfl
@[simp] theorem modCtl_press (n : Nat) (f : CellCtl → CellCtl) : (modCtl s n f).press = s.press := rfl
@[simp] theorem modCtl_brCtls (n : Nat) (f : CellCtl → CellCtl) : (modCtl s n f).brCtls = s.brCtls := rfl
@[simp] theorem modCtl_twin (n : Nat) (f : CellCtl → CellCtl) : (modCtl s n f).twin = s.twin := rfl
@[simp] theorem modCtl_mode (n : Nat) (f : CellCtl → CellCtl) : (modCtl s n f).mode = s.mode := rfl
@[simp] theorem modCtl_aff (n : Nat) (f : CellCtl → CellCtl) : (modCtl s n f).aff = s.aff := rfl
@[simp] theorem modCtl_cellar (n : Nat) (f : CellCtl → CellCtl) : (modCtl s n f).cellar = s.cellar := rfl
@[simp] theorem modCtl_cave (n : Nat) (f : CellCtl → CellCtl) : (modCtl s n f).cave = s.cave := rfl
@[simp] theorem modCtl_clk (n : Nat) (f : CellCtl → CellCtl) : (modCtl s n f).clk = s.clk := rfl
@[simp] theorem modCtl_stu (n : Nat) (f : CellCtl → CellCtl) : (modCtl s n f).stu = s.stu := rfl
@[simp] theorem modCtl_rind (n : Nat) (f : CellCtl → CellCtl) : (modCtl s n f).rind = s.rind := rfl
@[simp] theorem modCtl_power (n : Nat) (f : CellCtl → CellCtl) : (modCtl s n f).power = s.power := rfl
@[simp] theorem modCtl_boot (n : Nat) (f : CellCtl → CellCtl) : (modCtl s n f).boot = s.boot := rfl
@[simp] theorem modCtl_cmd (n : Nat) (f : CellCtl → CellCtl) : (modCtl s n f).cmd = s.cmd := rfl
@[simp] theorem modCtl_tx (n : Nat) (f : CellCtl → CellCtl) : (modCtl s n f).tx = s.tx := rfl
@[simp] theorem modCtl_fresh (n : Nat) (f : CellCtl → CellCtl) : (modCtl s n f).fresh = s.fresh := rfl
@[simp] theorem modCtl_pending (n : Nat) (f : CellCtl → CellCtl) : (modCtl s n f).pending = s.pending := rfl

/-! ### modBc -/

@[simp] theorem modBc_regs (n : Nat) (f : BranchCtl → BranchCtl) : (modBc s n f).regs = s.regs := rfl
@[simp] theorem modBc_frame (n : Nat) (f : BranchCtl → BranchCtl) : (modBc s n f).frame = s.frame := rfl
@[simp] theorem modBc_lanes (n : Nat) (f : BranchCtl → BranchCtl) : (modBc s n f).lanes = s.lanes := rfl
@[simp] theorem modBc_brs (n : Nat) (f : BranchCtl → BranchCtl) : (modBc s n f).brs = s.brs := rfl
@[simp] theorem modBc_links (n : Nat) (f : BranchCtl → BranchCtl) : (modBc s n f).links = s.links := rfl
@[simp] theorem modBc_nodes (n : Nat) (f : BranchCtl → BranchCtl) : (modBc s n f).nodes = s.nodes := rfl
@[simp] theorem modBc_curd (n : Nat) (f : BranchCtl → BranchCtl) : (modBc s n f).curd = s.curd := rfl
@[simp] theorem modBc_harp (n : Nat) (f : BranchCtl → BranchCtl) : (modBc s n f).harp = s.harp := rfl
@[simp] theorem modBc_press (n : Nat) (f : BranchCtl → BranchCtl) : (modBc s n f).press = s.press := rfl
@[simp] theorem modBc_ctls (n : Nat) (f : BranchCtl → BranchCtl) : (modBc s n f).ctls = s.ctls := rfl
@[simp] theorem modBc_twin (n : Nat) (f : BranchCtl → BranchCtl) : (modBc s n f).twin = s.twin := rfl
@[simp] theorem modBc_mode (n : Nat) (f : BranchCtl → BranchCtl) : (modBc s n f).mode = s.mode := rfl
@[simp] theorem modBc_aff (n : Nat) (f : BranchCtl → BranchCtl) : (modBc s n f).aff = s.aff := rfl
@[simp] theorem modBc_cellar (n : Nat) (f : BranchCtl → BranchCtl) : (modBc s n f).cellar = s.cellar := rfl
@[simp] theorem modBc_cave (n : Nat) (f : BranchCtl → BranchCtl) : (modBc s n f).cave = s.cave := rfl
@[simp] theorem modBc_clk (n : Nat) (f : BranchCtl → BranchCtl) : (modBc s n f).clk = s.clk := rfl
@[simp] theorem modBc_stu (n : Nat) (f : BranchCtl → BranchCtl) : (modBc s n f).stu = s.stu := rfl
@[simp] theorem modBc_rind (n : Nat) (f : BranchCtl → BranchCtl) : (modBc s n f).rind = s.rind := rfl
@[simp] theorem modBc_power (n : Nat) (f : BranchCtl → BranchCtl) : (modBc s n f).power = s.power := rfl
@[simp] theorem modBc_boot (n : Nat) (f : BranchCtl → BranchCtl) : (modBc s n f).boot = s.boot := rfl
@[simp] theorem modBc_cmd (n : Nat) (f : BranchCtl → BranchCtl) : (modBc s n f).cmd = s.cmd := rfl
@[simp] theorem modBc_tx (n : Nat) (f : BranchCtl → BranchCtl) : (modBc s n f).tx = s.tx := rfl
@[simp] theorem modBc_fresh (n : Nat) (f : BranchCtl → BranchCtl) : (modBc s n f).fresh = s.fresh := rfl
@[simp] theorem modBc_pending (n : Nat) (f : BranchCtl → BranchCtl) : (modBc s n f).pending = s.pending := rfl

/-! ### modCh -/

@[simp] theorem modCh_regs (n : Nat) (f : CellHarp → CellHarp) : (modCh s n f).regs = s.regs := rfl
@[simp] theorem modCh_frame (n : Nat) (f : CellHarp → CellHarp) : (modCh s n f).frame = s.frame := rfl
@[simp] theorem modCh_lanes (n : Nat) (f : CellHarp → CellHarp) : (modCh s n f).lanes = s.lanes := rfl
@[simp] theorem modCh_brs (n : Nat) (f : CellHarp → CellHarp) : (modCh s n f).brs = s.brs := rfl
@[simp] theorem modCh_links (n : Nat) (f : CellHarp → CellHarp) : (modCh s n f).links = s.links := rfl
@[simp] theorem modCh_nodes (n : Nat) (f : CellHarp → CellHarp) : (modCh s n f).nodes = s.nodes := rfl
@[simp] theorem modCh_curd (n : Nat) (f : CellHarp → CellHarp) : (modCh s n f).curd = s.curd := rfl
@[simp] theorem modCh_press (n : Nat) (f : CellHarp → CellHarp) : (modCh s n f).press = s.press := rfl
@[simp] theorem modCh_ctls (n : Nat) (f : CellHarp → CellHarp) : (modCh s n f).ctls = s.ctls := rfl
@[simp] theorem modCh_brCtls (n : Nat) (f : CellHarp → CellHarp) : (modCh s n f).brCtls = s.brCtls := rfl
@[simp] theorem modCh_twin (n : Nat) (f : CellHarp → CellHarp) : (modCh s n f).twin = s.twin := rfl
@[simp] theorem modCh_mode (n : Nat) (f : CellHarp → CellHarp) : (modCh s n f).mode = s.mode := rfl
@[simp] theorem modCh_aff (n : Nat) (f : CellHarp → CellHarp) : (modCh s n f).aff = s.aff := rfl
@[simp] theorem modCh_cellar (n : Nat) (f : CellHarp → CellHarp) : (modCh s n f).cellar = s.cellar := rfl
@[simp] theorem modCh_cave (n : Nat) (f : CellHarp → CellHarp) : (modCh s n f).cave = s.cave := rfl
@[simp] theorem modCh_clk (n : Nat) (f : CellHarp → CellHarp) : (modCh s n f).clk = s.clk := rfl
@[simp] theorem modCh_stu (n : Nat) (f : CellHarp → CellHarp) : (modCh s n f).stu = s.stu := rfl
@[simp] theorem modCh_rind (n : Nat) (f : CellHarp → CellHarp) : (modCh s n f).rind = s.rind := rfl
@[simp] theorem modCh_power (n : Nat) (f : CellHarp → CellHarp) : (modCh s n f).power = s.power := rfl
@[simp] theorem modCh_boot (n : Nat) (f : CellHarp → CellHarp) : (modCh s n f).boot = s.boot := rfl
@[simp] theorem modCh_cmd (n : Nat) (f : CellHarp → CellHarp) : (modCh s n f).cmd = s.cmd := rfl
@[simp] theorem modCh_tx (n : Nat) (f : CellHarp → CellHarp) : (modCh s n f).tx = s.tx := rfl
@[simp] theorem modCh_fresh (n : Nat) (f : CellHarp → CellHarp) : (modCh s n f).fresh = s.fresh := rfl
@[simp] theorem modCh_pending (n : Nat) (f : CellHarp → CellHarp) : (modCh s n f).pending = s.pending := rfl

/-! ### modPair -/

@[simp] theorem modPair_regs (n : Nat) (f : LPair → LPair) : (modPair s n f).regs = s.regs := rfl
@[simp] theorem modPair_frame (n : Nat) (f : LPair → LPair) : (modPair s n f).frame = s.frame := rfl
@[simp] theorem modPair_lanes (n : Nat) (f : LPair → LPair) : (modPair s n f).lanes = s.lanes := rfl
@[simp] theorem modPair_brs (n : Nat) (f : LPair → LPair) : (modPair s n f).brs = s.brs := rfl
@[simp] theorem modPair_links (n : Nat) (f : LPair → LPair) : (modPair s n f).links = s.links := rfl
@[simp] theorem modPair_nodes (n : Nat) (f : LPair → LPair) : (modPair s n f).nodes = s.nodes := rfl
@[simp] theorem modPair_curd (n : Nat) (f : LPair → LPair) : (modPair s n f).curd = s.curd := rfl
@[simp] theorem modPair_press (n : Nat) (f : LPair → LPair) : (modPair s n f).press = s.press := rfl
@[simp] theorem modPair_ctls (n : Nat) (f : LPair → LPair) : (modPair s n f).ctls = s.ctls := rfl
@[simp] theorem modPair_brCtls (n : Nat) (f : LPair → LPair) : (modPair s n f).brCtls = s.brCtls := rfl
@[simp] theorem modPair_twin (n : Nat) (f : LPair → LPair) : (modPair s n f).twin = s.twin := rfl
@[simp] theorem modPair_mode (n : Nat) (f : LPair → LPair) : (modPair s n f).mode = s.mode := rfl
@[simp] theorem modPair_aff (n : Nat) (f : LPair → LPair) : (modPair s n f).aff = s.aff := rfl
@[simp] theorem modPair_cellar (n : Nat) (f : LPair → LPair) : (modPair s n f).cellar = s.cellar := rfl
@[simp] theorem modPair_cave (n : Nat) (f : LPair → LPair) : (modPair s n f).cave = s.cave := rfl
@[simp] theorem modPair_clk (n : Nat) (f : LPair → LPair) : (modPair s n f).clk = s.clk := rfl
@[simp] theorem modPair_stu (n : Nat) (f : LPair → LPair) : (modPair s n f).stu = s.stu := rfl
@[simp] theorem modPair_rind (n : Nat) (f : LPair → LPair) : (modPair s n f).rind = s.rind := rfl
@[simp] theorem modPair_power (n : Nat) (f : LPair → LPair) : (modPair s n f).power = s.power := rfl
@[simp] theorem modPair_boot (n : Nat) (f : LPair → LPair) : (modPair s n f).boot = s.boot := rfl
@[simp] theorem modPair_cmd (n : Nat) (f : LPair → LPair) : (modPair s n f).cmd = s.cmd := rfl
@[simp] theorem modPair_tx (n : Nat) (f : LPair → LPair) : (modPair s n f).tx = s.tx := rfl
@[simp] theorem modPair_fresh (n : Nat) (f : LPair → LPair) : (modPair s n f).fresh = s.fresh := rfl
@[simp] theorem modPair_pending (n : Nat) (f : LPair → LPair) : (modPair s n f).pending = s.pending := rfl

/-! ### modQ -/

@[simp] theorem modQ_regs (n : Nat) (f : Queue → Queue) : (modQ s n f).regs = s.regs := rfl
@[simp] theorem modQ_frame (n : Nat) (f : Queue → Queue) : (modQ s n f).frame = s.frame := rfl
@[simp] theorem modQ_lanes (n : Nat) (f : Queue → Queue) : (modQ s n f).lanes = s.lanes := rfl
@[simp] theorem modQ_brs (n : Nat) (f : Queue → Queue) : (modQ s n f).brs = s.brs := rfl
@[simp] theorem modQ_links (n : Nat) (f : Queue → Queue) : (modQ s n f).links = s.links := rfl
@[simp] theorem modQ_nodes (n : Nat) (f : Queue → Queue) : (modQ s n f).nodes = s.nodes := rfl
@[simp] theorem modQ_curd (n : Nat) (f : Queue → Queue) : (modQ s n f).curd = s.curd := rfl
@[simp] theorem modQ_harp (n : Nat) (f : Queue → Queue) : (modQ s n f).harp = s.harp := rfl
@[simp] theorem modQ_press (n : Nat) (f : Queue → Queue) : (modQ s n f).press = s.press := rfl
@[simp] theorem modQ_ctls (n : Nat) (f : Queue → Queue) : (modQ s n f).ctls = s.ctls := rfl
@[simp] theorem modQ_brCtls (n : Nat) (f : Queue → Queue) : (modQ s n f).brCtls = s.brCtls := rfl
@[simp] theorem modQ_twin (n : Nat) (f : Queue → Queue) : (modQ s n f).twin = s.twin := rfl
@[simp] theorem modQ_mode (n : Nat) (f : Queue → Queue) : (modQ s n f).mode = s.mode := rfl
@[simp] theorem modQ_aff (n : Nat) (f : Queue → Queue) : (modQ s n f).aff = s.aff := rfl
@[simp] theorem modQ_cellar (n : Nat) (f : Queue → Queue) : (modQ s n f).cellar = s.cellar := rfl
@[simp] theorem modQ_cave (n : Nat) (f : Queue → Queue) : (modQ s n f).cave = s.cave := rfl
@[simp] theorem modQ_clk (n : Nat) (f : Queue → Queue) : (modQ s n f).clk = s.clk := rfl
@[simp] theorem modQ_stu (n : Nat) (f : Queue → Queue) : (modQ s n f).stu = s.stu := rfl
@[simp] theorem modQ_rind (n : Nat) (f : Queue → Queue) : (modQ s n f).rind = s.rind := rfl
@[simp] theorem modQ_power (n : Nat) (f : Queue → Queue) : (modQ s n f).power = s.power := rfl
@[simp] theorem modQ_boot (n : Nat) (f : Queue → Queue) : (modQ s n f).boot = s.boot := rfl
@[simp] theorem modQ_tx (n : Nat) (f : Queue → Queue) : (modQ s n f).tx = s.tx := rfl
@[simp] theorem modQ_fresh (n : Nat) (f : Queue → Queue) : (modQ s n f).fresh = s.fresh := rfl
@[simp] theorem modQ_pending (n : Nat) (f : Queue → Queue) : (modQ s n f).pending = s.pending := rfl

/-! ### modRing -/

@[simp] theorem modRing_regs (n : Nat) (f : EvRing → EvRing) : (modRing s n f).regs = s.regs := rfl
@[simp] theorem modRing_frame (n : Nat) (f : EvRing → EvRing) : (modRing s n f).frame = s.frame := rfl
@[simp] theorem modRing_lanes (n : Nat) (f : EvRing → EvRing) : (modRing s n f).lanes = s.lanes := rfl
@[simp] theorem modRing_brs (n : Nat) (f : EvRing → EvRing) : (modRing s n f).brs = s.brs := rfl
@[simp] theorem modRing_links (n : Nat) (f : EvRing → EvRing) : (modRing s n f).links = s.links := rfl
@[simp] theorem modRing_nodes (n : Nat) (f : EvRing → EvRing) : (modRing s n f).nodes = s.nodes := rfl
@[simp] theorem modRing_curd (n : Nat) (f : EvRing → EvRing) : (modRing s n f).curd = s.curd := rfl
@[simp] theorem modRing_harp (n : Nat) (f : EvRing → EvRing) : (modRing s n f).harp = s.harp := rfl
@[simp] theorem modRing_press (n : Nat) (f : EvRing → EvRing) : (modRing s n f).press = s.press := rfl
@[simp] theorem modRing_ctls (n : Nat) (f : EvRing → EvRing) : (modRing s n f).ctls = s.ctls := rfl
@[simp] theorem modRing_brCtls (n : Nat) (f : EvRing → EvRing) : (modRing s n f).brCtls = s.brCtls := rfl
@[simp] theorem modRing_twin (n : Nat) (f : EvRing → EvRing) : (modRing s n f).twin = s.twin := rfl
@[simp] theorem modRing_mode (n : Nat) (f : EvRing → EvRing) : (modRing s n f).mode = s.mode := rfl
@[simp] theorem modRing_aff (n : Nat) (f : EvRing → EvRing) : (modRing s n f).aff = s.aff := rfl
@[simp] theorem modRing_cellar (n : Nat) (f : EvRing → EvRing) : (modRing s n f).cellar = s.cellar := rfl
@[simp] theorem modRing_cave (n : Nat) (f : EvRing → EvRing) : (modRing s n f).cave = s.cave := rfl
@[simp] theorem modRing_clk (n : Nat) (f : EvRing → EvRing) : (modRing s n f).clk = s.clk := rfl
@[simp] theorem modRing_stu (n : Nat) (f : EvRing → EvRing) : (modRing s n f).stu = s.stu := rfl
@[simp] theorem modRing_rind (n : Nat) (f : EvRing → EvRing) : (modRing s n f).rind = s.rind := rfl
@[simp] theorem modRing_power (n : Nat) (f : EvRing → EvRing) : (modRing s n f).power = s.power := rfl
@[simp] theorem modRing_boot (n : Nat) (f : EvRing → EvRing) : (modRing s n f).boot = s.boot := rfl
@[simp] theorem modRing_tx (n : Nat) (f : EvRing → EvRing) : (modRing s n f).tx = s.tx := rfl
@[simp] theorem modRing_fresh (n : Nat) (f : EvRing → EvRing) : (modRing s n f).fresh = s.fresh := rfl
@[simp] theorem modRing_pending (n : Nat) (f : EvRing → EvRing) : (modRing s n f).pending = s.pending := rfl

/-! ### modSrc -/

@[simp] theorem modSrc_regs (n : Nat) (f : Src → Src) : (modSrc s n f).regs = s.regs := rfl
@[simp] theorem modSrc_frame (n : Nat) (f : Src → Src) : (modSrc s n f).frame = s.frame := rfl
@[simp] theorem modSrc_lanes (n : Nat) (f : Src → Src) : (modSrc s n f).lanes = s.lanes := rfl
@[simp] theorem modSrc_brs (n : Nat) (f : Src → Src) : (modSrc s n f).brs = s.brs := rfl
@[simp] theorem modSrc_links (n : Nat) (f : Src → Src) : (modSrc s n f).links = s.links := rfl
@[simp] theorem modSrc_nodes (n : Nat) (f : Src → Src) : (modSrc s n f).nodes = s.nodes := rfl
@[simp] theorem modSrc_curd (n : Nat) (f : Src → Src) : (modSrc s n f).curd = s.curd := rfl
@[simp] theorem modSrc_harp (n : Nat) (f : Src → Src) : (modSrc s n f).harp = s.harp := rfl
@[simp] theorem modSrc_press (n : Nat) (f : Src → Src) : (modSrc s n f).press = s.press := rfl
@[simp] theorem modSrc_ctls (n : Nat) (f : Src → Src) : (modSrc s n f).ctls = s.ctls := rfl
@[simp] theorem modSrc_brCtls (n : Nat) (f : Src → Src) : (modSrc s n f).brCtls = s.brCtls := rfl
@[simp] theorem modSrc_twin (n : Nat) (f : Src → Src) : (modSrc s n f).twin = s.twin := rfl
@[simp] theorem modSrc_mode (n : Nat) (f : Src → Src) : (modSrc s n f).mode = s.mode := rfl
@[simp] theorem modSrc_aff (n : Nat) (f : Src → Src) : (modSrc s n f).aff = s.aff := rfl
@[simp] theorem modSrc_cellar (n : Nat) (f : Src → Src) : (modSrc s n f).cellar = s.cellar := rfl
@[simp] theorem modSrc_cave (n : Nat) (f : Src → Src) : (modSrc s n f).cave = s.cave := rfl
@[simp] theorem modSrc_clk (n : Nat) (f : Src → Src) : (modSrc s n f).clk = s.clk := rfl
@[simp] theorem modSrc_stu (n : Nat) (f : Src → Src) : (modSrc s n f).stu = s.stu := rfl
@[simp] theorem modSrc_power (n : Nat) (f : Src → Src) : (modSrc s n f).power = s.power := rfl
@[simp] theorem modSrc_boot (n : Nat) (f : Src → Src) : (modSrc s n f).boot = s.boot := rfl
@[simp] theorem modSrc_cmd (n : Nat) (f : Src → Src) : (modSrc s n f).cmd = s.cmd := rfl
@[simp] theorem modSrc_tx (n : Nat) (f : Src → Src) : (modSrc s n f).tx = s.tx := rfl
@[simp] theorem modSrc_fresh (n : Nat) (f : Src → Src) : (modSrc s n f).fresh = s.fresh := rfl
@[simp] theorem modSrc_pending (n : Nat) (f : Src → Src) : (modSrc s n f).pending = s.pending := rfl

/-! ### putWord -/

@[simp] theorem putWord_frame (r : RegName) (i w : Nat) : (putWord s r i w).frame = s.frame := rfl
@[simp] theorem putWord_lanes (r : RegName) (i w : Nat) : (putWord s r i w).lanes = s.lanes := rfl
@[simp] theorem putWord_brs (r : RegName) (i w : Nat) : (putWord s r i w).brs = s.brs := rfl
@[simp] theorem putWord_links (r : RegName) (i w : Nat) : (putWord s r i w).links = s.links := rfl
@[simp] theorem putWord_nodes (r : RegName) (i w : Nat) : (putWord s r i w).nodes = s.nodes := rfl
@[simp] theorem putWord_curd (r : RegName) (i w : Nat) : (putWord s r i w).curd = s.curd := rfl
@[simp] theorem putWord_harp (r : RegName) (i w : Nat) : (putWord s r i w).harp = s.harp := rfl
@[simp] theorem putWord_press (r : RegName) (i w : Nat) : (putWord s r i w).press = s.press := rfl
@[simp] theorem putWord_ctls (r : RegName) (i w : Nat) : (putWord s r i w).ctls = s.ctls := rfl
@[simp] theorem putWord_brCtls (r : RegName) (i w : Nat) : (putWord s r i w).brCtls = s.brCtls := rfl
@[simp] theorem putWord_twin (r : RegName) (i w : Nat) : (putWord s r i w).twin = s.twin := rfl
@[simp] theorem putWord_mode (r : RegName) (i w : Nat) : (putWord s r i w).mode = s.mode := rfl
@[simp] theorem putWord_aff (r : RegName) (i w : Nat) : (putWord s r i w).aff = s.aff := rfl
@[simp] theorem putWord_cellar (r : RegName) (i w : Nat) : (putWord s r i w).cellar = s.cellar := rfl
@[simp] theorem putWord_cave (r : RegName) (i w : Nat) : (putWord s r i w).cave = s.cave := rfl
@[simp] theorem putWord_clk (r : RegName) (i w : Nat) : (putWord s r i w).clk = s.clk := rfl
@[simp] theorem putWord_stu (r : RegName) (i w : Nat) : (putWord s r i w).stu = s.stu := rfl
@[simp] theorem putWord_rind (r : RegName) (i w : Nat) : (putWord s r i w).rind = s.rind := rfl
@[simp] theorem putWord_power (r : RegName) (i w : Nat) : (putWord s r i w).power = s.power := rfl
@[simp] theorem putWord_boot (r : RegName) (i w : Nat) : (putWord s r i w).boot = s.boot := rfl
@[simp] theorem putWord_cmd (r : RegName) (i w : Nat) : (putWord s r i w).cmd = s.cmd := rfl
@[simp] theorem putWord_tx (r : RegName) (i w : Nat) : (putWord s r i w).tx = s.tx := rfl
@[simp] theorem putWord_fresh (r : RegName) (i w : Nat) : (putWord s r i w).fresh = s.fresh := rfl
@[simp] theorem putWord_pending (r : RegName) (i w : Nat) : (putWord s r i w).pending = s.pending := rfl

/-! ### send -/

@[simp] theorem send_regs (x : Tx) : (send s x).regs = s.regs := rfl
@[simp] theorem send_frame (x : Tx) : (send s x).frame = s.frame := rfl
@[simp] theorem send_lanes (x : Tx) : (send s x).lanes = s.lanes := rfl
@[simp] theorem send_brs (x : Tx) : (send s x).brs = s.brs := rfl
@[simp] theorem send_links (x : Tx) : (send s x).links = s.links := rfl
@[simp] theorem send_nodes (x : Tx) : (send s x).nodes = s.nodes := rfl
@[simp] theorem send_curd (x : Tx) : (send s x).curd = s.curd := rfl
@[simp] theorem send_harp (x : Tx) : (send s x).harp = s.harp := rfl
@[simp] theorem send_press (x : Tx) : (send s x).press = s.press := rfl
@[simp] theorem send_ctls (x : Tx) : (send s x).ctls = s.ctls := rfl
@[simp] theorem send_brCtls (x : Tx) : (send s x).brCtls = s.brCtls := rfl
@[simp] theorem send_twin (x : Tx) : (send s x).twin = s.twin := rfl
@[simp] theorem send_mode (x : Tx) : (send s x).mode = s.mode := rfl
@[simp] theorem send_aff (x : Tx) : (send s x).aff = s.aff := rfl
@[simp] theorem send_cellar (x : Tx) : (send s x).cellar = s.cellar := rfl
@[simp] theorem send_cave (x : Tx) : (send s x).cave = s.cave := rfl
@[simp] theorem send_clk (x : Tx) : (send s x).clk = s.clk := rfl
@[simp] theorem send_stu (x : Tx) : (send s x).stu = s.stu := rfl
@[simp] theorem send_rind (x : Tx) : (send s x).rind = s.rind := rfl
@[simp] theorem send_power (x : Tx) : (send s x).power = s.power := rfl
@[simp] theorem send_boot (x : Tx) : (send s x).boot = s.boot := rfl
@[simp] theorem send_cmd (x : Tx) : (send s x).cmd = s.cmd := rfl
@[simp] theorem send_fresh (x : Tx) : (send s x).fresh = s.fresh := rfl
@[simp] theorem send_pending (x : Tx) : (send s x).pending = s.pending := rfl

/-! ### Reads after writes -/

theorem getLane_modLane (n m : Nat) (f : Lane → Lane) : getLane (modLane s n f) m = if m = n then f (getLane s n) else getLane s m :=
  tget_tmod _ _ n m f
@[simp] theorem getLane_modLane_same (n : Nat) (f : Lane → Lane) : getLane (modLane s n f) n = f (getLane s n) := tget_tmod_same _ _ n f
theorem getBr_modBr (n m : Nat) (f : Branch → Branch) : getBr (modBr s n f) m = if m = n then f (getBr s n) else getBr s m :=
  tget_tmod _ _ n m f
@[simp] theorem getBr_modBr_same (n : Nat) (f : Branch → Branch) : getBr (modBr s n f) n = f (getBr s n) := tget_tmod_same _ _ n f
theorem getLink_modLink (n m : Nat) (f : CellLink → CellLink) : getLink (modLink s n f) m = if m = n then f (getLink s n) else getLink s m :=
  tget_tmod _ _ n m f
@[simp] theorem getLink_modLink_same (n : Nat) (f : CellLink → CellLink) : getLink (modLink s n f) n = f (getLink s n) := tget_tmod_same _ _ n f
theorem getNode_modNode (n m : Nat) (f : Node → Node) : getNode (modNode s n f) m = if m = n then f (getNode s n) else getNode s m :=
  tget_tmod _ _ n m f
@[simp] theorem getNode_modNode_same (n : Nat) (f : Node → Node) : getNode (modNode s n f) n = f (getNode s n) := tget_tmod_same _ _ n f
theorem getCtl_modCtl (n m : Nat) (f : CellCtl → CellCtl) : getCtl (modCtl s n f) m = if m = n then f (getCtl s n) else getCtl s m :=
  tget_tmod _ _ n m f
@[simp] theorem getCtl_modCtl_same (n : Nat) (f : CellCtl → CellCtl) : getCtl (modCtl s n f) n = f (getCtl s n) := tget_tmod_same _ _ n f
theorem getBc_modBc (n m : Nat) (f : BranchCtl → BranchCtl) : getBc (modBc s n f) m = if m = n then f (getBc s n) else getBc s m :=
  tget_tmod _ _ n m f
@[simp] theorem getBc_modBc_same (n : Nat) (f : BranchCtl → BranchCtl) : getBc (modBc s n f) n = f (getBc s n) := tget_tmod_same _ _ n f
theorem getCh_modCh (n m : Nat) (f : CellHarp → CellHarp) : getCh (modCh s n f) m = if m = n then f (getCh s n) else getCh s m :=
  tget_tmod _ _ n m f
@[simp] theorem getCh_modCh_same (n : Nat) (f : CellHarp → CellHarp) : getCh (modCh s n f) n = f (getCh s n) := tget_tmod_same _ _ n f
theorem getPair_modPair (n m : Nat) (f : LPair → LPair) : getPair (modPair s n f) m = if m = n then f (getPair s n) else getPair s m :=
  tget_tmod _ _ n m f
@[simp] theorem getPair_modPair_same (n : Nat) (f : LPair → LPair) : getPair (modPair s n f) n = f (getPair s n) := tget_tmod_same _ _ n f
theorem getQ_modQ (n m : Nat) (f : Queue → Queue) : getQ (modQ s n f) m = if m = n then f (getQ s n) else getQ s m :=
  tget_tmod _ _ n m f
@[simp] theorem getQ_modQ_same (n : Nat) (f : Queue → Queue) : getQ (modQ s n f) n = f (getQ s n) := tget_tmod_same _ _ n f
theorem getRing_modRing (n m : Nat) (f : EvRing → EvRing) : getRing (modRing s n f) m = if m = n then f (getRing s n) else getRing s m :=
  tget_tmod _ _ n m f
@[simp] theorem getRing_modRing_same (n : Nat) (f : EvRing → EvRing) : getRing (modRing s n f) n = f (getRing s n) := tget_tmod_same _ _ n f
theorem getSrc_modSrc (n m : Nat) (f : Src → Src) : getSrc (modSrc s n f) m = if m = n then f (getSrc s n) else getSrc s m :=
  tget_tmod _ _ n m f
@[simp] theorem getSrc_modSrc_same (n : Nat) (f : Src → Src) : getSrc (modSrc s n f) n = f (getSrc s n) := tget_tmod_same _ _ n f

/-! ### Registers -/

theorem rword_putWord_same (r : RegName) (i w : Nat) : rword (putWord s r i w) r i = w % 2 ^ 32 := by
  simp [rword, putWord]

/-- A read with another default: entries of other addresses are left alone. -/
theorem tget_tset_other {α : Type} [DecidableEq α] (d e : α) (t : Tbl α) {k j : Nat} (v : α) (h : j ≠ k) :
    tget e (tset d t k v) j = tget e t j := by
  unfold tset; split
  · exact tget_tdel_ne e t h
  · exact tget_tput_ne e t v h

theorem rword_putWord_ne (r q : RegName) (i j w : Nat) (h : q.addr j ≠ r.addr i) :
    rword (putWord s r i w) q j = rword s q j := by
  simp only [rword, putWord]
  rw [tget_tset_other _ _ _ _ h]

/-! ### Free values -/

@[simp] theorem draw_regs : (draw s).2.regs = s.regs := rfl
@[simp] theorem drawBelow_regs (n : Nat) : (drawBelow s n).2.regs = s.regs := rfl
@[simp] theorem draw_frame : (draw s).2.frame = s.frame := rfl
@[simp] theorem drawBelow_frame (n : Nat) : (drawBelow s n).2.frame = s.frame := rfl
@[simp] theorem draw_lanes : (draw s).2.lanes = s.lanes := rfl
@[simp] theorem drawBelow_lanes (n : Nat) : (drawBelow s n).2.lanes = s.lanes := rfl
@[simp] theorem draw_brs : (draw s).2.brs = s.brs := rfl
@[simp] theorem drawBelow_brs (n : Nat) : (drawBelow s n).2.brs = s.brs := rfl
@[simp] theorem draw_links : (draw s).2.links = s.links := rfl
@[simp] theorem drawBelow_links (n : Nat) : (drawBelow s n).2.links = s.links := rfl
@[simp] theorem draw_nodes : (draw s).2.nodes = s.nodes := rfl
@[simp] theorem drawBelow_nodes (n : Nat) : (drawBelow s n).2.nodes = s.nodes := rfl
@[simp] theorem draw_curd : (draw s).2.curd = s.curd := rfl
@[simp] theorem drawBelow_curd (n : Nat) : (drawBelow s n).2.curd = s.curd := rfl
@[simp] theorem draw_harp : (draw s).2.harp = s.harp := rfl
@[simp] theorem drawBelow_harp (n : Nat) : (drawBelow s n).2.harp = s.harp := rfl
@[simp] theorem draw_press : (draw s).2.press = s.press := rfl
@[simp] theorem drawBelow_press (n : Nat) : (drawBelow s n).2.press = s.press := rfl
@[simp] theorem draw_ctls : (draw s).2.ctls = s.ctls := rfl
@[simp] theorem drawBelow_ctls (n : Nat) : (drawBelow s n).2.ctls = s.ctls := rfl
@[simp] theorem draw_brCtls : (draw s).2.brCtls = s.brCtls := rfl
@[simp] theorem drawBelow_brCtls (n : Nat) : (drawBelow s n).2.brCtls = s.brCtls := rfl
@[simp] theorem draw_twin : (draw s).2.twin = s.twin := rfl
@[simp] theorem drawBelow_twin (n : Nat) : (drawBelow s n).2.twin = s.twin := rfl
@[simp] theorem draw_mode : (draw s).2.mode = s.mode := rfl
@[simp] theorem drawBelow_mode (n : Nat) : (drawBelow s n).2.mode = s.mode := rfl
@[simp] theorem draw_aff : (draw s).2.aff = s.aff := rfl
@[simp] theorem drawBelow_aff (n : Nat) : (drawBelow s n).2.aff = s.aff := rfl
@[simp] theorem draw_cellar : (draw s).2.cellar = s.cellar := rfl
@[simp] theorem drawBelow_cellar (n : Nat) : (drawBelow s n).2.cellar = s.cellar := rfl
@[simp] theorem draw_cave : (draw s).2.cave = s.cave := rfl
@[simp] theorem drawBelow_cave (n : Nat) : (drawBelow s n).2.cave = s.cave := rfl
@[simp] theorem draw_clk : (draw s).2.clk = s.clk := rfl
@[simp] theorem drawBelow_clk (n : Nat) : (drawBelow s n).2.clk = s.clk := rfl
@[simp] theorem draw_stu : (draw s).2.stu = s.stu := rfl
@[simp] theorem drawBelow_stu (n : Nat) : (drawBelow s n).2.stu = s.stu := rfl
@[simp] theorem draw_rind : (draw s).2.rind = s.rind := rfl
@[simp] theorem drawBelow_rind (n : Nat) : (drawBelow s n).2.rind = s.rind := rfl
@[simp] theorem draw_power : (draw s).2.power = s.power := rfl
@[simp] theorem drawBelow_power (n : Nat) : (drawBelow s n).2.power = s.power := rfl
@[simp] theorem draw_boot : (draw s).2.boot = s.boot := rfl
@[simp] theorem drawBelow_boot (n : Nat) : (drawBelow s n).2.boot = s.boot := rfl
@[simp] theorem draw_cmd : (draw s).2.cmd = s.cmd := rfl
@[simp] theorem drawBelow_cmd (n : Nat) : (drawBelow s n).2.cmd = s.cmd := rfl
@[simp] theorem draw_tx : (draw s).2.tx = s.tx := rfl
@[simp] theorem drawBelow_tx (n : Nat) : (drawBelow s n).2.tx = s.tx := rfl
@[simp] theorem draw_pending : (draw s).2.pending = s.pending := rfl
@[simp] theorem drawBelow_pending (n : Nat) : (drawBelow s n).2.pending = s.pending := rfl

end Sys2Proof.Machine
end

