-- ==== Sys2Proof/Laws/Row.lean ====
section
/-!
SUPPORT. How rows end: what each wrapper of a meaning answers, what `settle` does to pins and interrupt outputs, and when a command's
meaning runs.
-/
namespace Sys2Proof.Machine

variable {s t : State} {f : State → State}

/-! ### Wrappers -/

theorem onCore_clocked (h : clocked s = true) : onCore s f = .next (settle (f s)) := by simp [onCore, h, done]

theorem onCore_stopped (h : clocked s = false) : onCore s f = .next s := by simp [onCore, h]

theorem barWo_free (h : s.cmd.locks = []) : barWo s f = f s := by simp [barWo, h]

theorem barWo_held (h : s.cmd.locks ≠ []) : barWo s f = { s with cmd := { s.cmd with sts := s.cmd.sts ||| 1 } } := by
  simp [barWo, h]

theorem require_true {ok : Bool} {p : Packet} {st : Nat} {g : State → State} (h : ok = true) : require ok p st s g = g s := by
  simp [require, h]

theorem require_false {ok : Bool} {p : Packet} {st : Nat} {g : State → State} (h : ok = false) :
    require ok p st s g = finishSt s p st := by
  simp [require, h]

/-! ### Commands -/

theorem turnOf_clocked {op : Nat} {p : Packet} (h : turnOf s op p = some t) : clocked s = true := by
  unfold turnOf at h
  simp only at h
  split at h
  · rename_i hc; simp only [Bool.and_eq_true] at hc; exact hc.1.1.1.1
  · cases h

/-- A packet whose turn has come is performed in the state its turn gives. -/
theorem onCmd_of_turn {r : OpRule} {p : Packet} {body : State → State} (h : turnOf s r.op p = some t) :
    onCmd s r p body = .next (settle (perform t r p body)) := by
  have hc := turnOf_clocked h
  unfold onCmd
  rw [onCore_clocked hc]
  congr 2
  unfold turnOf at h
  simp only at h
  split at h
  · rename_i hg
    simp only [Bool.and_eq_true, decide_eq_true_eq, beq_iff_eq] at hg
    obtain ⟨⟨⟨⟨_, hq⟩, ha⟩, hs⟩, hm⟩ := hg
    unfold runCmd
    simp only
    rw [if_neg (by simp [hs]; omega)]
    split at h
    · rename_i he
      simp only [List.isEmpty_iff] at he
      split at h
      · rename_i u hu
        split at h
        · rename_i hm'
          simp only [Option.some.injEq] at h
          subst h
          simp [he, hu, ha, hm']
        · cases h
      · cases h
    · split at h
      · rename_i hne hh
        simp only [Option.some.injEq] at h
        rw [if_pos hh, if_pos hm, h]
      · cases h
  · cases h

/-- What a command that starts does: its meaning runs from the state that its checks leave. -/
theorem onCmd_of_start {r : OpRule} {p : Packet} {body : State → State} (h : startOf s r p = some t) :
    onCmd s r p body = .next (settle (body t)) := by
  unfold startOf at h
  split at h
  · cases h
  · rename_i s0 ht
    rw [onCmd_of_turn ht]
    congr 2
    split at h
    · rename_i hg
      simp only [Bool.and_eq_true, beq_iff_eq] at hg
      obtain ⟨hr, hp⟩ := hg
      unfold perform
      have hnone : replayOf s0 p = none := by simpa [noReplay] using hr
      rw [hnone]
      simp only [hp, ne_eq, not_true_eq_false, if_false]
      split at h
      · rename_i u hl
        simp only [Option.some.injEq] at h
        subst h
        simp [hl]
      · cases h
    · cases h

theorem startOf_clocked {r : OpRule} {p : Packet} (h : startOf s r p = some t) : clocked s = true := by
  unfold startOf at h
  split at h
  · cases h
  · rename_i ht; exact turnOf_clocked ht

/-! ### Pins -/

@[simp] theorem updGpio_regs (s : State) : (updGpio s).regs = s.regs := rfl
@[simp] theorem updGpio_frame (s : State) : (updGpio s).frame = s.frame := rfl
@[simp] theorem updGpio_lanes (s : State) : (updGpio s).lanes = s.lanes := rfl
@[simp] theorem updGpio_brs (s : State) : (updGpio s).brs = s.brs := rfl
@[simp] theorem updGpio_links (s : State) : (updGpio s).links = s.links := rfl
@[simp] theorem updGpio_nodes (s : State) : (updGpio s).nodes = s.nodes := rfl
@[simp] theorem updGpio_curd (s : State) : (updGpio s).curd = s.curd := rfl
@[simp] theorem updGpio_harp (s : State) : (updGpio s).harp = s.harp := rfl
@[simp] theorem updGpio_press (s : State) : (updGpio s).press = s.press := rfl
@[simp] theorem updGpio_ctls (s : State) : (updGpio s).ctls = s.ctls := rfl
@[simp] theorem updGpio_brCtls (s : State) : (updGpio s).brCtls = s.brCtls := rfl
@[simp] theorem updGpio_twin (s : State) : (updGpio s).twin = s.twin := rfl
@[simp] theorem updGpio_mode (s : State) : (updGpio s).mode = s.mode := rfl
@[simp] theorem updGpio_aff (s : State) : (updGpio s).aff = s.aff := rfl
@[simp] theorem updGpio_cellar (s : State) : (updGpio s).cellar = s.cellar := rfl
@[simp] theorem updGpio_cave (s : State) : (updGpio s).cave = s.cave := rfl
@[simp] theorem updGpio_clk (s : State) : (updGpio s).clk = s.clk := rfl
@[simp] theorem updGpio_stu (s : State) : (updGpio s).stu = s.stu := rfl
@[simp] theorem updGpio_rind (s : State) : (updGpio s).rind = s.rind := rfl
@[simp] theorem updGpio_power (s : State) : (updGpio s).power = s.power := rfl
@[simp] theorem updGpio_cmd (s : State) : (updGpio s).cmd = s.cmd := rfl
@[simp] theorem updGpio_tx (s : State) : (updGpio s).tx = s.tx := rfl
@[simp] theorem updGpio_fresh (s : State) : (updGpio s).fresh = s.fresh := rfl
@[simp] theorem updGpio_pending (s : State) : (updGpio s).pending = s.pending := rfl
@[simp] theorem updGpio_rstLow (s : State) : (updGpio s).boot.rstLow = s.boot.rstLow := rfl
@[simp] theorem updGpio_porstLow (s : State) : (updGpio s).boot.porstLow = s.boot.porstLow := rfl
@[simp] theorem updGpio_aonUp (s : State) : (updGpio s).boot.aonUp = s.boot.aonUp := rfl

@[simp] theorem updPins_regs (s : State) : (updPins s).regs = s.regs := by unfold updPins; split <;> rfl
@[simp] theorem updPins_frame (s : State) : (updPins s).frame = s.frame := by unfold updPins; split <;> rfl
@[simp] theorem updPins_lanes (s : State) : (updPins s).lanes = s.lanes := by unfold updPins; split <;> rfl
@[simp] theorem updPins_brs (s : State) : (updPins s).brs = s.brs := by unfold updPins; split <;> rfl
@[simp] theorem updPins_links (s : State) : (updPins s).links = s.links := by unfold updPins; split <;> rfl
@[simp] theorem updPins_nodes (s : State) : (updPins s).nodes = s.nodes := by unfold updPins; split <;> rfl
@[simp] theorem updPins_curd (s : State) : (updPins s).curd = s.curd := by unfold updPins; split <;> rfl
@[simp] theorem updPins_harp (s : State) : (updPins s).harp = s.harp := by unfold updPins; split <;> rfl
@[simp] theorem updPins_press (s : State) : (updPins s).press = s.press := by unfold updPins; split <;> rfl
@[simp] theorem updPins_ctls (s : State) : (updPins s).ctls = s.ctls := by unfold updPins; split <;> rfl
@[simp] theorem updPins_brCtls (s : State) : (updPins s).brCtls = s.brCtls := by unfold updPins; split <;> rfl
@[simp] theorem updPins_twin (s : State) : (updPins s).twin = s.twin := by unfold updPins; split <;> rfl
@[simp] theorem updPins_mode (s : State) : (updPins s).mode = s.mode := by unfold updPins; split <;> rfl
@[simp] theorem updPins_aff (s : State) : (updPins s).aff = s.aff := by unfold updPins; split <;> rfl
@[simp] theorem updPins_cellar (s : State) : (updPins s).cellar = s.cellar := by unfold updPins; split <;> rfl
@[simp] theorem updPins_cave (s : State) : (updPins s).cave = s.cave := by unfold updPins; split <;> rfl
@[simp] theorem updPins_clk (s : State) : (updPins s).clk = s.clk := by unfold updPins; split <;> rfl
@[simp] theorem updPins_stu (s : State) : (updPins s).stu = s.stu := by unfold updPins; split <;> rfl
@[simp] theorem updPins_power (s : State) : (updPins s).power = s.power := by unfold updPins; split <;> rfl
@[simp] theorem updPins_cmd (s : State) : (updPins s).cmd = s.cmd := by unfold updPins; split <;> rfl
@[simp] theorem updPins_tx (s : State) : (updPins s).tx = s.tx := by unfold updPins; split <;> rfl
@[simp] theorem updPins_fresh (s : State) : (updPins s).fresh = s.fresh := by unfold updPins; split <;> rfl
@[simp] theorem updPins_pending (s : State) : (updPins s).pending = s.pending := by unfold updPins; split <;> rfl
@[simp] theorem updPins_rstLow (s : State) : (updPins s).boot.rstLow = s.boot.rstLow := by unfold updPins; split <;> rfl
@[simp] theorem updPins_porstLow (s : State) : (updPins s).boot.porstLow = s.boot.porstLow := by unfold updPins; split <;> rfl
@[simp] theorem updPins_aonUp (s : State) : (updPins s).boot.aonUp = s.boot.aonUp := by unfold updPins; split <;> rfl
@[simp] theorem updPins_src (s : State) : (updPins s).rind.src = s.rind.src := by unfold updPins; split <;> rfl
@[simp] theorem updPins_lockout (s : State) : (updPins s).rind.lockout = s.rind.lockout := by unfold updPins; split <;> rfl
@[simp] theorem updPins_todo (s : State) : (updPins s).rind.todo = s.rind.todo := by unfold updPins; split <;> rfl
@[simp] theorem updPins_tripHeld (s : State) : tripHeld (updPins s) = tripHeld s := by
  unfold updPins; split <;> rfl

/-! ### Interrupt outputs: a signal changes only the command processor's pending bits and what was sent -/

@[simp] theorem signal_regs (s : State) (v : Nat) : (signal s v).regs = s.regs := by unfold signal; split <;> rfl
@[simp] theorem signal_frame (s : State) (v : Nat) : (signal s v).frame = s.frame := by unfold signal; split <;> rfl
@[simp] theorem signal_lanes (s : State) (v : Nat) : (signal s v).lanes = s.lanes := by unfold signal; split <;> rfl
@[simp] theorem signal_brs (s : State) (v : Nat) : (signal s v).brs = s.brs := by unfold signal; split <;> rfl
@[simp] theorem signal_links (s : State) (v : Nat) : (signal s v).links = s.links := by unfold signal; split <;> rfl
@[simp] theorem signal_nodes (s : State) (v : Nat) : (signal s v).nodes = s.nodes := by unfold signal; split <;> rfl
@[simp] theorem signal_curd (s : State) (v : Nat) : (signal s v).curd = s.curd := by unfold signal; split <;> rfl
@[simp] theorem signal_harp (s : State) (v : Nat) : (signal s v).harp = s.harp := by unfold signal; split <;> rfl
@[simp] theorem signal_press (s : State) (v : Nat) : (signal s v).press = s.press := by unfold signal; split <;> rfl
@[simp] theorem signal_ctls (s : State) (v : Nat) : (signal s v).ctls = s.ctls := by unfold signal; split <;> rfl
@[simp] theorem signal_brCtls (s : State) (v : Nat) : (signal s v).brCtls = s.brCtls := by unfold signal; split <;> rfl
@[simp] theorem signal_twin (s : State) (v : Nat) : (signal s v).twin = s.twin := by unfold signal; split <;> rfl
@[simp] theorem signal_mode (s : State) (v : Nat) : (signal s v).mode = s.mode := by unfold signal; split <;> rfl
@[simp] theorem signal_aff (s : State) (v : Nat) : (signal s v).aff = s.aff := by unfold signal; split <;> rfl
@[simp] theorem signal_cellar (s : State) (v : Nat) : (signal s v).cellar = s.cellar := by unfold signal; split <;> rfl
@[simp] theorem signal_cave (s : State) (v : Nat) : (signal s v).cave = s.cave := by unfold signal; split <;> rfl
@[simp] theorem signal_clk (s : State) (v : Nat) : (signal s v).clk = s.clk := by unfold signal; split <;> rfl
@[simp] theorem signal_stu (s : State) (v : Nat) : (signal s v).stu = s.stu := by unfold signal; split <;> rfl
@[simp] theorem signal_rind (s : State) (v : Nat) : (signal s v).rind = s.rind := by unfold signal; split <;> rfl
@[simp] theorem signal_power (s : State) (v : Nat) : (signal s v).power = s.power := by unfold signal; split <;> rfl
@[simp] theorem signal_boot (s : State) (v : Nat) : (signal s v).boot = s.boot := by unfold signal; split <;> rfl
@[simp] theorem signal_fresh (s : State) (v : Nat) : (signal s v).fresh = s.fresh := by unfold signal; split <;> rfl
@[simp] theorem signal_pending (s : State) (v : Nat) : (signal s v).pending = s.pending := by unfold signal; split <;> rfl

/-- A fold that keeps a part of the state at each step keeps it. -/
theorem foldl_keeps {α β : Type} (g : State → α) (f : State → β → State) (h : ∀ t x, g (f t x) = g t) (l : List β) (s : State) :
    g (l.foldl f s) = g s := by
  induction l generalizing s with
  | nil => rfl
  | cons a l ih => simp [List.foldl_cons, ih, h]

@[simp] theorem signalAll_regs (s : State) : (signalAll s).regs = s.regs := by
  unfold signalAll
  exact foldl_keeps (·.regs) _ (by intro t x; simp only; split <;> simp) _ s
@[simp] theorem signalAll_frame (s : State) : (signalAll s).frame = s.frame := by
  unfold signalAll
  exact foldl_keeps (·.frame) _ (by intro t x; simp only; split <;> simp) _ s
@[simp] theorem signalAll_lanes (s : State) : (signalAll s).lanes = s.lanes := by
  unfold signalAll
  exact foldl_keeps (·.lanes) _ (by intro t x; simp only; split <;> simp) _ s
@[simp] theorem signalAll_brs (s : State) : (signalAll s).brs = s.brs := by
  unfold signalAll
  exact foldl_keeps (·.brs) _ (by intro t x; simp only; split <;> simp) _ s
@[simp] theorem signalAll_links (s : State) : (signalAll s).links = s.links := by
  unfold signalAll
  exact foldl_keeps (·.links) _ (by intro t x; simp only; split <;> simp) _ s
@[simp] theorem signalAll_nodes (s : State) : (signalAll s).nodes = s.nodes := by
  unfold signalAll
  exact foldl_keeps (·.nodes) _ (by intro t x; simp only; split <;> simp) _ s
@[simp] theorem signalAll_curd (s : State) : (signalAll s).curd = s.curd := by
  unfold signalAll
  exact foldl_keeps (·.curd) _ (by intro t x; simp only; split <;> simp) _ s
@[simp] theorem signalAll_harp (s : State) : (signalAll s).harp = s.harp := by
  unfold signalAll
  exact foldl_keeps (·.harp) _ (by intro t x; simp only; split <;> simp) _ s
@[simp] theorem signalAll_press (s : State) : (signalAll s).press = s.press := by
  unfold signalAll
  exact foldl_keeps (·.press) _ (by intro t x; simp only; split <;> simp) _ s
@[simp] theorem signalAll_ctls (s : State) : (signalAll s).ctls = s.ctls := by
  unfold signalAll
  exact foldl_keeps (·.ctls) _ (by intro t x; simp only; split <;> simp) _ s
@[simp] theorem signalAll_brCtls (s : State) : (signalAll s).brCtls = s.brCtls := by
  unfold signalAll
  exact foldl_keeps (·.brCtls) _ (by intro t x; simp only; split <;> simp) _ s
@[simp] theorem signalAll_twin (s : State) : (signalAll s).twin = s.twin := by
  unfold signalAll
  exact foldl_keeps (·.twin) _ (by intro t x; simp only; split <;> simp) _ s
@[simp] theorem signalAll_mode (s : State) : (signalAll s).mode = s.mode := by
  unfold signalAll
  exact foldl_keeps (·.mode) _ (by intro t x; simp only; split <;> simp) _ s
@[simp] theorem signalAll_aff (s : State) : (signalAll s).aff = s.aff := by
  unfold signalAll
  exact foldl_keeps (·.aff) _ (by intro t x; simp only; split <;> simp) _ s
@[simp] theorem signalAll_cellar (s : State) : (signalAll s).cellar = s.cellar := by
  unfold signalAll
  exact foldl_keeps (·.cellar) _ (by intro t x; simp only; split <;> simp) _ s
@[simp] theorem signalAll_cave (s : State) : (signalAll s).cave = s.cave := by
  unfold signalAll
  exact foldl_keeps (·.cave) _ (by intro t x; simp only; split <;> simp) _ s
@[simp] theorem signalAll_clk (s : State) : (signalAll s).clk = s.clk := by
  unfold signalAll
  exact foldl_keeps (·.clk) _ (by intro t x; simp only; split <;> simp) _ s
@[simp] theorem signalAll_stu (s : State) : (signalAll s).stu = s.stu := by
  unfold signalAll
  exact foldl_keeps (·.stu) _ (by intro t x; simp only; split <;> simp) _ s
@[simp] theorem signalAll_rind (s : State) : (signalAll s).rind = s.rind := by
  unfold signalAll
  exact foldl_keeps (·.rind) _ (by intro t x; simp only; split <;> simp) _ s
@[simp] theorem signalAll_power (s : State) : (signalAll s).power = s.power := by
  unfold signalAll
  exact foldl_keeps (·.power) _ (by intro t x; simp only; split <;> simp) _ s
@[simp] theorem signalAll_boot (s : State) : (signalAll s).boot = s.boot := by
  unfold signalAll
  exact foldl_keeps (·.boot) _ (by intro t x; simp only; split <;> simp) _ s
@[simp] theorem signalAll_fresh (s : State) : (signalAll s).fresh = s.fresh := by
  unfold signalAll
  exact foldl_keeps (·.fresh) _ (by intro t x; simp only; split <;> simp) _ s
@[simp] theorem signalAll_pending (s : State) : (signalAll s).pending = s.pending := by
  unfold signalAll
  exact foldl_keeps (·.pending) _ (by intro t x; simp only; split <;> simp) _ s

/-! ### settle -/

theorem takeTodo_nil (n : Nat) (h : s.rind.todo = []) : takeTodo n s = s := by cases n <;> simp [takeTodo, h]

theorem rejectUnknown_idle (n : Nat) (h : nextQueue s = none) : rejectUnknown n s = s := by cases n <;> simp [rejectUnknown, h]

theorem pollWaits_nil (h : s.cmd.waits = []) : pollWaits s = s := by
  unfold pollWaits
  generalize (List.range 32).reverse = l
  induction l with
  | nil => rfl
  | cons a l ih => simp only [List.foldl_cons, h, List.find?_nil, ih]

end Sys2Proof.Machine
end

