-- ==== Sys2Proof/Laws/Wire.lean ====
section
/-!
SUPPORT. The two ends of a lane: what a run of slabs that completes one message does, what a slab time and the end of a frame's sends leave
alone, and when a receiver gains lock.
-/
namespace Sys2Proof.Machine

variable {s t : State}

/-! ### Runs -/

/-- A run that completes one message of the row's type: the row does with it what it does. -/
theorem onRun_one {n : Nat} {want : List Byte → Nat} {r : SlabRun} {ty : SlabType} {f : State → List Byte → State} {l : List Byte}
    (h : receive s n want r = (t, [(ty, l)])) : onRun s n want r ty f = f t l := by
  simp [onRun, h]

/-- The same on a peer lane that carries traffic. -/
theorem onPeer_one {lane1 : Bool} {r : SlabRun} {ty : SlabType} {f : State → List Byte → State} {l : List Byte}
    (hp : peerLive s lane1 = true) (h : receive s (26 + b2n lane1) (peerBlocks r.slabs.length) r = (t, [(ty, l)])) :
    onPeer s lane1 r ty f = f t l := by
  simp [onPeer, hp, onRun_one h]

/-- A run that completes no message only reaches the receiver. -/
theorem onRun_none {n : Nat} {want : List Byte → Nat} {r : SlabRun} {ty : SlabType} {f : State → List Byte → State}
    (h : receive s n want r = (t, [])) : onRun s n want r ty f = t := by
  simp [onRun, h]

/-- A lane that is not present receives nothing. -/
theorem receive_absent {n : Nat} {want : List Byte → Nat} {r : SlabRun} (h : lanePresent s n = false) :
    receive s n want r = (s, []) := by
  simp [receive, h]

/-! ### Lock (R67) -/

theorem rxHead_gains {n : Nat} (h : (getLane s n).lock = false) (hg : lockNeed (laneCoding s n) ≤ (getLane s n).rx.good + 1) :
    rxHead s n true = lockGained s n := by
  simp [rxHead, h, hg]

theorem rxHead_counts {n : Nat} (h : (getLane s n).lock = false) (hg : (getLane s n).rx.good + 1 < lockNeed (laneCoding s n)) :
    rxHead s n true = modRx s n fun r => { r with good := (getLane s n).rx.good + 1 } := by
  simp [rxHead, h, Nat.not_le.mpr hg]

theorem rxHead_restarts {n : Nat} (h : (getLane s n).lock = false) :
    rxHead s n false = modRx s n fun r => { r with good := 0 } := by
  cases hc : laneCoding s n <;> simp [rxHead, h, hc, lockNeed]

/-! ### The transmitter -/

/-- What touches lanes only. -/
theorem modRx_eq (n : Nat) (f : LaneRx → LaneRx) : modRx s n f = { s with lanes := (modRx s n f).lanes } := rfl
theorem modLt_eq (n : Nat) (f : LaneTx → LaneTx) : modLt s n f = { s with lanes := (modLt s n f).lanes } := rfl

theorem emit_eq (n : Nat) (c : SlabType × List Byte) : emit s n c = { s with lanes := (emit s n c).lanes } := rfl

theorem startMessage_eq (n : Nat) (m : SlabType × List Byte) :
    startMessage s n m = { s with lanes := (startMessage s n m).lanes, tx := (startMessage s n m).tx } := by
  unfold startMessage
  simp only
  split <;> rfl

theorem goOn_eq (n : Nat) : goOn s n = { s with lanes := (goOn s n).lanes } := by
  unfold goOn
  simp only
  split
  · rfl
  · split <;> rfl
  · rfl

theorem modLt_of_eq {u : State} (hu : u = { s with lanes := u.lanes, tx := u.tx }) (n : Nat) (f : LaneTx → LaneTx) :
    modLt u n f = { s with lanes := (modLt u n f).lanes, tx := (modLt u n f).tx } := by
  generalize u.lanes = a at hu
  generalize u.tx = b at hu
  subst hu
  rfl

theorem goOn_eq_tx (n : Nat) : goOn s n = { s with lanes := (goOn s n).lanes, tx := (goOn s n).tx } := by
  have h := goOn_eq (s := s) n
  generalize (goOn s n).lanes = a at h
  rw [h]

/-- A slab time of a lane changes that lane's transmitter and what waits to be sent, and nothing else. -/
theorem slabTime_eq (n : Nat) : slabTime s n = { s with lanes := (slabTime s n).lanes, tx := (slabTime s n).tx } := by
  unfold slabTime
  simp only
  split
  · rfl
  · apply modLt_of_eq
    split
    · exact startMessage_eq n _
    · exact goOn_eq_tx n

/-- The end of a frame's sends empties what waits and what has left, and changes nothing else. -/
theorem clearTx_eq : clearTx s = { s with tx := [], lanes := (clearTx s).lanes } := by
  unfold clearTx
  generalize slabLanes = l
  have h : ∀ (u : State), u = { s with tx := [], lanes := u.lanes } →
      l.foldl (fun t n => modLt t n fun x => { x with wire := [], wait := 0 }) u =
      { s with tx := [], lanes := (l.foldl (fun t n => modLt t n fun x => { x with wire := [], wait := 0 }) u).lanes } := by
    induction l with
    | nil => intro u hu; exact hu
    | cons n l ih =>
      intro u hu
      rw [List.foldl_cons]
      exact ih _ (by rw [hu]; rfl)
  exact h _ rfl

@[simp] theorem clearTx_frame : (clearTx s).frame = s.frame := by rw [clearTx_eq]
@[simp] theorem clearTx_clk : (clearTx s).clk = s.clk := by rw [clearTx_eq]
@[simp] theorem clearTx_boot : (clearTx s).boot = s.boot := by rw [clearTx_eq]
@[simp] theorem clearTx_power : (clearTx s).power = s.power := by rw [clearTx_eq]
@[simp] theorem clearTx_tx : (clearTx s).tx = [] := by rw [clearTx_eq]

end Sys2Proof.Machine
end

