-- ==== Sys2Proof/Machine/Pins.lean ====
section
/-!
DEFINITION. The ball map (R438 to R442) and the levels that the digital outputs drive (R444, Table 19-8a).
-/
namespace Sys2Proof.Machine

/-- A signal of the package. Lanes are numbered as in Table 03-1; `neg` is the _N ball of a pair. -/
inductive Signal where
  | laneTx (n : Nat) (neg : Bool)
  | laneRx (n : Nat) (neg : Bool)
  | pcieTx (n : Nat) (neg : Bool)
  | pcieRx (n : Nat) (neg : Bool)
  | refclk (i : Nat) (neg : Bool)
  | lrefclk (i : Nat) (neg : Bool)
  | lpwm (n : Nat)
  | tripIn (n : Nat)
  | gpio (n : Nat)
  | strap (n : Nat)
  | rstN | porstN | tripN | safeN | alertN | intN | wakeN | armN | dbgPermit
  | pmbScl | pmbSda
  | spiSck | spiCsN | spiMosi | spiMiso
  | sdDat (n : Nat)
  | sdClk (n : Nat)
  | timeOut (n : Nat)
  | timeIn (n : Nat)
  | clkOut (n : Nat) (neg : Bool)
  | syncIn | pllLd
  | xspiClk | xspiCsN | xspiDqs
  | xspiDq (n : Nat)
  | xspiResetN
  | tck | tms | tdi | tdo | trstN
  | uartTx | uartRx
  | waxXin | waxXout
  | vsnsCore | gsnsCore
deriving DecidableEq, Repr

/-- What a ball carries. -/
inductive Ball where
  | gnd | core | aon | sd09 | sd12 | io33 | io18 | d18 | d105 | d05 | rsvd
  | sig (x : Signal)
deriving DecidableEq, Repr

/-! ### The ball map -/

/-- Row letters of row index i (Table 19-1). -/
def rowLetters (i : Nat) : String :=
  ["A", "B", "C", "D", "E", "F", "G", "H", "J", "K", "L", "M", "N", "P", "T", "U", "V", "W", "Y", "AA", "AB", "AC", "AD", "AE", "AF", "AG",
    "AH", "AJ", "AK", "AL", "AM", "AN", "AP", "AT", "AU", "AV"].getD i ""

/-- The pair at position k of a TX or RX row (Table 19-4). -/
def pairAt (top tx : Bool) (k : Nat) (neg : Bool) : Ball :=
  if k = 17 then (if !top && tx then .sig (.refclk 1 neg) else .gnd)
  else if k = 16 then .sig (match top, tx with
    | true, true => .lrefclk 0 neg
    | true, false => .lrefclk 2 neg
    | false, true => .lrefclk 1 neg
    | false, false => .refclk 0 neg)
  else if k < 12 then let n := if top then k else 12 + k; .sig (if tx then .laneTx n neg else .laneRx n neg)
  else if top then let n := 12 + k; .sig (if tx then .laneTx n neg else .laneRx n neg)
  else .sig (if tx then .pcieTx (k - 12) neg else .pcieRx (k - 12) neg)

/-- A ball of a SerDes band: row j counts from the package's edge (Table 19-3), columns from 1. -/
def bandBall (top : Bool) (j c : Nat) : Ball :=
  let k := (c - 1) / 2
  let neg := c % 2 == 0
  match j with
  | 1 => pairAt top true k neg
  | 3 => pairAt top false k neg
  | 5 => if neg then .sd12 else .sd09
  | _ => .gnd

/-- Site s of the 3.3 V field (Table 19-5). -/
def site33 (s : Nat) : Ball :=
  if s < 24 then .sig (.lpwm s)
  else if s < 36 then .sig (.tripIn (s - 24))
  else if s < 52 then .sig (.gpio (s - 36))
  else if s < 64 then .sig (.strap (s - 52))
  else (([.rstN, .porstN, .tripN, .safeN, .alertN, .intN, .wakeN, .armN, .dbgPermit, .pmbScl, .pmbSda, .spiSck, .spiCsN, .spiMosi,
    .spiMiso] : List Signal)[s - 64]?).elim .rsvd .sig

/-- Site s of the 1.8 V field (Table 19-6). -/
def site18 (s : Nat) : Ball :=
  if s < 32 then .sig (.sdDat s)
  else if s < 36 then .sig (.sdClk (s - 32))
  else if s < 40 then .sig (.timeOut (s - 36))
  else if s < 42 then .sig (.timeIn (s - 40))
  else if s < 50 then .sig (.clkOut ((s - 42) / 2) (s % 2 == 1))
  else (([.syncIn, .pllLd, .xspiClk, .xspiCsN, .xspiDqs, .xspiDq 0, .xspiDq 1, .xspiDq 2, .xspiDq 3, .xspiDq 4, .xspiDq 5, .xspiDq 6,
    .xspiDq 7, .xspiResetN, .tck, .tms, .tdi, .tdo, .trstN, .uartTx, .uartRx, .waxXin, .waxXout, .vsnsCore, .gsnsCore] :
      List Signal)[s - 50]?).elim .rsvd .sig

/-- A core field ball (R442). -/
def coreBall (i c : Nat) : Ball :=
  if (i + c) % 2 = 0 then .gnd
  else if i ≤ 9 ∨ 26 ≤ i then (match c % 3 with | 0 => .d18 | 1 => .d105 | _ => .d05)
  else if (i = 16 ∨ i = 17) ∧ 6 ≤ c ∧ c ≤ 9 then .aon
  else .core

/-- The ball in row index i, 0 to 35, and column c, 1 to 36 (Table 19-2). -/
def ballAt (i c : Nat) : Ball :=
  if i < 6 then bandBall true i c
  else if 30 ≤ i then bandBall false (35 - i) c
  else if c ≤ 4 then site33 (4 * (i - 6) + (c - 1))
  else if c = 5 then (if i % 2 = 0 then .io33 else .gnd)
  else if c ≤ 31 then coreBall i c
  else if c = 32 then (if i % 2 = 0 then .io18 else .gnd)
  else site18 (4 * (i - 6) + (c - 33))

/-! ### Levels -/

/-- The pins are in their reset states. -/
def inReset (s : State) : Bool := s.boot.rstLow || s.boot.porstLow || !s.boot.aonUp

/-- `TIME_OUT_n` (R386, R398): active during a pulse while enabled, low in reset and in CURE. -/
def timeOutLevel (s : State) (n : Nat) : Bool :=
  !inReset s && s.power.mode != .cure &&
    (((s.stu.pulses.getD n ⟨0, 0, 0, none, none⟩).till.isSome && flag s .stuTpCfg_enable n) != flag s .stuTpCfg_pol n)

/-- The modulator clock m runs (R135, R398). -/
def sdClkRuns (s : State) (m : Nat) : Bool := !inReset s && s.power.mode != .cure && flag s .curdSdClk_enable m

/-- Level of local output n; low at reset (R158, R408). -/
def lpwmLevel (s : State) (n : Nat) : Bool :=
  let j := n / 2
  let on := if n % 2 = 0 then (lpOut s j).1 else (lpOut s j).2
  !inReset s && (on != (if n % 2 = 0 then flag s .harpLpCfg_pol_a j else flag s .harpLpCfg_pol_b j))

/-- The level that the device drives on a signal; none where it is an input, released, or toggles as a clock or a data line. -/
def pinDrive (s : State) : Signal → Option Bool
  | .lpwm n => some (lpwmLevel s n)
  | .gpio n => if s.boot.gpioDrive.getLsbD n then some (s.boot.gpioOut.getLsbD n) else none
  | .tripN => some (!s.rind.tripN)
  | .safeN => some (!s.rind.safeN)
  | .alertN => if !inReset s && (s.power.wakeFail || s.power.cellarHold) then some false else none
  | .intN => if !inReset s && s.cmd.intN then some false else none
  | .timeOut n => some (timeOutLevel s n)
  | .sdClk m => if sdClkRuns s m then none else some false
  | .clkOut n neg => if inReset s || (s.boot.clkOut.getD n none).isNone || neg && fld s .strClkoutCfg_fmt n == 3 then some false else none
  | .pllLd => if s.boot.pllLd then some true else none
  | .xspiResetN => if inReset s then some false else if s.power.mode = .cure then none else some true
  | .uartTx => if inReset s then some true else none
  | _ => none

end Sys2Proof.Machine
end

