-- ==== Sys2Proof/WellFormed.lean ====
section
/-!
DEFINITION. What a command's operands must be for the command to be one that can happen: lists of the length the spec gives their
source, numbers within their field. What a receiver itself checks (CRCs, lengths of messages) is the meaning's, not of this file.
-/
namespace Sys2Proof

/-- A packet: at most 65,535 parameter bytes (R316). -/
def Packet.wf (p : Packet) : Bool := decide (p.params.length ≤ 16383)

/-- Slabs of at most 128 bits and 4 stuff bits (R66). -/
def SlabRun.wf (r : SlabRun) : Bool := r.slabs.all fun w => decide (w.length ≤ 132)

/-- The slabs of an arrival at a lane. -/
def Arrival.wf : Arrival → Bool
  | .lane _ r => r.wf
  | .node _ _ _ => true

/-- Number of instances of the Press (R181). -/
def instanceCount : Nat := 4096

/-- Operands of a command that its source can give. -/
def Instr.wf : Instr → Bool
  | .uplinkHead _ a | .uplinkTail _ a | .uMark _ _ a | .bulkReadRsp _ a | .bulkWriteAck _ a | .bulkError _ a | .eidle a =>
    a.wf
  | .lstat rx m => match rx, m with
    | .lane _, .slabs r => r.wf
    | .node _ _, .bytes _ => true
    | .lane _, .bytes _ | .node _ _, .slabs _ => false
  | .slabLockGained h => h.run.wf
  | .slabLockLost h => h.run.wf
  | .enumAtOppositeEnd _ _ r | .enumEndReply _ _ r | .keepAlive _ r | .pMark _ _ r | .heartbeat _ r
  | .mirrorChunk _ r | .relayedPart _ _ _ r | .planAndAgeingImage _ r | .roleOnChainLane _ r => r.wf
  | .nodeFrameBoundary _ x _ => x.values.length == 20
  | .edgeFire _ i _ => decide (i < 16)
  | .nodeDcOverLimit _ v => decide (v < 65536)
  | .feedbackLoss n | .observerResidual n => decide (n < instanceCount)
  | .eyeMapComplete _ _ l => l.length == 8192
  | .rindScrub x =>
    (match x.mismatch with | some n => decide (n < 19584) | none => true) && x.errors.all fun e => decide (e.addr < 2 ^ 20)
  | .cureDiodeCheck l => l.length == 4
  | .referenceFrequencyWindow l => l.length == 5
  | .vatDecision _ l _ => l.all fun (c, _) => decide (c < 16)
  | .cavePatrolRead c b _ _ => decide (b < 2 ^ 28) && decide (b / 4 % 2 = c.val)
  | .commandFetch _ e _ => match e with | some l => l.length == 64 || l.length == 65 | none => true
  | .udpDatagram _ mac vlan _ _ => decide (mac < 2 ^ 48) && decide (vlan.getD 0 < 2 ^ 12)
  | .lockExpiry _ d n => decide (n < [1, 3, 12, 576].getD d.val 0)
  | .registerWrite a _ _ => a % 4 == 0 && decide (a < 2 ^ 25)
  | .sysNop p | .sysIdent p | .sysStatus p | .sysReset p | .sysPersist p | .sysFlashRead p | .sysImageWrite p | .sysImageSelect p
  | .cfgCommit p | .cfgBankCommit p | .cfgBankCopy p | .cfgDiscard p | .cfgSave p | .cfgLoad p | .cfgDigest p | .cfgPending p
  | .paramRead p | .paramWrite p | .paramInfo p | .pointRead p | .pointReadRange p | .pointWrite p | .pointDescRead p
  | .pointDescWrite p | .pointCalRead p | .pointCalWrite p | .pointCalPersist p | .cellInfo p | .cellBulkRead p | .cellBulkWrite p
  | .cellDiscover p | .cellMapSave p | .cellTripClear p | .cellEyeRead p | .cellBypass p | .cellRestore p | .convStart p
  | .convStop p | .convRestart p | .tripClear p | .lpwmSet p | .lpwmEnable p | .twinSwap p | .twinCalibrate p | .modeSet p
  | .modeLvgSet p | .modeCommit p | .modeGet p | .planGet p | .planAccept p | .planReject p | .planEpoch p | .planDamageRead p
  | .planRainflowRead p | .planHorizonSet p | .traceSelect p | .traceTriggerSet p | .traceForce p | .traceRearm p
  | .traceStatus p | .traceRead p | .logRead p | .logStatus p | .timeGet p | .timeSet p | .timePulseSet p | .timeCaptureRead p
  | .timePtpStatus p | .pwrIdle p | .pwrCure p | .pwrRun p | .pwrStatus p | .faultRead p | .faultClear p | .faultForce p
  | .faultSummary p | .dbgHalt p | .dbgResume p | .laneEyeStart p | .laneEyeRead p | .cntClear p | .lockReserve p | .lockRelease p
  | .lockQuery p | .lockReleaseAll p => p.wf
  | _ => true

end Sys2Proof
end

