-- ==== Sys2Proof/Tests/Slice0.lean ====
section
/-!
SUPPORT. Tests: operands that a source cannot give are refused, values of the spec's worked examples, and for every statement of
Certificates/Slice0/Obligations.lean states and operands that meet its hypotheses.
-/
namespace Sys2Proof.Tests
set_option Elab.async false
open Sys2Proof Sys2Proof.Machine

/-! ### States and operands -/

/-- The device after boot: the supply up, the reset pins high, the command processor served, queue 0 active. -/
def up : State :=
  modQ (modBo State.reset fun x => { x with rstLow := false, porstLow := false, aonUp := true, ready := true, stage := 3 }) 0
    fun x => { x with mode := .active }

/-- A packet of queue 0 for the station with room for a reply. -/
def pk (l : List Word) : Packet := ⟨0, if l.length ≤ 10 then 0 else 2, 0, 7, BitVec.ofNat 16 (4 * l.length), 0xF003, 0x4000, 0, l, 0⟩

/-- The state that a start leaves. -/
def got (o : Option State) : State := o.getD State.reset

theorem got_eq {o : Option State} (h : o.isSome = true) : o = some (got o) := by
  cases o with
  | none => cases h
  | some t => rfl

theorem pair_eq {α β : Type} {x : α × β} {b : β} (h : x.2 = b) : x = (x.1, b) := by rw [← h]

theorem pair_eq1 {α β : Type} {x : α × β} {a : α} (h : x.1 = a) : x = (a, x.2) := by rw [← h]

/-- Lane n of s is UP and in lock, with nothing to discard. -/
def hears (s : State) (n : Nat) : State := modLane s n fun x => { x with mode := .up, lock := true }

/-- A message as it comes over a lane in Whey coding whose scrambler history is that of a lane at rest. -/
def onWire (l : List (SlabType × List Byte)) : SlabRun :=
  ⟨(l.foldl (fun (a : List Slab × Nat) c => let (w, h) := wireBits false a.2 c.1 c.2; (a.1 ++ [w], h)) ([], 2 ^ 58 - 1)).1, 0, []⟩

/-- A message that one slab holds, and one of several. -/
def oneSlab (t : SlabType) (l : List Byte) : SlabRun := onWire [(t, l)]
def slabs (t : SlabType) (l : List Byte) : SlabRun := onWire (slabsOf false t l)

def inMap : State := modLink (modBr up 0 fun x => { x with nb := 1, split := 1 }) 0 fun x => { x with inMap := true }

def standby1 : State := modTw up fun x => { x with role := .standby }
def primary1 : State := modTw up fun x => { x with role := .primary }
def peer1 (s : State) : State := modLane s 26 fun x => { x with mode := .up }
def permit1 : State := { up with harp := { up.harp with permit := true } }
def halted1 : State := { up with harp := { up.harp with permit := true, halted := true } }
def cure1 : State := modPw up fun x => { x with mode := .cure }
def spi1 : State := setFld (setFld (setFld up .cmdSpiCfg_enable 0 1) .cmdSpiCfg_queue 0 0) .cmdQCfg_transport 0 2
def locked1 : State := { up with cmd := { up.cmd with locks := [⟨1, ⟨0, 0⟩, 0, 0⟩] } }
def ptpOn : State := setFld (setFld up .stuPtpCfg_enable 0 1) .stuPtpCfg_port_en 0 1
def emptyList (d : Nat) : EdgeList := ⟨d, 0, false, false, 0, 0, 0, 0, []⟩
def running1 : State := modNode up 0 fun x => { x with
  mode := .run, locked := true, token := some (false, 0), serve := some (false, false), splitOn := true, path := some 0, ticks := 40000,
  curList := some (emptyList 0, 0) }
def ask (w : Bool) (n tries : Nat) : Bulk := ⟨w, 0, n, [], 0, tries, none, 0⟩
def asking (w : Bool) (n tries : Nat) : State := modLink up 0 fun x => { x with bulk := some (ask w n tries) }
def hd : List Byte := zeroB 80
def tl : List Byte := zeroB 44 ++ leB 4 (crc32 (zeroB 124)).toNat
def beat : List Byte := [1] ++ zeroB 19 ++ leB 4 (crc32 ([1] ++ zeroB 19)).toNat
def listing (stale : Nat) (new : Bool) : State :=
  modCh (modFr inMap fun x => { x with running := true, snapped := true }) 0 fun x => { x with newCmd := new, staleCount := stale }
def startable : State :=
  let s := modLink inMap 0 fun x => { x with timeLocked := true }
  (List.range 12).foldl (fun t b => modBr t b fun x => { x with disc := .done }) s
def msg (typ flags n : Nat) : List Byte := leB 1 typ ++ [2] ++ zeroB 4 ++ leB 1 flags ++ zeroB (n - 7)
def slave1 : State := modSt ptpOn fun x => { x with
  rxStamps := [some 5, none], ports := [.slave, .disabled], sync2 := [some (0, 5, 0, 0), none], req := [some (0, some 3, none), none]
  masters := [some (masterOf (zeroB 64)), none] }
def reply1 (typ flags : Nat) : List Byte := (msg typ flags 44) ++ portId ptpOn 0
def img : List Byte := leB 4 0xB5760001 ++ leB 4 7 ++ zeroB 52
def flashed : State := modFlash up fun x => { x with
  raw := (List.range 64).map fun i => (slotBase 0 + i, (img ++ leB 4 (crc32 img).toNat).getD i 0) }
def wakeB : List Byte :=
  let b := List.replicate 6 0xFF ++ zeroB 6 ++ [0x08, 0x42] ++ List.replicate 6 0xFF ++ zeroB 96 ++ leB 4 (rword up .pwrWakeKey 0)
  b ++ leB 4 (crc32 b).toNat
def arpB : List Byte := netB 2 1 ++ netB 2 0x0800 ++ netB 1 6 ++ netB 1 4 ++ netB 2 1 ++ zeroB 16 ++ netB 4 1
def echoB : List Byte :=
  let h := fun c => [0x45, 0] ++ netB 2 28 ++ zeroB 4 ++ [64, 1] ++ netB 2 c ++ zeroB 4 ++ netB 4 1
  let m := fun c => [8, 0] ++ netB 2 c ++ zeroB 4
  h (inetSum (h 0)) ++ m (inetSum (m 0))
def cellPk (l : List Word) : Packet := { pk l with scope := 0xD000 }
def flashing (op : Half) (l : List Word) : State := { up with cmd := { up.cmd with waits := [⟨0, op, pk l, .flash⟩] } }
def rec1 : TraceRec := ⟨0, false, false, false, false, 0, []⟩
def log1 : LogEntry := ⟨0, false, 0, 0, 0, []⟩
def edges2 : EdgeList := { emptyList 0 with edges := [⟨0, 0, 0, true⟩, ⟨0, 0, 1, false⟩, ⟨39999, 15, 11, true⟩] }
def srcOf (c : Nat) : Src := { Src.zero with latch := true, applied := c }
def faulty (c : Nat) : State := { up with rind := { up.rind with src := [(2, srcOf c)] } }
/-- A PTP message in a frame of profile 0, and in one of profile 1. -/
def frame0 (m : List Byte) : List Byte := ptpMac true ++ zeroB 6 ++ netB 2 0x88F7 ++ m
def udpHead (src dst port n : Nat) : List Byte :=
  let h := fun c => [0x45, 0] ++ netB 2 (28 + n) ++ zeroB 4 ++ [64, 17] ++ netB 2 c ++ netB 4 src ++ netB 4 dst
  h (inetSum (h 0)) ++ netB 2 port ++ netB 2 port ++ netB 2 (8 + n) ++ [0, 0]
def frame1 (m : List Byte) : List Byte := zeroB 12 ++ netB 2 0x0800 ++ udpHead 1 (ptpIp false) 320 m.length ++ m
def udp1 : State := setFld (setFld (setFld up .cmdEthIp_ip 0 1) .cmdUdpCfg_en_p0 0 1) .cmdQCfg_transport 0 1
/-- A TB288, which has branches 0, 1, 4, 5, 8, 9 alone. -/
def tb288up : State := setFld up .sysId_cell_capacity 0 288

/-! ### WellFormed refuses ill-formed operands -/

/-- A run with a slab longer than 128 bits and 4 stuff bits. -/
def longRun : SlabRun := ⟨[List.replicate 133 false], 0, []⟩

theorem test_wf_refuses :
    ([.uplinkHead 0 (.lane 0 longRun), .enumAtOppositeEnd 0 false longRun, .enumEndReply 0 false longRun, .slabLockGained ⟨0, longRun⟩,
      .slabLockLost ⟨0, false, longRun⟩, .keepAlive 0 longRun, .relayedPart false true 0 longRun, .lstat (.lane 0) (.bytes []),
      .pMark false 0 longRun, .roleOnChainLane 0 longRun, .planAndAgeingImage false longRun,
      .nodeFrameBoundary 0 ⟨[], 0, 0⟩ 0, .edgeFire 0 16 0, .nodeDcOverLimit 0 65536,
      .feedbackLoss 4096, .observerResidual 4096, .eyeMapComplete 0 0 [],
      .rindScrub ⟨some 19584, []⟩, .rindScrub ⟨none, [⟨0, true, 2 ^ 20⟩]⟩,
      .cureDiodeCheck [], .referenceFrequencyWindow [], .vatDecision 0 [(16, 0)] 0, .cavePatrolRead 0 (2 ^ 28) true true,
      .cavePatrolRead 0 4 true true,
      .commandFetch 0 (some []) none, .udpDatagram 0 (2 ^ 48) none [] [], .udpDatagram 0 0 (some 4096) [] [],
      .lockExpiry 0 0 1, .registerWrite 2 0 false, .registerWrite (2 ^ 25) 0 false,
      .sysNop (pk (List.replicate 16384 0))] : List Instr).all (fun i => !i.wf) = true := by decide +kernel

/-! ### Values of the spec's worked examples and tables -/

/-- Chapter 13: the scopes of branch 1.2, cell 1.2.17 and cell 1.2.30, and the lock of a branch over its cell. -/
theorem test_scopes : keyScope ⟨2, 6⟩ = 0xE009 ∧ keyScope ⟨3, 305⟩ = 0xD119 ∧ keyScope ⟨3, 318⟩ = 0xD1E9 ∧
    overlap ⟨2, 6⟩ ⟨3, 318⟩ = true := by decide +kernel

/-- Chapter 13: bytes 0 to 15 of the LOCK_RESERVE packet. -/
theorem test_packet_bytes :
    headerB 0x0C01 { pk [0] with queue := 5, tag := 0x0A30, scope := 0xE009, replyMax := 0 } ++ zeroB 4 =
      [0x01, 0x0C, 0x00, 0x05, 0x30, 0x0A, 0x04, 0x00, 0x09, 0xE0, 0, 0, 0, 0, 0, 0] := by decide +kernel

/-- Chapter 13: the completion of the LOCK_RESERVE. -/
theorem test_completion_bytes :
    completionB { pk [0] with queue := 5, tag := 0x0A30 } true stOk 41 100 0x1B710800 =
      [0x30, 0x0A, 0x05, 0x01, 0, 0, 0x29, 0, 0x64, 0, 0, 0, 0, 0x08, 0x71, 0x1B] := by decide +kernel

/-- Chapter 18: HARP_DT_CFG[20] at 0x60550, PID 0x18154. -/
theorem test_address : RegName.harpDtCfg.addr 20 = 0x60550 ∧ pidOf 0x18154 = .reg .harpDtCfg 20 := by decide +kernel

/-- Chapter 14: 6,000 points need slots of 12,032 bytes and reach the cap. -/
theorem test_trace_depth : slotSize 6000 = 12032 ∧ traceDepth 6000 = 1048576 := by decide +kernel

/-- R17: the reset of the identity register's neighbour: an address without a register reads 0. -/
theorem test_unassigned : (readBar up 0xFFFFFC).1 = 0 := by decide +kernel

/-- Table 03-2: an IDLE slab begins with type 0, type_n 15 and the sync byte 0x9A. -/
theorem test_slab_head : slabHead .idle = [false, false, false, false, true, true, true, true,
    false, true, false, true, true, false, false, true] := by decide +kernel

/-- R64: a message of 80 bytes takes ceil(80/14) = 6 slabs, one of 6 bytes takes two. -/
theorem test_part_slabs : (partSlabs false (zeroB 80)).map (·.1) = [.first, .mid, .mid, .mid, .mid, .last] ∧
    (partSlabs false (zeroB 6)).map (·.1) = [.first, .last] := by decide +kernel

/-- R66: after 24 equal bits the complement is stuffed. -/
theorem test_stuff : stuff 0 none (List.replicate 25 true) = List.replicate 24 true ++ [false, true] := by decide +kernel

/-- Table 19-8. -/
theorem test_ball_derivations :
    rowLetters 34 = "AU" ∧ ballAt 34 3 = .sig (.laneTx 13 false) ∧ ballAt 34 4 = .sig (.laneTx 13 true) ∧
    rowLetters 32 = "AP" ∧ ballAt 32 3 = .sig (.laneRx 13 false) ∧ ballAt 32 4 = .sig (.laneRx 13 true) ∧
    rowLetters 23 = "AE" ∧ ballAt 23 4 = .sig .armN ∧ rowLetters 10 = "L" ∧ ballAt 10 34 = .sig (.sdDat 17) ∧
    rowLetters 20 = "AB" ∧ ballAt 20 17 = .core ∧ rowLetters 9 = "K" ∧ ballAt 9 20 = .d05 ∧
    rowLetters 16 = "V" ∧ ballAt 16 7 = .aon := by decide +kernel

/-- Balls that carry b. -/
def ballCount (f : Ball → Bool) : Nat :=
  ((List.range 36).flatMap fun i => (List.range 36).map fun c => ballAt i (c + 1)).countP f

/-- Table 19-7. -/
theorem test_ball_counts :
    [Ball.gnd, .core, .aon, .sd09, .sd12, .io33, .io18, .d18, .d105, .d05, .rsvd].map (fun b => ballCount (· == b)) =
      [558, 204, 4, 36, 36, 12, 12, 36, 36, 32, 38] ∧
    ballCount (fun b => match b with | .sig _ => true | _ => false) = 138 + 79 + 75 := by decide +kernel

/-! ### One step each -/

/-- Bits of a step's outcome. -/
def sent (o : Host.Outcome State Fault Refusal) : List Tx := match o with | .next t => t.tx | _ => []

/-- R103: a node two hops out forwards ENUM with count 2. -/
theorem test_enum : sent (step { modNode up 0 (fun x => { x with portUp := 3 }) with pending := [.enum 0 false (linkB 1 0x80 [1])] }) =
    [.node 0 true (linkB 1 0x80 [2])] := by decide +kernel

/-- R319, R340: SYS_NOP completes with ST_OK. -/
theorem test_nop : (sent (step { up with pending := [.sysNop (pk [])] })).length = 1 := by decide +kernel

/-! ### The statements' hypotheses -/

theorem test_meets_StepTakesTheFrontCommand : ∃ s : State, s.pending = [] := ⟨up, rfl⟩

theorem test_meets_EveryCommandCompletes : ∃ (i : Instr) (s : State), barRow i = true ∧ s.power.mode = .cure :=
  ⟨.stuCommit, cure1, by decide +kernel⟩

theorem test_meets_CoreRowsStandWithoutClock :
    (∃ (i : Instr) (s : State), clocked s = false ∧ coreRow i = true) ∧
    (∃ (i : Instr) (s : State), clocked s = false ∧ barRow i = true) :=
  ⟨⟨.frameBoundary, cure1, by decide +kernel⟩, ⟨.stuCommit, cure1, by decide +kernel⟩⟩

theorem test_meets_QuietRowsEndInPinsAndInterruptsOnly : ∃ s : State, Quiet s ∧ clocked s = true :=
  ⟨up, by unfold Quiet; decide +kernel⟩

theorem test_meets_NodeRowsChangeTheirNodeOnly :
    ∃ (i : Instr) (c : Nat) (s t : State), nodeCell i = some c ∧ exec i s = .next t := ⟨.nodePowerUp 0, 0, up, _, rfl, rfl⟩

theorem test_meets_NodeRowsKeepLegsSafe :
    ∃ (i : Instr) (c : Nat) (s t : State), nodeCell i = some c ∧ (∀ d, LegsSafe (getNode s d)) ∧ exec i s = .next t :=
  ⟨.nodePowerUp 0, 0, up, _, rfl, fun _ => by show LegsSafe Node.zero; unfold LegsSafe; decide +kernel, rfl⟩

theorem test_meets_LocksOfQueuesStayApart : ∃ s : State, LocksApart s ∧ s.cmd.locks.length = 2 :=
  ⟨{ up with cmd := { up.cmd with locks := [⟨0, ⟨2, 0⟩, 0, 0⟩, ⟨1, ⟨2, 1⟩, 0, 0⟩] } }, by unfold LocksApart; decide +kernel⟩

theorem test_meets_EdgeListsReadBack : edges2.fits := by unfold EdgeList.fits; decide +kernel

theorem test_meets_EdgeListsSentHaveTheAcceptedForm :
    ∃ (l : EdgeList) (n : Nat), l.fits ∧ l.byp ≠ 3 ∧ l.edges.length ≤ 16 ∧ (∀ e ∈ l.edges, e.sw ≤ 11 ∧ e.offset < n) ∧
      l.edges.Pairwise (fun a b => a.offset ≤ b.offset ∧ (a.sw, a.offset) ≠ (b.sw, b.offset)) :=
  ⟨edges2, 40000, test_meets_EdgeListsReadBack, by decide +kernel⟩

theorem test_meets_DescriptorsAndScopesReadBack : LoopDesc.zero.fits ∧ (⟨0, 0, 65535, 255, 1023, 15, 7, 2 ^ 32 - 1⟩ : Desc).fits := by
  unfold LoopDesc.fits Desc.fits; decide +kernel

theorem test_meets_SlabsAndBlocksReadBack :
    SlabType.link ≠ .train ∧ (zeroB 14).length = 14 ∧ isPart .mid = true ∧ (zeroB 8).length = 8 ∧ (zeroB 6).length = 6 ∧
    slabOf (ofBits ((bitsOf 4 11).take 4)) = none := by decide +kernel

theorem test_meets_LaneCountersStopAndClear :
    (RegName.laneCntLol, 4) ∈ [(RegName.laneCntHdr, 0), (.laneCntStuff, 1), (.laneCntFill, 2), (.laneCntAbort, 3), (.laneCntLol, 4)] ∧
    rword (countSat up .laneCntLol .laneCntSat 27 4 (2 ^ 32)) .laneCntLol 27 = 2 ^ 32 - 1 ∧
    RegName.laneCntSat ∈ [RegName.laneCntHdr, .laneCntStuff, .laneCntFill, .laneCntAbort, .laneCntLol, .laneCntSat] := by decide +kernel

theorem test_meets_PinsFollowTheirCausesInEveryStep :
    ∃ s t : State, PinsFollow s ∧ s.pending ≠ [] ∧ step s = .next t :=
  ⟨updPins { up with pending := [.nodePowerUp 0] }, _, by unfold PinsFollow; decide +kernel, by decide +kernel, rfl⟩


/-- A port that sends its own content with these parts in its FIFO. -/
def busyPort (l : List (List (SlabType × List Byte))) : State :=
  modNode up 0 fun x => modPort x false fun q => { q with own := 1, fifo := l }

theorem test_meets_IdlePort :
    let q := getPort (getNode up 0) false
    q.own = 0 ∧ q.fwd = 0 ∧ q.fifo = [] ∧ q.wait = [] := by decide +kernel

theorem test_meets_FifoRoom : (getPort (getNode (busyPort []) 0) false).own ≠ 0 ∧
    slabSum false [] + slabCount false [(.link, zeroB 14)] ≤ fifoSize (getNode (busyPort []) 0) 0 :=
  ⟨by decide +kernel, Nat.le_trans (m := 16) (by decide +kernel) (Nat.le_add_right 16 _)⟩

theorem test_meets_FifoFull : let l := List.replicate (Config.nodeFifo 0 + 16) [(SlabType.link, zeroB 14)]
    (getPort (getNode (busyPort l) 0) false).own ≠ 0 ∧
    fifoSize (getNode (busyPort l) 0) 0 < slabSum false l + slabCount false [(.link, zeroB 14)] := by
  have h : slabCount false [(.link, zeroB 14)] = 1 := by decide +kernel
  refine ⟨by show (1 : Nat) ≠ 0; decide, ?_⟩
  show 16 + Config.nodeFifo 0 < _
  simp only [slabSum, List.map_replicate, List.sum_replicate, h, smul_eq_mul]
  omega

theorem test_meets_UdpDatagramClauses :
    udpHeadOk udp1 0 none (udpHead 7 1 0 16) (zeroB 16) = true ∧ udpHeadOk udp1 0 (some 0) (udpHead 7 1 0 16) (zeroB 16) = false ∧
    beAt (udpHead 7 1 (fld0 udp1 .cmdUdpCfg_port) 16) 22 2 = fld0 udp1 .cmdUdpCfg_port ∧ udpOn udp1 0 = true ∧
    udpAccepts udp1 0 7 = true ∧ udpAccepts up 0 7 = false ∧ rword udp1 .cmdUdpPeer 0 = 0 ∧
    (getQ udp1 0).ready.length < queueSize udp1 0 ∧ (getQ udp1 0).replay = [] := by decide +kernel

theorem test_meets_StarvingReply :
    (pk []).transport.val = 0 ∧ vatStarving { up with cave := { up.cave with vat := [(7, { VatReq.zero with starving := true })] } } 7 = true ∧
    hostDma (pk []).queue.toNat = 7 := by decide +kernel


theorem test_meets_EnumRecordsHopsAndGoesOn :
    (∃ (c : Cell) (portB : Bool) (bytes : List Byte) (s : State), linkOk bytes 1 = true ∧ bitAt (byteAt bytes 3) 0 = false ∧
      portIsUp (getNode s c) (!portB) = true) ∧
    (∃ (c : Cell) (portB : Bool) (bytes : List Byte) (s : State), linkOk bytes 1 = true ∧ bitAt (byteAt bytes 3) 0 = false ∧
      portIsUp (getNode s c) (!portB) = false) ∧
    (∃ (bytes : List Byte) (u : State) (d : Nat) (p : Bool), linkOk bytes 1 = true ∧ bitAt (byteAt bytes 3) 0 = false ∧
      (getPort (getNode u d) p).own = 0 ∧ (getPort (getNode u d) p).fifo = []) :=
  ⟨⟨0, false, linkB 1 0x80 [], modNode up 0 fun x => { x with portUp := 2 }, by decide +kernel⟩,
   ⟨0, true, linkB 1 0x80 [255], modNode up 0 fun x => { x with portUp := 0 }, by decide +kernel⟩,
   ⟨linkB 1 0x80 [], up, 0, false, by decide +kernel⟩⟩

theorem test_meets_BootWindowTakesAnImage :
    (∃ (s : State), clocked s = true ∧ s.boot.stage = 2 ∧ (strapF s 0 2 = 1 ∨ strapF s 0 2 = 2) ∧ s.boot.go = false) ∧
    (∃ (s : State), clocked s = true ∧ (s.boot.stage ≠ 2 ∨ strapF s 0 2 = 0 ∨ strapF s 0 2 = 3 ∨ s.boot.go = true)) ∧
    (∃ (a : Nat), 0x1000000 ≤ a ∧ a < 0x1800000) :=
  ⟨⟨modBo (up) fun x => { x with stage := 2, straps := 2 }, by decide +kernel⟩,
   ⟨modBo (up) fun x => { x with stage := 2, straps := 3 }, by decide +kernel⟩,
   ⟨0x17FFFFF, by decide +kernel⟩⟩

theorem test_meets_StandingIsTheHighestStandingClass :
    (∃ (s : State) (n : Nat) (x : Src), (n, x) ∈ s.rind.src ∧ (x.latch = true ∨ (x.sticky = true ∧ x.applied = 4))) ∧
    (∃ (s : State), standing s ≠ 0) ∧
    (∃ (s : State), (∀ e ∈ s.rind.src, e.2.applied ≤ 4)) ∧
    (∃ (s : State), 2 ≤ standing s ∧ s.mode.conv = .parked ∧ flag s .twinCfg_enable 0 = false ∧ s.power.mode = .run) :=
  ⟨⟨faulty 4, 2, srcOf 4, by decide +kernel⟩,
   ⟨faulty 4, by decide +kernel⟩,
   ⟨faulty 4, by decide +kernel⟩,
   ⟨faulty 2, by decide +kernel⟩⟩

theorem test_meets_AbsentPointsReadStale :
    ∃ (s : State) (pa : Nat), pa < 299008 ∧
      ((pa < 294912 ∧ (getLink s (pa / 512)).inMap = false) ∨ (branchOfPa pa < 12 ∧ brPresent s (branchOfPa pa) = false)) :=
  ⟨up, 294911, by decide +kernel⟩

theorem test_meets_UnassignedAddressesReadZero :
    (∃ (a : Nat), regAt a = none ∧ (a < 0x100000 ∨ 0x224000 ≤ a) ∧ (a < 0x300000 ∨ 0x39B400 ≤ a)) ∧
    (∃ (a : Nat), regAt a = none ∧ (a < 0x1000000 ∨ 0x1800000 ≤ a)) ∧
    (∃ (a : _), 0x100000 ≤ a ∧ a < 0x224000) ∧
    (∃ (a : _), 0x300000 ≤ a ∧ a < 0x39B400) :=
  ⟨⟨0x224000, by decide +kernel⟩,
   ⟨0xFFFFFF, by decide +kernel⟩,
   ⟨0x223FFF, by decide +kernel⟩,
   ⟨0x39B3FF, by decide +kernel⟩⟩

theorem test_meets_RefusedPacketsOnlyComplete :
    (∃ (s : State) (s0 : State) (r : OpRule) (p : Packet), turnOf s r.op p = some s0 ∧ noReplay s0 p = true ∧ preCheck s0 r p ≠ stOk) ∧
    (∃ (op : Nat) (st : Nat), (op ∉ [0x0501, 0x0502, 0x0503] ∨ st ∉ [stConvState, stLockout, stLocked, stLockExpired])) ∧
    (∃ (op : Nat) (st : Nat), op ∈ [0x0501, 0x0502, 0x0503] ∧ st ∈ [stConvState, stLockout, stLocked, stLockExpired]) ∧
    (∃ (s : State) (r : OpRule) (p : Packet), headerOk s (BitVec.ofNat 16 r.op) p = false) ∧
    (∃ (s : State) (r : OpRule) (p : Packet), headerOk s (BitVec.ofNat 16 r.op) p = true ∧ s.boot.ready = false ∧ r.op ∉ recoveryOps) ∧
    (∃ (s : State) (r : OpRule) (p : Packet), headerOk s (BitVec.ofNat 16 r.op) p = true ∧ s.boot.ready = true ∧
      s.boot.statusQueue = false ∧ r.lenOk p.params = false) ∧
    (∃ (s : State) (r : OpRule) (p : Packet), headerOk s (BitVec.ofNat 16 r.op) p = true ∧ s.boot.ready = true ∧
      s.boot.statusQueue = false ∧ r.lenOk p.params = true ∧ sizeOk s p = true ∧ cmdScope s p.scope.toNat = none) ∧
    (∃ (s : State) (r : OpRule) (p : Packet), headerOk s (BitVec.ofNat 16 r.op) p = true ∧ s.boot.ready = true ∧
      s.boot.statusQueue = false ∧ r.lenOk p.params = true ∧ sizeOk s p = true ∧ scopeOk s r p = true ∧ s.rind.lockout = true ∧
      r.lockout p.params = true) ∧
    (∃ (s : State) (r : OpRule) (p : Packet), headerOk s (BitVec.ofNat 16 r.op) p = true ∧ s.boot.ready = true ∧
      s.boot.statusQueue = false ∧ r.lenOk p.params = true ∧ sizeOk s p = true ∧ scopeOk s r p = true ∧ s.rind.lockout = false ∧
      standby s = true ∧ r.standby = true) ∧
    (∃ (s : State) (b : Nat) (c : Nat) (sel : Nat) (x : CmdScope), b < 12 ∧ c < 64 ∧ sel < 14 ∧
      cmdScope s (b / 4 + 4 * (b % 4) + 16 * c + 4096 * sel) = some x) :=
  ⟨⟨up, _, { op := 0x0105 }, pk [1], got_eq (by decide +kernel), by decide +kernel⟩,
   ⟨0, 0, by decide +kernel⟩,
   ⟨0x0501, stLocked, by decide +kernel⟩,
   ⟨up, { op := 0x0105 }, { pk [] with length := 4 }, by decide +kernel⟩,
   ⟨modBo up fun x => { x with ready := false }, { op := 0x0105 }, pk [], by decide +kernel⟩,
   ⟨up, { op := 0x0105 }, pk [0], by decide +kernel⟩,
   ⟨up, { op := 0x0105 }, { pk [] with scope := 0xFFFF }, by decide +kernel⟩,
   ⟨{ up with rind := { up.rind with lockout := true } }, { op := 0x0105, lockout := always }, pk [], by decide +kernel⟩,
   ⟨standby1, { op := 0x0105, standby := true }, pk [], by decide +kernel⟩,
   ⟨modLink up 575 fun x => { x with inMap := true }, 11, 47, 13, ⟨.cell, 575, 0⟩, by decide +kernel⟩⟩

theorem test_meets_LocksTurnCommandsAway :
    (∃ (s : State) (s0 : State) (r : OpRule) (p : Packet) (l : Lock), turnOf s r.op p = some s0 ∧ noReplay s0 p = true ∧
      preCheck s0 r p = stOk ∧ (∀ k ∈ (getQ s0 p.queue.toNat).expired, ¬ ∃ t ∈ r.targets s0 p, overlap k t = true) ∧
      (s0.cmd.locks.find? fun l => l.queue ≠ p.queue.toNat && (r.targets s0 p).any (overlap l.key)) = some l) ∧
    (∃ (s : State) (s0 : State) (r : OpRule) (p : Packet) (k : LockKey) (t : LockKey), turnOf s r.op p = some s0 ∧ noReplay s0 p = true ∧
      preCheck s0 r p = stOk ∧ k ∈ (getQ s0 p.queue.toNat).expired ∧ t ∈ r.targets s0 p ∧ overlap k t = true) :=
  ⟨⟨locked1, _, { op := 0x0105, targets := stationTarget }, pk [], ⟨1, ⟨0, 0⟩, 0, 0⟩, got_eq (by decide +kernel), by decide +kernel⟩,
   ⟨modQ up 0 fun x => { x with expired := [⟨0, 0⟩] }, _, { op := 0x0105, targets := stationTarget }, pk [], ⟨0, 0⟩, ⟨0, 0⟩,
     got_eq (by decide +kernel), by decide +kernel⟩⟩

theorem test_meets_TriggersAreIgnoredWhileLocked :
    (∃ (i : Instr) (s : State), triggerRow i = true ∧ clocked s = true ∧ s.cmd.locks ≠ []) ∧
    (∃ (s : State), clocked s = true ∧ s.cmd.locks ≠ []) ∧
    (∃ (q : Fin 32) (v : Word) (s : State), clocked s = true ∧ s.cmd.locks ≠ [] ∧ bitsAt v.toNat 0 12 < queueSize s q) :=
  ⟨⟨.stuCommit, locked1, by decide +kernel⟩,
   ⟨locked1, by decide +kernel⟩,
   ⟨0, 63, locked1, by decide +kernel⟩⟩

theorem test_meets_ParamWriteIsAllOrNothing :
    (∃ (s : State) (t : State) (p : Packet) (i : Nat) (st : Nat), startOf s { op := 0x0302, lenOk := counted 1 512 2, lockout := fun l => (pairs ((l.drop 1).map (·.toNat))).any fun x => rindClassPid x.1, targets := fun s p => (pairs (restWords p)).flatMap fun x => pidKey s (pidOf x.1) } p = some t ∧
      firstFail (writeCheck t) (pairs (restWords p)) 0 = some (i, st)) ∧
    (∃ (s : State) (r : RegName) (i : Nat) (pid : Nat), pidOf pid = .reg r i ∧ regPresent s r i = true ∧ r.readOnly = true) ∧
    (∃ (s : State) (r : RegName) (i : Nat) (pid : Nat), pidOf pid = .reg r i ∧ regPresent s r i = false) ∧
    (∃ (pid : Nat), pidOf pid = .bad) :=
  ⟨⟨up, _, pk [2, 4, 0, 5, 0], 1, stBadParam, got_eq (by decide +kernel), by decide +kernel⟩,
   ⟨up, .sysId, 0, 0, by decide +kernel⟩,
   ⟨tb288up, .wlBrCfg, 2, RegName.wlBrCfg.addr 2 / 4, by decide +kernel⟩,
   ⟨5, by decide +kernel⟩⟩

theorem test_meets_PointWriteRefusesWithoutEffect :
    (∃ (s : State) (t : State) (p : Packet) (i : Nat) (st : Nat), startOf s { op := 0x0312, lenOk := counted 1 256 2, targets := fun _ p => (pairs (restWords p)).map fun x => ptKey x.1 } p = some t ∧
      firstFail (pointCheck t) (pairs (restWords p)) 0 = some (i, st)) ∧
    (∃ (pa : Nat), pa < 299008 ∧ writerOf pa ≠ 7) ∧
    (∃ (s : State) (pa : Nat) (v : Nat), pa < 299008 ∧ writerOf pa = 7 ∧ ptAbsent s pa = false ∧
      (sx 16 v < h2i (getDesc s (descIdx pa)).min ∨ h2i (getDesc s (descIdx pa)).max < sx 16 v)) ∧
    (∃ (pa : _), pa < 294912) :=
  ⟨⟨up, _, pk [1, 0, 0], 0, stReadOnly, got_eq (by decide +kernel), by decide +kernel⟩,
   ⟨294911, by decide +kernel⟩,
   ⟨{ up with curd := { up.curd with descs := [(descIdx 299007, { getDesc up (descIdx 299007) with max := 0 })] } }, 299007, 1,
     by decide +kernel⟩,
   ⟨294911, by decide +kernel⟩⟩

theorem test_meets_CompletionsFollowTheirTransport :
    (∃ (st : Nat) (sq : Nat) (res : Nat) (k : Nat), st < 2 ^ 16 ∧ sq < 2 ^ 16 ∧ res < 2 ^ 32 ∧ k < 2 ^ 32) ∧
    (∃ (s : State) (p : Packet), p.transport = 0 ∧ (getQ s p.queue.toNat).mode = .active ∧ p.reply < 2 ^ 64) ∧
    (∃ (s : State) (p : Packet), p.transport = 0 ∧ (getQ s p.queue.toNat).mode = .active ∧ 2 ^ 64 ≤ p.reply) ∧
    (∃ (s : State) (p : Packet), p.transport = 1 ∧ (getQ s p.queue.toNat).mode = .active) ∧
    (∃ (s : State) (p : Packet), p.transport = 2 ∧ (getQ s p.queue.toNat).mode = .active) ∧
    (∃ (s : State) (p : Packet) (reply : List Byte), replySpace s p < reply.length) :=
  ⟨⟨0xFFFF, 0xFFFF, 0xFFFFFFFF, 0xFFFFFFFF, by decide +kernel⟩,
   ⟨up, pk [], by decide +kernel⟩,
   ⟨up, { pk [] with reply := 2 ^ 64 }, by decide +kernel⟩,
   ⟨up, { pk [] with transport := 1 }, by decide +kernel⟩,
   ⟨up, { pk [] with transport := 2 }, by decide +kernel⟩,
   ⟨up, { pk [] with replyMax := 0 }, [1], by decide +kernel⟩⟩

theorem test_meets_HighestReadyQueueStartsNext :
    (∃ (s : State) (p : Packet) (t : State), clocked s = true ∧ served s = true ∧ p.queue.toNat < 32 ∧
      (getQ s p.queue.toNat).mode = .active ∧ (getQ s p.queue.toNat).ready = [] ∧ arrives s p = (true, t) ∧
      mayStart t p.queue.toNat = false ∧ replayOf t p = none) ∧
    (∃ (s : State) (p : Packet) (t : State), clocked s = true ∧ served s = true ∧ p.queue.toNat < 32 ∧ (getQ s p.queue.toNat).ready = [] ∧
      arrives s p = (false, t)) ∧
    (∃ (s : State) (q : Nat), executing s q = true) :=
  ⟨⟨flashing 0x0105 [], pk [], _, by decide +kernel, by decide +kernel, by decide +kernel, by decide +kernel, by decide +kernel,
     pair_eq1 (by decide +kernel), by decide +kernel, by decide +kernel⟩,
   ⟨setFld up .cmdQCfg_transport 0 1, pk [], _, by decide +kernel, by decide +kernel, by decide +kernel, by decide +kernel,
     pair_eq1 (by decide +kernel)⟩,
   ⟨flashing 0x0105 [], 0, by decide +kernel⟩⟩

theorem test_meets_StartsNeedTheirConditions :
    (∃ (s : State) (t : State) (p : Packet), startOf s { op := 0x0501, lockout := always, standby := true, holdBus := always, targets := headerKey } p = some t ∧
      t.boot.holdBus = false ∧ t.mode.conv = .parked ∧ startOk t = false) ∧
    (∃ (s : State), startOk s = true) ∧
    (∃ (s : State), standby s = true) :=
  ⟨⟨up, _, pk [], got_eq (by decide +kernel), by decide +kernel⟩,
   ⟨startable, by decide +kernel⟩,
   ⟨standby1, by decide +kernel⟩⟩

theorem test_meets_FrameRowsComplete :
    (∃ (s : State), clocked s = true ∧ s.frame.running = true) ∧
    (∃ (s : State), clocked s = true ∧ s.frame.running = false) ∧
    (∃ (s : State), clocked s = true ∧ s.frame.running = true ∧ s.frame.snapped = false) ∧
    (∃ (s : State), clocked s = true ∧ s.frame.snapped = true ∧ (spillRecord (traceRecord (keepShadow s))).power.mode = .run ∧
      (spillRecord (traceRecord (keepShadow s))).power.entering = false) ∧
    (∃ (s : State), clocked s = true ∧ s.frame.snapped = true ∧
      ((spillRecord (traceRecord (keepShadow s))).power.mode ≠ .run ∨ (spillRecord (traceRecord (keepShadow s))).power.entering = true)) ∧
    (∃ (c : Cell) (s : State), clocked s = true ∧ mayList s c = true ∧ (getCh s c).newCmd = true) ∧
    (∃ (c : Cell) (s : State), clocked s = true ∧ mayList s c = true ∧ (getCh s c).newCmd = false) ∧
    (∃ (c : Cell) (s : State), clocked s = true ∧ mayList s c = true ∧ (getCh s c).newCmd = false ∧ 2 ≤ (getCh s c).staleCount) :=
  ⟨⟨modFr (up) fun x => { x with running := true }, by decide +kernel⟩,
   ⟨up, by decide +kernel⟩,
   ⟨modFr (up) fun x => { x with running := true }, by decide +kernel⟩,
   ⟨modFr (up) fun x => { x with snapped := true }, by decide +kernel⟩,
   ⟨modFr (modPw up fun x => { x with mode := .idle }) fun x => { x with snapped := true }, by decide +kernel⟩,
   ⟨0, listing 1 true, by decide +kernel⟩,
   ⟨0, listing 1 false, by decide +kernel⟩,
   ⟨0, listing 2 false, by decide +kernel⟩⟩

theorem test_meets_LaneEventsComplete :
    (∃ (n : LaneNo) (s : State), clocked s = true ∧ lanePresent s n = true) ∧
    (∃ (n : LaneNo) (r : _) (t : State) (l : _) (s : State), clocked s = true ∧ receive s n (fun _ => 10) r = (t, [(.link, l)]) ∧
      lstatValid l = true) ∧
    (∃ (n : LaneNo) (s : State), clocked s = true ∧ (getLane s n).mode = .training ∧ (getLane s n).trained = false ∧
      (getLane s n).retry = false ∧ (getLane s n).lock = true ∧ ((getLane s n).linkSeen = true ∨ n.val = 24 ∨ n.val = 25) ∧
      (getLane s n).keepAlive = false) ∧
    (∃ (n : LaneNo) (s : State), clocked s = true ∧ (getLane s n).mode = .training ∧ (getLane s n).trained = false ∧
      (getLane s n).retry = false ∧ (getLane s n).lock = true ∧ ((getLane s n).linkSeen = true ∨ n.val = 24 ∨ n.val = 25) ∧
      (getLane s n).keepAlive = true) ∧
    (∃ (n : LaneNo) (s : State), clocked s = true ∧ (getLane s n).mode = .training ∧ (getLane s n).trained = false ∧
      (getLane s n).retry = false ∧ (getLane s n).lock = false) ∧
    (∃ (n : LaneNo) (s : State), clocked s = true ∧ (getLane s n).mode = .down ∧ flag s .laneCfg_enable n = true ∧
      63 ≤ (getLane s n).sinceTry ∧ lanePresent s n = true ∧ s.boot.ready = true) ∧
    (∃ (n : LaneNo) (r : _) (s : State), clocked s = true ∧ ((receive s n (fun _ => 10) r).1).power.mode = .idle ∧
      (getLane ((receive s n (fun _ => 10) r).1) n).mode = .eidle ∧ n.val ≠ 24 ∧ n.val ≠ 25 ∧
      fld ((receive s n (fun _ => 10) r).1) .laneCfg_keepalive n ≠ 0 ∧
      fld ((receive s n (fun _ => 10) r).1) .laneCfg_keepalive n ≤ (getLane ((receive s n (fun _ => 10) r).1) n).sinceKeep + 1) ∧
    (∃ (n : LaneNo) (l : _) (s : State), clocked s = true ∧ (getLane s n).parkPend = some l) ∧
    (∃ (n : LaneNo) (s : State), (getLane s n).lock = false) ∧
    (∃ (x : _) (b64 : _) (q : _) (m : _), nextMessage x b64 q = some m) :=
  ⟨⟨0, up, by decide +kernel⟩,
   ⟨0, slabs .link (linkB 7 0 []), _, linkB 7 0 [], hears up 0, by decide +kernel, pair_eq (by decide +kernel), by decide +kernel⟩,
   ⟨0, modLane up 0 fun x => { x with mode := .training, lock := true, linkSeen := true }, by decide +kernel⟩,
   ⟨0, modLane up 0 fun x => { x with mode := .training, lock := true, linkSeen := true, keepAlive := true }, by decide +kernel⟩,
   ⟨0, modLane up 0 fun x => { x with mode := .training }, by decide +kernel⟩,
   ⟨0, modLane (setFld up .laneCfg_enable 0 1) 0 fun x => { x with mode := .down, sinceTry := 63 }, by decide +kernel⟩,
   ⟨0, ⟨[], 0, []⟩,
     modPw (modLane (setFld up .laneCfg_keepalive 0 1) 0 fun x => { x with mode := .eidle }) fun x => { x with mode := .idle },
     by decide +kernel⟩,
   ⟨0, [], modLane up 0 fun x => { x with parkPend := some [] }, by decide +kernel⟩,
   ⟨0, up, by decide +kernel⟩,
   ⟨(getLane up 0).tx, false, [(.park, [])], (.park, []), by decide +kernel⟩⟩

theorem test_meets_HealthWindowsComplete :
    (∃ (n : LaneNo) (hdr : Nat) (st : Nat) (fi : Nat) (s : State), clocked s = true ∧ lanePresent s n = true ∧
      (getLane (countSat (countSat (countSat s .laneCntHdr .laneCntSat n 0 hdr) .laneCntStuff .laneCntSat n 1 st) .laneCntFill .laneCntSat n 2 fi) n).rx.eqFree = false ∧
      eqIsHeld (countSat (countSat (countSat s .laneCntHdr .laneCntSat n 0 hdr) .laneCntStuff .laneCntSat n 1 st) .laneCntFill .laneCntSat n 2 fi) n = true) ∧
    (∃ (n : LaneNo) (hdr : Nat) (st : Nat) (fi : Nat) (s : State), clocked s = true ∧ lanePresent s n = true ∧
      ((getLane (countSat (countSat (countSat s .laneCntHdr .laneCntSat n 0 hdr) .laneCntStuff .laneCntSat n 1 st) .laneCntFill .laneCntSat n 2 fi) n).rx.eqFree = true ∨ eqIsHeld (countSat (countSat (countSat s .laneCntHdr .laneCntSat n 0 hdr) .laneCntStuff .laneCntSat n 1 st) .laneCntFill .laneCntSat n 2 fi) n = false)) ∧
    (∃ (n : LaneNo) (s : State), clocked s = true ∧ lanePresent s n = true ∧ (getLane s n).mode ≠ .up ∧ (getLane s n).mode ≠ .degraded) ∧
    (∃ (n : LaneNo) (hdr : Nat) (s : State), clocked s = true ∧ lanePresent s n = true ∧
      ((getLane s n).mode = .up ∨ (getLane s n).mode = .degraded) ∧ failHdr s ≤ (hdr + (getLane s n).rx.errs)) ∧
    (∃ (n : LaneNo) (hdr : Nat) (s : State), clocked s = true ∧ lanePresent s n = true ∧ (getLane s n).mode = .up ∧
      (hdr + (getLane s n).rx.errs) < failHdr s ∧ degrHdr s ≤ (hdr + (getLane s n).rx.errs)) ∧
    (∃ (n : LaneNo) (hdr : Nat) (s : State), clocked s = true ∧ lanePresent s n = true ∧ (getLane s n).mode = .up ∧
      (hdr + (getLane s n).rx.errs) < failHdr s ∧ (hdr + (getLane s n).rx.errs) < degrHdr s ∧ eyeGood s n = true) ∧
    (∃ (n : LaneNo) (hdr : Nat) (s : State), clocked s = true ∧ lanePresent s n = true ∧ (getLane s n).mode = .degraded ∧
      (hdr + (getLane s n).rx.errs) < failHdr s ∧ (hdr + (getLane s n).rx.errs) < degrHdr s ∧ 1 ≤ (getLane s n).goodWins ∧
      eyeGood s n = true) :=
  ⟨⟨0, 0, 0, 0, modRx (setFld up .laneCfg_eq_freeze 0 1) 0 fun r => { r with eqFree := false }, by decide +kernel⟩,
   ⟨0, 0, 0, 0, up, by decide +kernel⟩,
   ⟨0, up, by decide +kernel⟩,
   ⟨0, failHdr up, modLane up 0 fun x => { x with mode := .up }, by decide +kernel⟩,
   ⟨0, degrHdr up, modLane up 0 fun x => { x with mode := .up }, by decide +kernel⟩,
   ⟨0, 0, modLane up 0 fun x => { x with mode := .up }, by decide +kernel⟩,
   ⟨0, 0, modLane up 0 fun x => { x with mode := .degraded, goodWins := 1 }, by decide +kernel⟩⟩

theorem test_meets_EyeAndLaneWritesComplete :
    (∃ (n : LaneNo) (tick : _) (e : _) (s : State), clocked s = true ∧ (getLane s n).scan = some e ∧ (getLane s n).mode = .degraded ∧
      scanPoint { e with elapsed := e.elapsed + (min tick s.frame.ticks) } = 8192 ∧ flag s .laneEyeCtl_continuous n = false) ∧
    (∃ (n : LaneNo) (s : State), clocked s = true ∧ s.cmd.locks = [] ∧ lanePresent s n = true ∧ (getLane s n).scan = none) :=
  ⟨⟨0, 2 ^ 40, ⟨0, 0, 16, false, 2 ^ 32, 0, false⟩,
     modLane up 0 fun x => { x with mode := .degraded, scan := some ⟨0, 0, 16, false, 2 ^ 32, 0, false⟩ }, by decide +kernel⟩,
   ⟨0, up, by decide +kernel⟩⟩

set_option maxRecDepth 100000 in
theorem test_meets_WheyEventsComplete :
    (∃ (c : Cell) (n : LaneNo) (r : _) (t : State) (l : _) (s : State), clocked s = true ∧ n.val / 2 = c.val / 48 ∧
      receive s n (fun _ => 10) r = (t, [(.last, l)]) ∧ standby t = false ∧ (getLink t c).inMap = true) ∧
    (∃ (c : Cell) (n : LaneNo) (r : _) (t : State) (l : _) (s : State), clocked s = true ∧ n.val / 2 = c.val / 48 ∧
      receive s n (fun _ => 10) r = (t, [(.last, l)]) ∧ standby t = true ∧ (getBr t (c / 48)).relay = true) ∧
    (∃ (c : Cell) (n : LaneNo) (r : _) (t : State) (l : _) (h : _) (s : State), clocked s = true ∧ n.val / 2 = c.val / 48 ∧
      receive s n (fun _ => 6) r = (t, [(.last, l)]) ∧ standby t = false ∧ (getLink t c).inMap = true ∧ t.frame.snapped = false ∧
      (getLink t c).head = some h ∧ uplinkOk t c h (l.take 48) = true) ∧
    (∃ (c : Cell) (n : LaneNo) (r : _) (t : State) (l : _) (s : State), clocked s = true ∧ n.val / 2 = c.val / 48 ∧
      receive s n (fun _ => 6) r = (t, [(.last, l)]) ∧ standby t = true ∧ (getBr t (c / 48)).relay = true) ∧
    (∃ (c : Cell) (n : LaneNo) (r : _) (t : State) (l : _) (s : State), clocked s = true ∧ n.val < 24 ∧ n.val / 2 = c.val / 48 ∧
      receive s n (fun _ => 10) r = (t, [(.mark, l)]) ∧ standby t = false ∧ (getLink t c).inMap = true ∧ t.clk.onSafe = false ∧
      shortOk (laneCoding t n) (shortOf (laneCoding t n) l) = true ∧ byteAt (shortOf (laneCoding t n) l) 0 % 16 = 2 ∧
      byteAt (shortOf (laneCoding t n) l) 1 = c.val % 48) ∧
    (∃ (x : Cell) (l : _) (s : State), shortOk (getNode s x).coding l = true) ∧
    (∃ (c : Cell) (s : State), clocked s = true ∧ (getLink s c).inMap = true ∧ 3 ≤ (getLink s c).missUp) ∧
    (∃ (c : Cell) (s : State), clocked s = true ∧ 8 ≤ (getLink s c).terrRun) ∧
    (∃ (b : Br) (s : State), clocked s = true ∧ flag s .wlBrCfg_auto_resplit b = true ∧ (getBr s b).resplit = true ∧
      (getBr s b).broken = false ∧ 64 ≤ (getBr s b).healed ∧ targetSplit s b = splitGoal s b) ∧
    (∃ (b : Br) (s : State), clocked s = true ∧ flag s .wlBrCfg_auto_resplit b = true ∧ (getBr s b).resplit = true ∧
      (getBr s b).broken = false ∧ 64 ≤ (getBr s b).healed ∧ targetSplit s b ≠ splitGoal s b) ∧
    (∃ (b : Br) (e : _) (r : _) (t : State) (l : _) (k : _) (s : State), clocked s = true ∧
      receive s (2 * b + b2n e) (fun _ => 10) r = (t, [(.link, l)]) ∧ enumHeard l false = some k ∧ standby t = false ∧
      (getBr t b).disc = .enumerating) ∧
    (∃ (b : Br) (e : _) (r : _) (t : State) (l : _) (k : _) (s : State), clocked s = true ∧
      receive s (2 * b + b2n e) (fun _ => 10) r = (t, [(.link, l)]) ∧ enumHeard l false = some k ∧ standby t = true) ∧
    (∃ (b : Br) (e : _) (r : _) (t : State) (l : _) (k : _) (s : State), clocked s = true ∧
      receive s (2 * b + b2n e) (fun _ => 10) r = (t, [(.link, l)]) ∧ enumHeard l true = some k ∧ (getBr t b).disc = .enumerating) ∧
    (∃ (s : State), clocked s = true ∧ s.boot.ready = true ∧ s.frame.running = true) ∧
    (∃ (b : Br) (s : State), clocked s = true ∧ (getBr s b).disc = .acquiring ∧
      ((mapCells s b).all fun c => (getLink s c).timeLocked) = true ∧ discMismatch s b = false) :=
  ⟨⟨0, 0, slabs .first hd, _, hd ++ zeroB 4, hears inMap 0, by decide +kernel, by decide +kernel, pair_eq (by decide +kernel),
     by decide +kernel⟩,
   ⟨0, 0, slabs .first hd, _, hd ++ zeroB 4, hears (modBr standby1 0 fun x => { x with relay := true }) 0, by decide +kernel,
     by decide +kernel, pair_eq (by decide +kernel), by decide +kernel⟩,
   ⟨0, 0, slabs .first tl, _, tl ++ zeroB 8, hd, modLink (hears inMap 0) 0 fun x => { x with head := some hd }, by decide +kernel,
     by decide +kernel, pair_eq (by decide +kernel), by decide +kernel⟩,
   ⟨0, 0, slabs .first tl, _, tl ++ zeroB 8, hears (modBr standby1 0 fun x => { x with relay := true }) 0, by decide +kernel,
     by decide +kernel, pair_eq (by decide +kernel), by decide +kernel⟩,
   ⟨0, 0, slabs .mark (markB false [2, 0, 0, 0, 0, 0]), _, padB 14 (markB false [2, 0, 0, 0, 0, 0]),
     modCk (hears inMap 0) fun x => { x with onSafe := false }, by decide +kernel, by decide +kernel, by decide +kernel,
     pair_eq (by decide +kernel), by decide +kernel⟩,
   ⟨0, markB false [2, 0, 0, 0, 0, 0], up, by decide +kernel⟩,
   ⟨0, modLink inMap 0 fun x => { x with missUp := 3 }, by decide +kernel⟩,
   ⟨0, modLink up 0 fun x => { x with terrRun := 8 }, by decide +kernel⟩,
   ⟨0, modBr (setFld up .wlBrCfg_auto_resplit 0 1) 0 fun x => { x with resplit := true, healed := 64, nb := 1, split := 1 },
     by decide +kernel⟩,
   ⟨0, modBr (setFld up .wlBrCfg_auto_resplit 0 1) 0 fun x => { x with resplit := true, healed := 64, nb := 1 }, by decide +kernel⟩,
   ⟨0, false, slabs .link (linkB 1 0x80 [3, 0]), _, linkB 1 0x80 [3, 0], 3, modBr (hears up 0) 0 fun x => { x with disc := .enumerating },
     by decide +kernel, pair_eq (by decide +kernel), by decide +kernel⟩,
   ⟨0, false, slabs .link (linkB 1 0x80 [3, 0]), _, linkB 1 0x80 [3, 0], 3, hears standby1 0, by decide +kernel,
     pair_eq (by decide +kernel), by decide +kernel⟩,
   ⟨0, false, slabs .link (linkB 1 0x80 [3, 1]), _, linkB 1 0x80 [3, 1], 3, modBr (hears up 0) 0 fun x => { x with disc := .enumerating },
     by decide +kernel, pair_eq (by decide +kernel), by decide +kernel⟩,
   ⟨modFr (up) fun x => { x with running := true }, by decide +kernel⟩,
   ⟨0, modBr up 0 fun x => { x with disc := .acquiring }, by decide +kernel⟩⟩

theorem test_meets_WheyBulkAndWritesComplete :
    (∃ (c : Cell) (n : LaneNo) (r : _) (t : State) (l : _) (x : _) (s : State), clocked s = true ∧ n.val / 2 = c.val / 48 ∧
      receive s n (fun _ => 10) r = (t, [(.bulk, l)]) ∧ standby t = false ∧ (getLink t c).bulk = some x ∧ fieldAt l 2 2 = x.tag.toNat ∧
      x.write = false ∧ x.len = byteAt l 7 ∧ bulkOk l 0x81 x.len = true) ∧
    (∃ (c : Cell) (n : LaneNo) (r : _) (t : State) (l : _) (x : _) (s : State), clocked s = true ∧ n.val / 2 = c.val / 48 ∧
      receive s n (fun _ => 10) r = (t, [(.bulk, l)]) ∧ standby t = false ∧ (getLink t c).bulk = some x ∧ fieldAt l 2 2 = x.tag.toNat ∧
      x.write = true ∧ bulkOk l 0x82 0 = true) ∧
    (∃ (c : Cell) (n : LaneNo) (r : _) (t : State) (l : _) (x : _) (s : State), clocked s = true ∧ n.val / 2 = c.val / 48 ∧
      receive s n (fun _ => 10) r = (t, [(.bulk, l)]) ∧ standby t = false ∧ (getLink t c).bulk = some x ∧ fieldAt l 2 2 = x.tag.toNat ∧
      bulkOk l 0xC0 1 = true) ∧
    (∃ (c : Cell) (x : _) (s : State), clocked s = true ∧ (getLink s c).bulk = some x ∧ x.tries < 3) ∧
    (∃ (c : Cell) (x : _) (s : State), clocked s = true ∧ (getLink s c).bulk = some x ∧ 3 ≤ x.tries) ∧
    (∃ (s : State), clocked s = true ∧ s.cmd.locks = [] ∧ holdBusBlock s 3 = false) :=
  ⟨⟨0, 0, slabs .bulk (bulkB 0 0x81 0 0 2 [1, 2]), _, bulkB 0 0x81 0 0 2 [1, 2], ask false 2 0, hears (asking false 2 0) 0,
     by decide +kernel, by decide +kernel, pair_eq (by decide +kernel), by decide +kernel⟩,
   ⟨0, 0, slabs .bulk (bulkB 0 0x82 0 0 2 []), _, bulkB 0 0x82 0 0 2 [], ask true 2 0, hears (asking true 2 0) 0, by decide +kernel,
     by decide +kernel, pair_eq (by decide +kernel), by decide +kernel⟩,
   ⟨0, 0, slabs .bulk (bulkB 0 0xC0 0 0 2 [1]), _, bulkB 0 0xC0 0 0 2 [1], ask true 2 0, hears (asking true 2 0) 0, by decide +kernel,
     by decide +kernel, pair_eq (by decide +kernel), by decide +kernel⟩,
   ⟨0, ask true 2 2, asking true 2 2, by decide +kernel⟩,
   ⟨0, ask true 2 3, asking true 2 3, by decide +kernel⟩,
   ⟨up, by decide +kernel⟩⟩

theorem test_meets_NodeEventsComplete :
    (∃ (c : Cell) (s : State), (getNode s c).mode = .run ∧ 3 ≤ (getNode s c).miss) ∧
    (∃ (c : Cell) (pB : _) (tick : _) (bytes : List Byte) (s : State), transparent (getNode s c) = false ∧
      byteAt bytes 0 % 64 = (getNode s c).pos ∧ ((getNode s c).counted = false ∨ (listOf bytes).kLo.toNat = (getNode s c).k % 65536) ∧
      ((getNode s c).token.map (·.1)) = some (listOf bytes).holder ∧ ((getNode s c).serve.map (·.1)) = some pB ∧
      tick < (getNode s c).ticks ∧ (getNode s c).rxList = none ∧ listFormOk bytes (windowTicks (getNode s c) ((getNode s c).k + 1)) = true) ∧
    (∃ (c : Cell) (i : _) (e : _) (s : State), (schedule (getNode s c))[i]? = some e ∧ (getNode s c).mode = .run ∧
      i ∉ (getNode s c).fired) ∧
    (∃ (c : Cell) (s : State), (getNode s c).locked = false ∧ 16 ≤ (getNode s c).good) ∧
    (∃ (c : Cell) (s : State), (getNode s c).locked = true ∧ (4 ≤ (getNode s c).bad ∨ 1024 ≤ (getNode s c).noMark) ∧
      (getNode s c).mode ≠ .run) ∧
    (∃ (c : Cell) (s : State), (getNode s c).locked = true ∧ (4 ≤ (getNode s c).bad ∨ 1024 ≤ (getNode s c).noMark) ∧
      (getNode s c).mode = .run) ∧
    (∃ (c : Cell) (v : _) (s : State), (getNode s c).mode ≠ .init ∧ Config.nodeByte c 20 % 256 + 256 * (Config.nodeByte c 21 % 256) < v) ∧
    (∃ (c : Cell) (p : _) (s : State), slotPort (getNode s c) = some p) ∧
    (∃ (c : Cell) (p : _) (hd : _) (s : State), slotPort (getNode s c) = some p ∧ (getNode s c).headSent = some hd) ∧
    (∃ (c : Cell) (s : State), (getNode s c).byClosing = true ∧ (getNode s c).gates.toNat % 16 = 0) ∧
    (∃ (bytes : List Byte), lstatValid bytes = true) :=
  ⟨⟨0, modNode up 0 fun x => { x with mode := .run, miss := 3 }, by decide +kernel⟩,
   ⟨0, false, 0, listB (emptyList 63), modNode running1 0 fun x => { x with curList := none, pos := 63 }, by decide +kernel⟩,
   ⟨0, 0, _, modNode running1 0 fun x => { x with curList := some ({ emptyList 0 with edges := [⟨900, 0, 0, true⟩] }, 0) }, rfl,
     by decide +kernel⟩,
   ⟨0, modNode up 0 fun x => { x with good := 16 }, by decide +kernel⟩,
   ⟨0, modNode up 0 fun x => { x with locked := true, bad := 4 }, by decide +kernel⟩,
   ⟨0, modNode up 0 fun x => { x with mode := .run, locked := true, noMark := 1024 }, by decide +kernel⟩,
   ⟨0, 65536, modNode up 0 fun x => { x with mode := .parked }, by decide +kernel, by omega⟩,
   ⟨0, false, running1, by decide +kernel⟩,
   ⟨0, false, [], modNode running1 0 fun x => { x with headSent := some [] }, by decide +kernel⟩,
   ⟨0, modNode up 0 fun x => { x with byClosing := true }, by decide +kernel⟩,
   ⟨linkB 7 0 [], by decide +kernel⟩⟩

theorem test_meets_NodeMessagesComplete :
    (∃ (c : Cell) (pB : _) (bytes : List Byte) (s : State), linkOk bytes 2 = true ∧ hopForMe (getNode s c) pB (byteAt bytes 1) = true ∧
      bitAt (byteAt bytes 1) 7 = false ∧ (getNode s c).mode ≠ .run ∧ (getNode s c).mode ≠ .init) ∧
    (∃ (c : Cell) (bytes : List Byte) (s : State), linkOk bytes 3 = true ∧ bitAt (byteAt bytes 1) 7 = true ∧
      transparent (getNode s c) = false) ∧
    (∃ (c : Cell) (bytes : List Byte) (s : State), linkOk bytes 4 = true ∧ bitAt (byteAt bytes 1) 7 = true ∧ (getNode s c).token = none) ∧
    (∃ (c : Cell) (bytes : List Byte) (h : _) (old : _) (s : State), linkOk bytes 4 = true ∧ bitAt (byteAt bytes 1) 7 = true ∧
      (getNode s c).token = some (h, old) ∧ 1 ≤ (k16 bytes 3 + 65536 - old) % 65536 ∧ (k16 bytes 3 + 65536 - old) % 65536 ≤ 32767) ∧
    (∃ (c : Cell) (bytes : List Byte) (s : State), linkOk bytes 5 = true ∧ bitAt (byteAt bytes 1) 7 = true ∧
      ((getNode s c).mode = .parked ∨ (getNode s c).mode = .safe) ∧ (getNode s c).locked = true ∧ (getNode s c).token.isSome = true ∧
      (getNode s c).splitOn = true) ∧
    (∃ (c : Cell) (bytes : List Byte) (s : State), linkOk bytes 6 = true ∧ bitAt (byteAt bytes 1) 7 = true ∧ byteAt bytes 2 ≤ 2 ∧
      (k16 bytes 4, byteAt bytes 2, byteAt bytes 3, fieldAt bytes 6 4) ∉ (getNode s c).announce) ∧
    (∃ (c : Cell) (bytes : List Byte) (s : State), linkOk bytes 8 = true ∧ bitAt (byteAt bytes 1) 7 = true ∧ (getNode s c).mode ≠ .run) ∧
    (∃ (c : Cell) (bytes : List Byte) (s : State), (getNode s c).coding = false ∧ shortOk false bytes = true ∧
      byteAt bytes 0 % 64 = 0x3F ∧ (getNode s c).pos ≠ 0x3F ∧ transparent (getNode s c) = false) ∧
    (∃ (c : Cell) (bytes : List Byte) (s : State), (getNode s c).coding = false ∧ shortOk false bytes = true ∧
      byteAt bytes 0 % 64 = (getNode s c).pos ∧ transparent (getNode s c) = false) ∧
    (∃ (c : Cell) (pB : _) (bytes : List Byte) (p : _) (s : State), shortOk (getNode s c).coding bytes = true ∧ byteAt bytes 0 % 16 = 1 ∧
      transparent (getNode s c) = false ∧ ((getNode s c).serve.map (·.1)) = some pB ∧
      ((getNode s c).token.map (·.1)) = some (bitAt (byteAt bytes 0) 4) ∧ (getNode s c).ignoreMarks = false ∧ (getNode s c).path = some p) ∧
    (∃ (c : Cell) (bytes : List Byte) (d : _) (s : State), bitAt (byteAt bytes 0) 6 = false ∧ transparent (getNode s c) = false ∧
      byteAt bytes 0 % 64 = (getNode s c).pos ∧ bulkOk bytes 1 0 = true ∧ (nodeRead s c (fieldAt bytes 4 3) (byteAt bytes 7)).1 = some d) ∧
    (∃ (c : Cell) (bytes : List Byte) (y : _) (s : State), bitAt (byteAt bytes 0) 6 = false ∧ transparent (getNode s c) = false ∧
      byteAt bytes 0 % 64 = (getNode s c).pos ∧ bulkOk bytes 2 (byteAt bytes 7) = true ∧
      nodeWrite (getNode s c) (fieldAt bytes 4 3) ((bytes.drop 8).take (byteAt bytes 7)) = (y, 0)) :=
  ⟨⟨0, false, linkB 2 0x41 [0, 1], modNode up 0 fun x => { x with mode := .parked, hopsA := some 1 }, by decide +kernel⟩,
   ⟨0, linkB 3 0x80 [], modNode up 0 fun x => { x with mode := .parked }, by decide +kernel⟩,
   ⟨0, linkB 4 0x80 [], up, by decide +kernel⟩,
   ⟨0, linkB 4 0x80 [0, 1], false, 0, modNode up 0 fun x => { x with token := some (false, 0) }, by decide +kernel⟩,
   ⟨0, linkB 5 0x80 [], modNode running1 0 fun x => { x with mode := .safe }, by decide +kernel⟩,
   ⟨0, linkB 6 0x80 [], up, by decide +kernel⟩,
   ⟨0, linkB 8 0x80 [], up, by decide +kernel⟩,
   ⟨0, markB false [0x3F, 0, 0, 0, 0, 0], modNode up 0 fun x => { x with mode := .parked, pos := 0 }, by decide +kernel⟩,
   ⟨0, markB false [0, 0, 0, 0, 0, 0], modNode up 0 fun x => { x with mode := .parked, pos := 0 }, by decide +kernel⟩,
   ⟨0, false, markB false [1, 0, 0, 0, 0, 0], 0, running1, by decide +kernel⟩,
   ⟨0, bulkB 0 1 0 0x100 2 [], [0, 0], modNode up 0 fun x => { x with mode := .parked, pos := 0 }, by decide +kernel⟩,
   ⟨0, bulkB 0 2 0 0x100 2 [1, 2], _, modNode up 0 fun x => { x with mode := .parked, pos := 0 }, by decide +kernel, by decide +kernel,
     by decide +kernel, by decide +kernel, pair_eq (by decide +kernel)⟩⟩

theorem test_meets_CurdRowsComplete :
    (∃ (i : Fin 32) (s : State), clocked s = true ∧ flag s .curdSdCfg_enable i = true ∧ flag s .curdSdClk_enable (sdClk s i) = true ∧
      s.curd.stuck.getLsbD i = false ∧ tget 0 s.curd.sdSkip i = 0 ∧ s.frame.realign = false ∧ s.frame.realignPrev = false) ∧
    (∃ (i : Fin 32) (s : State), clocked s = true ∧ flag s .curdSdCfg_enable i = true ∧ flag s .curdSdClk_enable (sdClk s i) = true) ∧
    (∃ (i : Fin 17) (level : _) (s : State), clocked s = true ∧ i.val < 16 ∧
      (if s.boot.gpioDrive.getLsbD i then s.boot.gpioOut.getLsbD i else level) = true) ∧
    (∃ (i : Fin 17) (level : _) (s : State), clocked s = true ∧ i.val < 16 ∧
      (if s.boot.gpioDrive.getLsbD i then s.boot.gpioOut.getLsbD i else level) = false) ∧
    (∃ (pa : Pa) (s : State), clocked s = true ∧ isInput pa = true ∧ ptAbsent s pa = false ∧ (getDesc s (descIdx pa)).staleTo ≠ 0 ∧
      (getDesc s (descIdx pa)).staleTo ≤ (getPt s pa).age) ∧
    (∃ (pa : Pa) (s : State), clocked s = true ∧ isInput pa = true ∧ ptAbsent s pa = false ∧ 1 ≤ (getDesc s (descIdx pa)).noise ∧
      2 ≤ (getDesc s (descIdx pa)).frzN ∧ (getDesc s (descIdx pa)).frzN ≤ (getPt s pa).same) ∧
    (∃ (pa : Pa) (s : State), clocked s = true ∧ isInput pa = true ∧ ptAbsent s pa = false ∧ 8 ≤ (getPt s pa).rateRun) ∧
    (∃ (s : State) (t : State), clocked s = true ∧ s.cmd.locks = [] ∧ commitBlock s 4 = (t, none)) :=
  ⟨⟨0, setFld (setFld up .curdSdCfg_enable 0 1) .curdSdClk_enable 0 1, by decide +kernel⟩,
   ⟨0, setFld (setFld up .curdSdCfg_enable 0 1) .curdSdClk_enable 0 1, by decide +kernel⟩,
   ⟨15, true, up, by decide +kernel⟩,
   ⟨15, false, up, by decide +kernel⟩,
   ⟨0,
     modPt { inMap with curd := { inMap.curd with descs := [(0, { (getDesc inMap 0) with staleTo := 3 })] } } 0 fun x => { x with age := 3 },
     by decide +kernel⟩,
   ⟨0,
     modPt { inMap with curd := { inMap.curd with descs := [(0, { (getDesc inMap 0) with noise := 1, frzN := 2 })] } } 0 fun x => { x with same := 2 },
     by decide +kernel⟩,
   ⟨0, modPt inMap 0 fun x => { x with rateRun := 8 }, by decide +kernel⟩,
   ⟨up, _, by decide +kernel, by decide +kernel, pair_eq (by decide +kernel)⟩⟩

theorem test_meets_HarpRowsComplete :
    (∃ (j : Pair) (s : State), clocked s = true ∧ (getPair s j).running = true ∧ s.harp.halted = false ∧ s.clk.onSafe = false) ∧
    (∃ (j : Pair) (s : State), clocked s = true ∧ (getPair s j).armed = true ∧ flag s .harpLpCfg_enable j = true) ∧
    (∃ (i : Fin 12) (s : State), clocked s = true ∧ flag s .harpTripCfg_enable i = true ∧ s.harp.tripLive.getLsbD i = false) ∧
    (∃ (s : State), clocked s = true ∧ s.harp.permit = true) ∧
    (∃ (s : State), clocked s = true ∧ s.cmd.locks = [] ∧ s.harp.permit = true) ∧
    (∃ (s : State), clocked s = true ∧ s.cmd.locks = [] ∧ s.harp.halted = true) ∧
    (∃ (s : State), clocked s = true ∧ s.harp.permit = true ∧ s.harp.halted = true) ∧
    (∃ (s : State), clocked s = true ∧ s.harp.halted = false) ∧
    (∃ (m : BitVec 12) (s : State), clocked s = true ∧ s.harp.tripLive &&& m = 0) ∧
    (∃ (s : State) (t : State), clocked s = true ∧ s.cmd.locks = [] ∧ commitBlock s 5 = (t, none)) :=
  ⟨⟨0, modCk (modPair up 0 fun x => { x with running := true }) fun x => { x with onSafe := false }, by decide +kernel⟩,
   ⟨0, modPair (setFld up .harpLpCfg_enable 0 1) 0 fun x => { x with armed := true }, by decide +kernel⟩,
   ⟨0, setFld up .harpTripCfg_enable 0 1, by decide +kernel⟩,
   ⟨permit1, by decide +kernel⟩,
   ⟨permit1, by decide +kernel⟩,
   ⟨halted1, by decide +kernel⟩,
   ⟨halted1, by decide +kernel⟩,
   ⟨up, by decide +kernel⟩,
   ⟨1, up, by decide +kernel⟩,
   ⟨up, _, by decide +kernel, by decide +kernel, pair_eq (by decide +kernel)⟩⟩

theorem test_meets_PressAndCheddaringRowsComplete :
    (∃ (s : State), clocked s = true ∧ s.press.copyBusy = true ∧ s.press.activeB = false) ∧
    (∃ (s : State), clocked s = true ∧ s.press.copyBusy = true ∧ s.press.activeB = true) ∧
    (∃ (s : State), clocked s = true ∧ s.cmd.locks = [] ∧ bankBusy s = false) ∧
    (∃ (s : State), clocked s = true ∧ s.cmd.locks = [] ∧ bankBusy s = false ∧ bankBad s = false) ∧
    (∃ (s : State) (t : State), clocked s = true ∧ s.cmd.locks = [] ∧ commitBlock s 6 = (t, none)) ∧
    (∃ (b : Br) (s : State), clocked s = true ∧ hrN s ≤ (getBc s b).hrRun) ∧
    (∃ (c : Cell) (s : State), clocked s = true ∧ 100 ≤ (getCtl s c).devRun) ∧
    (∃ (c : Cell) (k : _) (s : State), clocked s = true ∧ (getCtl s c).bypBy = some k ∧ k ≤ s.frame.k) ∧
    (∃ (c : Cell) (k : _) (s : State), clocked s = true ∧ (getCtl s c).restBy = some k ∧ k ≤ s.frame.k) ∧
    (∃ (s : State) (t : State), clocked s = true ∧ s.cmd.locks = [] ∧ commitBlock s 7 = (t, none)) :=
  ⟨⟨{ up with press := { up.press with copyBusy := true } }, by decide +kernel⟩,
   ⟨{ up with press := { up.press with copyBusy := true, activeB := true } }, by decide +kernel⟩,
   ⟨up, by decide +kernel⟩,
   ⟨up, by decide +kernel⟩,
   ⟨up, _, by decide +kernel, by decide +kernel, pair_eq (by decide +kernel)⟩,
   ⟨0, modBc up 0 fun x => { x with hrRun := hrN up }, by decide +kernel⟩,
   ⟨0, modCtl up 0 fun x => { x with devRun := 100 }, by decide +kernel⟩,
   ⟨0, 0, modCtl up 0 fun x => { x with bypBy := some 0 }, by decide +kernel⟩,
   ⟨0, 0, modCtl up 0 fun x => { x with restBy := some 0 }, by decide +kernel⟩,
   ⟨up, _, by decide +kernel, by decide +kernel, pair_eq (by decide +kernel)⟩⟩

theorem test_meets_TwinRowsComplete :
    (∃ (l1 : _) (r : _) (t : State) (l : _) (s : State), clocked s = true ∧ peerLive s l1 = true ∧
      receive s (26 + b2n l1) (peerBlocks r.slabs.length) r = (t, [(.mark, l)]) ∧ t.twin.role ≠ .off ∧
      shortOk (laneCoding t (26 + b2n l1)) (shortOf (laneCoding t (26 + b2n l1)) l) = true ∧
      byteAt (shortOf (laneCoding t (26 + b2n l1)) l) 0 % 16 = 4) ∧
    (∃ (l1 : _) (r : _) (t : State) (l : _) (s : State), clocked s = true ∧ peerLive s l1 = true ∧
      receive s (26 + b2n l1) (peerBlocks r.slabs.length) r = (t, [(.last, l)])) ∧
    (∃ (l1 : _) (r : _) (t : State) (l : _) (s : State), clocked s = true ∧ peerLive s l1 = true ∧
      receive s (26 + b2n l1) (peerBlocks r.slabs.length) r = (t, [(.last, l)])) ∧
    (∃ (l1 : _) (r : _) (t : State) (l : _) (s : State), clocked s = true ∧ peerLive s l1 = true ∧
      receive s (26 + b2n l1) (peerBlocks r.slabs.length) r = (t, [(.last, l)])) ∧
    (∃ (l1 : _) (b : Br) (r : _) (t : State) (l : _) (s : State), clocked s = true ∧ peerLive s l1 = true ∧
      receive s (26 + b2n l1) (peerBlocks r.slabs.length) r = (t, [(.last, l)]) ∧ byteAt l 1 = b.val ∧ t.twin.role = .standby) ∧
    (∃ (l1 : _) (b : Br) (r : _) (t : State) (l : _) (s : State), clocked s = true ∧ peerLive s l1 = true ∧
      receive s (26 + b2n l1) (peerBlocks r.slabs.length) r = (t, [(.last, l)]) ∧ byteAt l 1 = b.val ∧ t.twin.role = .primary) ∧
    (∃ (s : State), clocked s = true ∧ s.twin.role = .primary) ∧
    (∃ (s : State), clocked s = true ∧ s.twin.role = .standby) ∧
    (∃ (s : State), clocked s = true ∧ standby s = true ∧ s.twin.rxChunks ≠ [] ∧ mirrorFrame s + 2 ≤ s.frame.k) ∧
    (∃ (n : LaneNo) (r : _) (t : State) (l : _) (s : State), clocked s = true ∧ n.val < 24 ∧
      receive s n (fun _ => 10) r = (t, [(.link, l)]) ∧ linkOk l 4 = true ∧ bitAt (byteAt l 2) 0 = !(fld0 t .twinCfg_end == 1) ∧
      t.twin.role = .primary ∧ newerEpoch (fieldAt l 3 2) t.twin.epoch = true) ∧
    (∃ (n : LaneNo) (r : _) (t : State) (l : _) (s : State), clocked s = true ∧ n.val < 24 ∧
      receive s n (fun _ => 10) r = (t, [(.link, l)]) ∧ linkOk l 4 = true ∧ bitAt (byteAt l 2) 0 = !(fld0 t .twinCfg_end == 1) ∧
      t.twin.role = .standby ∧ fieldAt l 3 2 = t.twin.epoch) ∧
    (∃ (s : State), clocked s = true ∧ s.twin.role = .standby) ∧
    (∃ (s : State), clocked s = true ∧ s.twin.role = .primary ∧ s.twin.calLeft = some 0) ∧
    (∃ (s : State), clocked s = true ∧ s.cmd.locks = [] ∧ s.twin.role = .primary ∧ s.twin.peerReady = true ∧ s.twin.swapAt = none) ∧
    (∃ (s : State), clocked s = true ∧ s.cmd.locks = [] ∧ calAllowed s = true) :=
  ⟨⟨false, slabs .mark (markB false [4, 0, 0, 0, 0, 0]), _, padB 14 (markB false [4, 0, 0, 0, 0, 0]), hears primary1 26,
     by decide +kernel, by decide +kernel, pair_eq (by decide +kernel), by decide +kernel⟩,
   ⟨false, slabs .first beat, _, beat ++ zeroB 4, hears primary1 26, by decide +kernel, by decide +kernel, pair_eq (by decide +kernel)⟩,
   ⟨false, slabs .first ([2] ++ zeroB 115), _, [2] ++ zeroB 125, hears standby1 26, by decide +kernel, by decide +kernel,
     pair_eq (by decide +kernel)⟩,
   ⟨false, slabs .first ([3] ++ zeroB 115), _, [3] ++ zeroB 125, hears standby1 26, by decide +kernel, by decide +kernel,
     pair_eq (by decide +kernel)⟩,
   ⟨false, 0, slabs .first ([0x10] ++ zeroB 17), _, [0x10] ++ zeroB 27, hears standby1 26, by decide +kernel, by decide +kernel,
     pair_eq (by decide +kernel), by decide +kernel⟩,
   ⟨false, 0, slabs .first ([0x11] ++ zeroB 80), _, [0x11] ++ zeroB 83, hears primary1 26, by decide +kernel, by decide +kernel,
     pair_eq (by decide +kernel), by decide +kernel⟩,
   ⟨primary1, by decide +kernel⟩,
   ⟨standby1, by decide +kernel⟩,
   ⟨modFr (modTw standby1 fun x => { x with rxChunks := [(1, [])] }) fun x => { x with k := 2 }, by decide +kernel⟩,
   ⟨23, slabs .link (linkB 4 0x80 [1, 1, 0]), _, linkB 4 0x80 [1, 1, 0], hears primary1 23, by decide +kernel, by decide +kernel,
     pair_eq (by decide +kernel), by decide +kernel⟩,
   ⟨23, slabs .link (linkB 4 0x80 [1]), _, linkB 4 0x80 [1], hears standby1 23, by decide +kernel, by decide +kernel,
     pair_eq (by decide +kernel), by decide +kernel⟩,
   ⟨standby1, by decide +kernel⟩,
   ⟨modTw primary1 fun x => { x with calLeft := some 0 }, by decide +kernel⟩,
   ⟨modTw primary1 fun x => { x with peerReady := true }, by decide +kernel⟩,
   ⟨primary1, by decide +kernel⟩⟩

theorem test_meets_ModeRowsComplete :
    (∃ (s : State), clocked s = true ∧ s.mode.conv = .precharge ∧ 100 ≤ s.mode.preRun) ∧
    (∃ (s : State), clocked s = true ∧ s.mode.conv = .precharge ∧ s.mode.preRun < 100 ∧ stateFor s (fld0 s .modePrechgCfg_t_pre) = true) ∧
    (∃ (s : State), clocked s = true ∧ s.mode.conv = .rampDown ∧ 100 ≤ s.mode.rdRun) ∧
    (∃ (s : State), clocked s = true ∧ s.mode.conv = .rampDown ∧ s.mode.rdRun < 100 ∧ stateFor s (fld0 s .modeLimCfg2_t_rd) = true) ∧
    (∃ (b : Br) (s : State), clocked s = true ∧ (getBc s b).joining = true ∧ 100 ≤ tget 0 s.mode.joinRun b) ∧
    (∃ (s : State), clocked s = true ∧ rtInNow s = true) ∧
    (∃ (s : State), clocked s = true ∧ rtOutNow s = true) ∧
    (∃ (s : State), clocked s = true ∧ s.mode.rt = true ∧ fld0 s .modeRtCfg2_t_max ≠ 0 ∧
      msFrames s (fld0 s .modeRtCfg2_t_max) ≤ s.mode.rtFor ∧ s.mode.rtLong = false) ∧
    (∃ (s : State), clocked s = true ∧ formedNow s = true) ∧
    (∃ (s : State), clocked s = true ∧ s.cmd.locks = [] ∧ s.boot.holdBus = false ∧ standby s = false ∧ s.mode.conv = .parked ∧
      startOk s = true) ∧
    (∃ (s : State) (t : State), clocked s = true ∧ s.cmd.locks = [] ∧ s.boot.holdBus = false ∧ convStop s = (t, true)) ∧
    (∃ (s : State), clocked s = true ∧ s.cmd.locks = [] ∧ s.boot.holdBus = false) ∧
    (∃ (s : State) (t : State), clocked s = true ∧ s.cmd.locks = [] ∧ commitBlock s 8 = (t, none)) :=
  ⟨⟨modMo (up) fun x => { x with conv := .precharge, preRun := 100 }, by decide +kernel⟩,
   ⟨modMo (up) fun x => { x with conv := .precharge, inState := 100000000 }, by decide +kernel⟩,
   ⟨modMo (up) fun x => { x with conv := .rampDown, rdRun := 100 }, by decide +kernel⟩,
   ⟨modMo (up) fun x => { x with conv := .rampDown, inState := 100000000 }, by decide +kernel⟩,
   ⟨0, modBc (modMo up fun x => { x with joinRun := [(0, 100)] }) 0 fun x => { x with joining := true }, by decide +kernel⟩,
   ⟨modMo (setFld up .modeReq_rt_en 0 1) fun x => { x with conv := .run, rtOut := 100000 }, by decide +kernel⟩,
   ⟨modMo (up) fun x => { x with rt := true }, by decide +kernel⟩,
   ⟨modMo (setFld up .modeRtCfg2_t_max 0 1) fun x => { x with rt := true, rtFor := 1000 }, by decide +kernel⟩,
   ⟨modMo (setFld up .modeReq_grid 0 2) fun x => { x with conv := .run, formRun := 1000000 }, by decide +kernel⟩,
   ⟨startable, by decide +kernel⟩,
   ⟨modMo (up) fun x => { x with conv := .run }, _, by decide +kernel, by decide +kernel, by decide +kernel, pair_eq (by decide +kernel)⟩,
   ⟨up, by decide +kernel⟩,
   ⟨up, _, by decide +kernel, by decide +kernel, pair_eq (by decide +kernel)⟩⟩

theorem test_meets_AffinageRowsComplete :
    (∃ (s : State), clocked s = true ∧ standby s = false ∧ s.frame.k % 8 = 0 ∧ s.aff.stepAt ≠ s.frame.k + 1) ∧
    (∃ (s : State) (h : _), clocked s = true ∧ epochDue s = some h ∧ s.aff.epochHour ≠ h + 1 ∧ standby s = false ∧ s.aff.busy = false) ∧
    (∃ (s : State), clocked s = true ∧ s.cmd.locks = [] ∧ standby s = false ∧ s.aff.busy = false ∧ s.cellar.mode ≠ .shed) ∧
    (∃ (s : State), clocked s = true ∧ s.cmd.locks = [] ∧ standby s = false ∧ s.aff.busy = false ∧ s.cellar.mode = .shed) ∧
    (∃ (s : State), clocked s = true ∧ s.aff.busy = true ∧ s.cellar.mode ≠ .shed) ∧
    (∃ (s : State), clocked s = true ∧ s.cellar.mode = .shed) ∧
    (∃ (s : State), clocked s = true ∧ s.aff.busy = true) ∧
    (∃ (s : State), clocked s = true ∧ applyDue s = true) ∧
    (∃ (c : Cell) (lack : _) (l : _) (s : State), clocked s = true ∧ (getPlan s c).fit = some (0, lack, l)) ∧
    (∃ (v : _) (s : State), clocked s = true ∧ s.aff.vWant = some v) ∧
    (∃ (v : _) (s : State), clocked s = true ∧ s.aff.vWant = some v ∧ s.aff.attempts + 1 < 3) ∧
    (∃ (v : _) (s : State), clocked s = true ∧ s.aff.vWant = some v ∧ 3 ≤ s.aff.attempts + 1) ∧
    (∃ (s : State), clocked s = true ∧ s.cmd.locks = [] ∧ s.aff.proposed = true) ∧
    (∃ (s : State) (t : State), clocked s = true ∧ s.cmd.locks = [] ∧ commitBlock s 9 = (t, none)) :=
  ⟨⟨up, by decide +kernel⟩,
   ⟨up, 0, by decide +kernel⟩,
   ⟨up, by decide +kernel⟩,
   ⟨modCe up fun x => { x with mode := .shed }, by decide +kernel⟩,
   ⟨modAf (up) fun x => { x with busy := true }, by decide +kernel⟩,
   ⟨modCe up fun x => { x with mode := .shed }, by decide +kernel⟩,
   ⟨modAf (up) fun x => { x with busy := true }, by decide +kernel⟩,
   ⟨modAf (up) fun x => { x with hourPrev := 1, hourNow := 2 }, by decide +kernel⟩,
   ⟨0, 0, [], modPlan up 0 fun x => { x with fit := some (0, 0, []) }, by decide +kernel⟩,
   ⟨9, modAf (up) fun x => { x with vWant := some 9 }, by decide +kernel⟩,
   ⟨9, modAf (up) fun x => { x with vWant := some 9 }, by decide +kernel⟩,
   ⟨9, modAf (up) fun x => { x with vWant := some 9, attempts := 2 }, by decide +kernel⟩,
   ⟨modAf (up) fun x => { x with proposed := true }, by decide +kernel⟩,
   ⟨up, _, by decide +kernel, by decide +kernel, pair_eq (by decide +kernel)⟩⟩

theorem test_meets_RindRowsComplete :
    (∃ (s : State), clocked s = true ∧ msFrames s (max 1 (fld0 s .rindCfg_trip_hold)) ≤ s.frame.k - s.rind.tripK) ∧
    (∃ (s : State), clocked s = true ∧ fld0 s .rindHostwdCfg_period ≠ 0 ∧
      msFrames s (fld0 s .rindHostwdCfg_period) ≤ s.frame.k - s.rind.wdK) ∧
    (∃ (v : Byte) (s : State), clocked s = true ∧ v ≠ 0xA5) ∧
    (∃ (s : State), clocked s = true ∧ flag s .rindCfg_inj_en 0 = true) ∧
    (∃ (w : Fin 36) (v : Word) (s : State) (t : State), clocked s = true ∧
      clearMany s (((below 32 (bitAt v.toNat)).map (32 * w.val + ·)).filter fun n => decide (n < 946)) = (t, false)) ∧
    (∃ (s : State) (t : State), clocked s = true ∧ s.cmd.locks = [] ∧ commitBlock s 10 = (t, none)) :=
  ⟨⟨modFr (up) fun x => { x with k := 100000 }, by decide +kernel⟩,
   ⟨modFr (setFld up .rindHostwdCfg_period 0 1) fun x => { x with k := 100000 }, by decide +kernel⟩,
   ⟨0, up, by decide +kernel⟩,
   ⟨setFld up .rindCfg_inj_en 0 1, by decide +kernel⟩,
   ⟨0, 0, up, _, by decide +kernel, pair_eq (by decide +kernel)⟩,
   ⟨up, _, by decide +kernel, by decide +kernel, pair_eq (by decide +kernel)⟩⟩

theorem test_meets_CellarRowsComplete :
    (∃ (s : State), cellarRuns s = true) ∧
    (∃ (m : _) (s : State), cellarRuns s = true ∧ clocked s = true ∧ baseMedian s = some m) ∧
    (∃ (s : State), cellarRuns s = true ∧ s.cellar.mode = .shutdown ∧ clocked (shutdownPark s) = false) ∧
    (∃ (s : State), cellarRuns s = true ∧ s.cellar.mode = .shutdown ∧ cooled s = true) ∧
    (∃ (s : State) (t : State), clocked s = true ∧ s.cmd.locks = [] ∧ commitBlock s 11 = (t, none)) :=
  ⟨⟨up, by decide +kernel⟩,
   ⟨26214400, modCe up fun x => { x with diode := [some 400, none, none, none], seen := 1 }, by decide +kernel⟩,
   ⟨modCe up fun x => { x with mode := .shutdown }, by decide +kernel⟩,
   ⟨modCe up fun x => { x with mode := .shutdown, tC := 1599 }, by decide +kernel⟩,
   ⟨up, _, by decide +kernel, by decide +kernel, pair_eq (by decide +kernel)⟩⟩

theorem test_meets_CaveRowsComplete :
    (∃ (t : _) (s : State), clocked s = true ∧ s.cave.mode = .post ∧ s.cave.trigK = some t ∧ t + s.cave.postLen < s.frame.k) ∧
    (∃ (x : _) (s : State), clocked s = true ∧ s.cave.persist = some x) :=
  ⟨⟨0, modCv (modFr up fun x => { x with k := 1 }) fun x => { x with mode := .post, trigK := some 0 }, by decide +kernel⟩,
   ⟨(0, 0), modCv (up) fun x => { x with persist := some (0, 0) }, by decide +kernel⟩⟩

theorem test_meets_ClockAndTimeRowsComplete :
    (∃ (s : State), clocked s = true ∧ s.clk.relock = .locking) ∧
    (∃ (s : State), clocked s = true ∧ s.clk.relock = .holding) ∧
    (∃ (s : State), clocked s = true ∧ s.clk.relock = .ready) ∧
    (∃ (s : State), clocked s = true ∧ s.clk.onSafe = false) ∧
    (∃ (s : State), clocked s = true ∧ relocking s = true) ∧
    (∃ (s : State), clocked s = true ∧ s.clk.relock = .failed ∧ flag s .strCfg_auto_sw 0 = false) ∧
    (∃ (s : State), clocked s = true ∧ (∀ n, n < 4 → flag s .strClkoutCfg_sync_en n = false)) ∧
    (∃ (s : State), clocked s = true ∧ (∀ n, n < 4 → flag s .strClkoutCfg_sync_en n = true) ∧ s.clk.onSafe = false) ∧
    (∃ (s : State) (t : State), clocked s = true ∧ s.cmd.locks = [] ∧ commitBlock s 12 = (t, none)) ∧
    (∃ (s : State), clocked s = true ∧ s.cmd.locks = [] ∧ sfld s .stuFrmCfg_frame_len 0 = s.frame.len.val) ∧
    (∃ (s : State), clocked s = true ∧ s.cmd.locks = [] ∧ sfld s .stuFrmCfg_frame_len 0 ≠ s.frame.len.val ∧ allParked s = true) ∧
    (∃ (d : _) (by_ : _) (s : State), clocked s = true ∧ s.stu.step = some (d, by_) ∧ allParked s = true ∧ s.frame.snapped = false ∧
      s.mode.conv ≠ .precharge) ∧
    (∃ (d : _) (by_ : _) (s : State), s.stu.step = some (d, by_)) ∧
    (∃ (o : Fin 4) (e : _) (s : State), clocked s = true ∧ (s.stu.pulses.getD o ⟨0, 0, 0, none, none⟩).next = some e ∧
      e < nowQ s + s.frame.ticks) ∧
    (∃ (o : Fin 4) (e : _) (s : State), clocked s = true ∧ (s.stu.pulses.getD o ⟨0, 0, 0, none, none⟩).till = some e ∧
      e < nowQ s + s.frame.ticks) ∧
    (∃ (i : Fin 2) (rising : _) (s : State), clocked s = true ∧ flag s .stuCapCfg_enable i = true ∧ flag s .stuCapCfg_edge i = !rising) ∧
    (∃ (o : Fin 4) (s : State) (t : State), clocked s = true ∧ s.cmd.locks = [] ∧ armPulse s o = (t, false)) :=
  ⟨⟨modCk (up) fun x => { x with relock := .locking }, by decide +kernel⟩,
   ⟨modCk (up) fun x => { x with relock := .holding }, by decide +kernel⟩,
   ⟨modCk (up) fun x => { x with relock := .ready }, by decide +kernel⟩,
   ⟨modCk (up) fun x => { x with onSafe := false }, by decide +kernel⟩,
   ⟨modCk (up) fun x => { x with relock := .ready }, by decide +kernel⟩,
   ⟨modCk (setFld up .strCfg_auto_sw 0 0) fun x => { x with relock := .failed }, by decide +kernel⟩,
   ⟨(List.range 4).foldl (fun t n => setFld t .strClkoutCfg_sync_en n 0) up, by decide +kernel⟩,
   ⟨(List.range 4).foldl (fun t n => setFld t .strClkoutCfg_sync_en n 1) (modCk up fun x => { x with onSafe := false }),
     by decide +kernel⟩,
   ⟨up, _, by decide +kernel, by decide +kernel, pair_eq (by decide +kernel)⟩,
   ⟨up, by decide +kernel⟩,
   ⟨setSfld up .stuFrmCfg_frame_len 0 1 none, by decide +kernel⟩,
   ⟨1, false, modSt up fun x => { x with step := some (1, false) }, by decide +kernel⟩,
   ⟨1, false, modSt up fun x => { x with step := some (1, false) }, by decide +kernel⟩,
   ⟨0, 0, modSt up fun x => { x with pulses := [⟨0, 0, 0, some 0, none⟩] }, by decide +kernel⟩,
   ⟨0, 0, modSt up fun x => { x with pulses := [⟨0, 0, 0, none, some 0⟩] }, by decide +kernel⟩,
   ⟨0, true, setFld up .stuCapCfg_enable 0 1, by decide +kernel⟩,
   ⟨0, setFld (setFld up .stuTpWidth_width 0 32) .stuTpPeriod_period 0 33, _, by decide +kernel, by decide +kernel,
     pair_eq (by decide +kernel)⟩⟩

theorem test_meets_PtpRowsComplete :
    (∃ (p : Fin 2) (l : _) (m : _) (t : _) (u : State) (s : State), clocked s = true ∧ ptpFrameIn s p l = some m ∧
      takeStamp s p = (some t, u) ∧ ptpTakes u p 0 44 m = true ∧ fromMaster u p m = true ∧ -4 ≤ ptpInterval m ∧ ptpInterval m ≤ 1 ∧
      twoStep m = true) ∧
    (∃ (p : Fin 2) (l : _) (m : _) (t : _) (u : State) (s : State), clocked s = true ∧ ptpFrameIn s p l = some m ∧
      takeStamp s p = (some t, u) ∧ ptpTakes u p 0 44 m = true ∧ fromMaster u p m = true ∧ -4 ≤ ptpInterval m ∧ ptpInterval m ≤ 1 ∧
      twoStep m = false) ∧
    (∃ (p : Fin 2) (l : _) (m : _) (t : _) (c : _) (i : _) (s : State), clocked s = true ∧ ptpFrameIn s p l = some m ∧
      ptpTakes s p 8 44 m = true ∧ fromMaster s p m = true ∧ s.stu.sync2.getD p none = some (ptpSeq m, t, c, i)) ∧
    (∃ (p : Fin 2) (l : _) (m : _) (s : State), clocked s = true ∧ ptpFrameIn s p l = some m ∧ ptpTakes s p 0xB 64 m = true ∧
      beAt m 61 2 < 255 ∧ s.stu.masters.getD p none = none) ∧
    (∃ (p : Fin 2) (l : _) (m : _) (t : _) (u : State) (s : State), clocked s = true ∧ ptpFrameIn s p l = some m ∧
      takeStamp s p = (some t, u) ∧ ptpTakes u p 2 54 m = true) ∧
    (∃ (p : Fin 2) (l : _) (m : _) (t4 : _) (t1 : _) (r : _) (u : State) (s : State), clocked s = true ∧ ptpFrameIn s p l = some m ∧
      takeStamp s p = (some t4, u) ∧ ptpTakes u p 3 54 m = true ∧ fld0 u .stuPtpCfg_profile = 0 ∧ reqFor u p m = some (t1, r) ∧
      twoStep m = true) ∧
    (∃ (p : Fin 2) (l : _) (m : _) (t1 : _) (t4 : _) (t2 : _) (s : State), clocked s = true ∧ ptpFrameIn s p l = some m ∧
      ptpTakes s p 0xA 54 m = true ∧ fld0 s .stuPtpCfg_profile = 0 ∧ reqFor s p m = some (some t1, some (t4, t2))) ∧
    (∃ (p : Fin 2) (l : _) (m : _) (t3 : _) (r : _) (d : _) (s : State), clocked s = true ∧ ptpFrameIn s p l = some m ∧
      ptpTakes s p 9 54 m = true ∧ fld0 s .stuPtpCfg_profile = 1 ∧ fromMaster s p m = true ∧ reqFor s p m = some (some t3, r) ∧
      s.stu.syncDiff = some d) ∧
    (∃ (p : Fin 2) (s : State), clocked s = true ∧ ptpPortOn s p = true ∧ fld0 s .stuPtpCfg_profile = 0) ∧
    (∃ (s : State), clocked s = true ∧ flag s .stuPtpCfg_enable 0 = true ∧ (s.stu.quality = .acquiring ∨ s.stu.quality = .free)) :=
  ⟨⟨0, frame0 (msg 0 2 44), msg 0 2 44, 5, _, slave1, by decide +kernel, by decide +kernel, pair_eq1 (by decide +kernel),
     by decide +kernel⟩,
   ⟨0, frame0 (msg 0 0 44), msg 0 0 44, 5, _, slave1, by decide +kernel, by decide +kernel, pair_eq1 (by decide +kernel),
     by decide +kernel⟩,
   ⟨0, frame0 (msg 8 0 44), msg 8 0 44, 5, 0, 0, slave1, by decide +kernel⟩,
   ⟨0, frame0 (msg 0xB 0 64), msg 0xB 0 64, ptpOn, by decide +kernel⟩,
   ⟨0, frame0 (msg 2 0 54), msg 2 0 54, 5, _, slave1, by decide +kernel, by decide +kernel, pair_eq1 (by decide +kernel),
     by decide +kernel⟩,
   ⟨0, frame0 (reply1 3 2), reply1 3 2, 5, some 3, none, _, slave1, by decide +kernel, by decide +kernel, pair_eq1 (by decide +kernel),
     by decide +kernel⟩,
   ⟨0, frame0 (reply1 0xA 0), reply1 0xA 0, 3, 4, 5, modSt ptpOn fun x => { x with req := [some (0, some 3, some (4, 5)), none] },
     by decide +kernel⟩,
   ⟨0, frame1 (reply1 9 0), reply1 9 0, 3, none, 1, modSt (setFld slave1 .stuPtpCfg_profile 0 1) fun x => { x with syncDiff := some 1 },
     by decide +kernel⟩,
   ⟨0, ptpOn, by decide +kernel⟩,
   ⟨ptpOn, by decide +kernel⟩⟩

set_option maxRecDepth 100000 in
theorem test_meets_PowerRowsComplete :
    (∃ (s : State), clocked s = true ∧ s.power.idleReq = true ∧ s.power.mode = .run) ∧
    (∃ (n : _) (s : State), clocked s = true ∧ s.power.exitReq = some (n + 1) ∧ n + 1 ≠ 0xFF ∧ s.power.mode = .idle) ∧
    (∃ (s : State), waxRuns s = true ∧ clocked s = true ∧ s.power.entering = true) ∧
    (∃ (s : State), waxRuns s = true ∧ s.power.mode = .cure ∧
      (s.power.wakeStep ≠ some 1 ∨ s.power.attempts ≠ 0 ∨ s.power.wakeFail = true) ∧ bitAt s.power.wakeCfg 0 = true) ∧
    (∃ (s : State), waxRuns s = true ∧ s.power.mode = .cure ∧
      (s.power.wakeStep ≠ some 1 ∨ s.power.attempts ≠ 0 ∨ s.power.wakeFail = true) ∧ s.power.alarm ≠ 0) ∧
    (∃ (s : State), waxRuns s = true ∧ s.power.mode = .cure ∧
      (s.power.wakeStep ≠ some 1 ∨ s.power.attempts ≠ 0 ∨ s.power.wakeFail = true) ∧ bitAt s.power.wakeCfg 1 = true) ∧
    (∃ (s : State) (p : Fin 2) (bytes : List Byte), waxRuns s = true ∧ s.power.mode = .cure ∧
      (s.power.wakeStep ≠ some 1 ∨ s.power.attempts ≠ 0 ∨ s.power.wakeFail = true) ∧ bitAt s.power.wakeCfg (2 + p) = true ∧
      wakeFrameOk s p bytes = true) ∧
    (∃ (s : State) (i : Fin 12), waxRuns s = true ∧ s.power.mode = .cure ∧
      (s.power.wakeStep ≠ some 1 ∨ s.power.attempts ≠ 0 ∨ s.power.wakeFail = true) ∧ bitAt s.power.wakeCfg (4 + i) = true) ∧
    (∃ (s : State), s.power.mode = .cure ∧ s.power.wakeStep = some 1 ∧ s.power.attempts = 0 ∧ s.power.wakeFail = false) ∧
    (∃ (s : State), waxRuns s = true ∧ s.power.mode = .cure ∧ s.power.wakeStep = some 1) ∧
    (∃ (s : State), waxRuns s = true ∧ s.power.wakeStep = some 2) ∧
    (∃ (s : State), waxRuns s = true ∧ s.power.mode = .cure ∧ s.power.wakeStep = some 3) ∧
    (∃ (s : State), waxRuns s = true ∧ s.power.mode = .cure) ∧
    (∃ (s : State), waxRuns s = true) ∧
    (∃ (s : State), waxRuns s = true ∧ s.power.mode = .cure) ∧
    (∃ (s : State), waxRuns s = true ∧ s.power.mode = .cure ∧ s.power.holdOn = true ∧
      (validDiodes s).all (fun (_, v) => decide (v < 1600)) = true) :=
  ⟨⟨modPw (up) fun x => { x with idleReq := true }, by decide +kernel⟩,
   ⟨0, modPw (up) fun x => { x with exitReq := some 1, mode := .idle }, by decide +kernel⟩,
   ⟨modPw up fun x => { x with entering := true }, by decide +kernel⟩,
   ⟨modPw cure1 fun x => { x with wakeCfg := 1 }, by decide +kernel⟩,
   ⟨modPw (cure1) fun x => { x with alarm := 1 }, by decide +kernel⟩,
   ⟨modPw cure1 fun x => { x with wakeCfg := 2 }, by decide +kernel⟩,
   ⟨modPw cure1 fun x => { x with wakeCfg := 4 }, 0, wakeB, by decide +kernel⟩,
   ⟨modPw cure1 fun x => { x with wakeCfg := 16 }, 0, by decide +kernel⟩,
   ⟨modPw cure1 fun x => { x with wakeStep := some 1 }, by decide +kernel⟩,
   ⟨modPw (cure1) fun x => { x with wakeStep := some 1 }, by decide +kernel⟩,
   ⟨modPw (cure1) fun x => { x with wakeStep := some 2 }, by decide +kernel⟩,
   ⟨modPw (cure1) fun x => { x with wakeStep := some 3 }, by decide +kernel⟩,
   ⟨cure1, by decide +kernel⟩,
   ⟨up, by decide +kernel⟩,
   ⟨cure1, by decide +kernel⟩,
   ⟨modPw (cure1) fun x => { x with holdOn := true }, by decide +kernel⟩⟩

theorem test_meets_ResetAndBootRowsComplete :
    (∃ (s : State), s.boot.rstLow = false ∧ s.boot.porstLow = false) ∧
    (∃ (s : State), s.boot.rstLow = false ∧ s.boot.porstLow = true) ∧
    (∃ (s : State), s.boot.rstLow = true ∧ s.boot.porstLow = false ∧ s.boot.aonUp = true) ∧
    (∃ (s : State), s.boot.porstLow = false) ∧
    (∃ (s : State), s.boot.porstLow = true ∧ s.boot.rstLow = false ∧ s.boot.aonUp = true) ∧
    (∃ (s : State), s.boot.aonUp = false) ∧
    (∃ (s : State), clocked s = true ∧ s.boot.sampling = true) ∧
    (∃ (s : State), clocked s = true ∧ s.boot.stage = 0 ∧ s.boot.sampling = false ∧ s.clk.absent.getLsbD 0 = true) ∧
    (∃ (s : State), clocked s = true ∧ s.boot.stage = 2 ∧ bootSrc s = 0) ∧
    (∃ (v : _) (n : _) (fb : _) (s : State), clocked s = true ∧ s.boot.stage = 2 ∧ bootSrc s = 0 ∧ chooseSlot s = some (v, n, fb)) ∧
    (∃ (s : State), clocked s = true ∧ 1 < s.boot.twinRetry ∧ s.boot.twinWords = [] ∧ peerSeen s = false) ∧
    (∃ (t : State) (s : State), clocked s = true ∧ s.boot.twinRetry ≠ 0 ∧ s.boot.twinWords = [] ∧ peerSeen s = true ∧
      commitBlock s 7 = (t, none)) ∧
    (∃ (s : State), clocked s = true ∧ autoStartOk s = true) ∧
    (∃ (s : State), clocked s = true ∧ s.cmd.locks = [] ∧ s.boot.stage = 2 ∧ bootSrc s ≠ 0) :=
  ⟨⟨up, by decide +kernel⟩,
   ⟨modBo (up) fun x => { x with porstLow := true }, by decide +kernel⟩,
   ⟨modBo (up) fun x => { x with rstLow := true }, by decide +kernel⟩,
   ⟨up, by decide +kernel⟩,
   ⟨modBo (up) fun x => { x with porstLow := true }, by decide +kernel⟩,
   ⟨modBo (up) fun x => { x with aonUp := false }, by decide +kernel⟩,
   ⟨modBo (up) fun x => { x with sampling := true }, by decide +kernel⟩,
   ⟨modCk (modBo up fun x => { x with stage := 0, sampling := false }) fun x => { x with absent := 1 }, by decide +kernel⟩,
   ⟨modBo (up) fun x => { x with stage := 2 }, by decide +kernel⟩,
   ⟨7, 0, true, modBo (flashed) fun x => { x with stage := 2 }, by decide +kernel⟩,
   ⟨modBo up fun x => { x with twinRetry := 2 }, by decide +kernel⟩,
   ⟨_, modBo (peer1 up) fun x => { x with twinRetry := 1 }, by decide +kernel, by decide +kernel, by decide +kernel, by decide +kernel,
     pair_eq (by decide +kernel)⟩,
   ⟨modBo { startable with curd := { startable.curd with pins := 0x10000 } } fun x => { x with holdBus := true }, by decide +kernel⟩,
   ⟨modBo (up) fun x => { x with stage := 2, straps := 1 }, by decide +kernel⟩⟩

theorem test_meets_RegisterRowsComplete :
    ∃ (s : State), clocked s = true ∧ spiOn s = true :=
  ⟨spi1, by decide +kernel⟩

theorem test_meets_TransportRowsComplete :
    (∃ (q : Fin 32) (v : Word) (s : State), clocked s = true ∧ bitsAt v.toNat 0 12 < queueSize s q) ∧
    (∃ (q : Fin 32) (v : Word) (s : State), clocked s = true ∧ bitsAt v.toNat 0 12 < queueSize s q ∧
      (bitsAt v.toNat 0 12 + queueSize s q - fld s .cmdCqHead_head q) % queueSize s q ≤ ((getQ s q).cqTail + queueSize s q - fld s .cmdCqHead_head q) % queueSize s q) ∧
    (∃ (q : Fin 32) (e : _) (s : State), clocked s = true ∧ mayFetch s q = true ∧ bitAt (byteAt (padB 65 e) 2) 1 = false ∧
      bitAt (byteAt e 2) 1 = false ∧
      (packetOf 0 (fieldAt (padB 65 e) 56 9) (padB 65 e) ((padB (fieldAt (padB 65 e) 6 2) (((padB 65 e).drop 16).take 40)).take (fieldAt (padB 65 e) 6 2 / 4 * 4))).2.queue.toNat = q.val) ∧
    (∃ (q : Fin 32) (e : _) (s : State), clocked s = true ∧ mayFetch s q = true ∧ bitAt (byteAt e 2) 1 = true ∧
      vatStarving s (hostDma q) = true) ∧
    (∃ (p : Fin 2) (l : _) (a : _) (s : State), clocked s = true ∧ ethPayload s 0x0806 l = some a ∧ fld s .cmdEthIp_ip p ≠ 0 ∧
      28 ≤ a.length ∧ a.take 8 = netB 2 1 ++ netB 2 0x0800 ++ netB 1 6 ++ netB 1 4 ++ netB 2 1 ∧ beAt a 24 4 = fld s .cmdEthIp_ip p) ∧
    (∃ (p : Fin 2) (l : _) (d : _) (s : State), clocked s = true ∧ ethPayload s 0x0800 l = some d ∧ (fld s .cmdEthIp_ip p) ≠ 0 ∧
      byteAt d 0 = 0x45 ∧ 28 ≤ (beAt d 2 2) ∧ (beAt d 2 2) ≤ d.length ∧ beAt d 6 2 % 0x4000 = 0 ∧ byteAt d 9 = 1 ∧ inetSum (d.take 20) = 0 ∧
      beAt d 16 4 = (fld s .cmdEthIp_ip p) ∧ byteAt ((d.take (beAt d 2 2)).drop 20) 0 = 8 ∧ byteAt ((d.take (beAt d 2 2)).drop 20) 1 = 0 ∧
      inetSum ((fun (x : List Byte) => if x.length % 2 = 0 then x else x ++ [0]) ((d.take (beAt d 2 2)).drop 20)) = 0) ∧
    (∃ (l : _) (s : State), clocked s = true ∧ spiServes s = true ∧ executing s (spiQueue s) = false ∧ (getQ s (spiQueue s)).ready = [] ∧
      (getQ s (spiQueue s)).spi = none ∧ (packetOf 2 0 l (l.drop 16)).2.queue.toNat = spiQueue s) ∧
    (∃ (n : _) (d : _) (s : State), clocked s = true ∧ spiOn s = true ∧ (getQ s (spiQueue s)).spi = some d ∧ 17 ≤ n) ∧
    (∃ (n : _) (s : State), clocked s = true ∧ spiOn s = true ∧ (getQ s (spiQueue s)).spi = none ∧ n < 17) ∧
    (∃ (q : Fin 32) (w : _) (key : _) (hold : _) (l : _) (s : State), clocked s = true ∧ lockWait s q = some w ∧ w.wait = .lock key hold ∧
      otherLock s q key = some l) ∧
    (∃ (q : Fin 32) (d : Fin 4) (n : _) (l : _) (s : State), clocked s = true ∧
      (s.cmd.locks.find? fun l => l.queue = q.val && l.key = (⟨d.val, n⟩ : LockKey)) = some l ∧
      l.since + l.hold * 4000000 < nowQ s + s.frame.ticks ∧ executing s q = false) :=
  ⟨⟨0, 0, up, by decide +kernel⟩,
   ⟨0, 0, up, by decide +kernel⟩,
   ⟨0, zeroB 64, setFld up .cmdSqTail_tail 0 1, by decide +kernel⟩,
   ⟨0, [0, 0, 2], { setFld up .cmdSqTail_tail 0 1 with cave := { up.cave with vat := [(7, { VatReq.zero with starving := true })] } },
     by decide +kernel⟩,
   ⟨0, zeroB 12 ++ netB 2 0x0806 ++ arpB, arpB, setFld up .cmdEthIp_ip 0 1, by decide +kernel⟩,
   ⟨0, zeroB 12 ++ netB 2 0x0800 ++ echoB, echoB, setFld up .cmdEthIp_ip 0 1, by decide +kernel⟩,
   ⟨zeroB 16, spi1, by decide +kernel⟩,
   ⟨17, [], modQ spi1 0 fun x => { x with spi := some [] }, by decide +kernel⟩,
   ⟨16, spi1, by decide +kernel⟩,
   ⟨0, ⟨0, 0x0C01, pk [], .lock ⟨0, 0⟩ 0⟩, ⟨0, 0⟩, 0, ⟨1, ⟨0, 0⟩, 0, 0⟩,
     { locked1 with cmd := { locked1.cmd with waits := [⟨0, 0x0C01, pk [], .lock ⟨0, 0⟩ 0⟩] } }, by decide +kernel⟩,
   ⟨1, 0, 0, ⟨1, ⟨0, 0⟩, 0, 0⟩, locked1, by decide +kernel⟩⟩

theorem test_meets_SysAndCfgCommandsComplete :
    (∃ (s : State) (t : State) (p : _), startOf s { op := 0x0101, kinds := anyScope } p = some t) ∧
    (∃ (s : State) (t : State) (p : _), startOf s { op := 0x0102 } p = some t ∧ (identB t).length ≤ replySpace t p) ∧
    (∃ (s : State) (t : State) (p : _), startOf s { op := 0x0103 } p = some t ∧ (statusB t).length ≤ replySpace t p) ∧
    (∃ (s : State) (t : State) (p : _), startOf s { op := 0x0104, lenOk := words 1 } p = some t ∧ pw p 0 = 0x5A5A ∧
      (t.mode.conv = .parked ∨ t.mode.conv = .safe)) ∧
    (∃ (s : State) (t : State) (p : _), startOf s { op := 0x0105 } p = some t) ∧
    (∃ (s : State) (t : State) (p : _), startOf s { op := 0x0106, lenOk := words 2 } p = some t ∧ pw p 1 ≤ 65536 ∧
      pw p 0 + pw p 1 ≤ flashSize) ∧
    (∃ (s : State) (t : State) (p : _), startOf s { op := 0x0107, lenOk := fun l => decide (2 ≤ l.length) && decide (l.length ≤ 1026) } p = some t ∧
      t.mode.conv = .parked ∧ pw p 0 ≤ 1 ∧ pw p 1 + 4 * (p.params.length - 2) ≤ 0x800000) ∧
    (∃ (s : State) (t : State) (p : _), startOf s { op := 0x0108, lenOk := words 2 } p = some t ∧ pw p 0 ≤ 1) ∧
    (∃ (s : State) (t : State) (p : _) (u : State), startOf s { op := 0x0201, lenOk := words 1, targets := stationTarget, lockout := fun l => (l.getD 0 0) == 10, holdBus := fun l => let n := (l.getD 0 0).toNat; decide (5 ≤ n) && decide (n ≤ 9) } p = some t ∧
      blockCode (pw p 0) = true ∧ commitBlock t (pw p 0) = (u, none) ∧ (pw p 0 ≠ 1 ∨ u.frame.lenPending = none)) ∧
    (∃ (s : State) (t : State) (p : _) (u : State), startOf s { op := 0x0201, lenOk := words 1, targets := stationTarget, lockout := fun l => (l.getD 0 0) == 10, holdBus := fun l => let n := (l.getD 0 0).toNat; decide (5 ≤ n) && decide (n ≤ 9) } p = some t ∧
      blockCode (pw p 0) = true ∧ commitBlock t (pw p 0) = (u, none) ∧ pw p 0 = 1 ∧ u.frame.lenPending ≠ none) ∧
    (∃ (s : State) (t : State) (u : State) (p : _), startOf s { op := 0x0202, targets := stationTarget } p = some t ∧ bankBusy t = false ∧
      bankCommit t = (u, true)) ∧
    (∃ (s : State) (t : State) (p : _), startOf s { op := 0x0203, targets := stationTarget } p = some t ∧ bankBusy t = false) ∧
    (∃ (s : State) (t : State) (p : _), startOf s { op := 0x0204, lenOk := words 1, targets := stationTarget } p = some t ∧
      blockCode (pw p 0) = true) ∧
    (∃ (s : State) (t : State) (p : _), startOf s { op := 0x0205 } p = some t) ∧
    (∃ (s : State) (t : State) (p : _), startOf s { op := 0x0206, targets := stationTarget } p = some t) ∧
    (∃ (s : State) (t : State) (p : _), startOf s { op := 0x0207 } p = some t) ∧
    (∃ (s : State) (t : State) (p : _), startOf s { op := 0x0208 } p = some t) :=
  ⟨⟨up, _, pk [], got_eq (by decide +kernel)⟩,
   ⟨up, _, pk [], got_eq (by decide +kernel), by decide +kernel⟩,
   ⟨up, _, pk [], got_eq (by decide +kernel), by decide +kernel⟩,
   ⟨up, _, pk [0x5A5A], got_eq (by decide +kernel), by decide +kernel⟩,
   ⟨up, _, pk [], got_eq (by decide +kernel)⟩,
   ⟨up, _, pk [0, 65536], got_eq (by decide +kernel), by decide +kernel, by show 65536 ≤ flashSize; unfold flashSize; omega⟩,
   ⟨up, _, pk [1, 0], got_eq (by decide +kernel), by decide +kernel⟩,
   ⟨up, _, pk [1, 0], got_eq (by decide +kernel), by decide +kernel⟩,
   ⟨up, _, pk [4], _, got_eq (by decide +kernel), by decide +kernel, pair_eq (by decide +kernel), by decide +kernel⟩,
   ⟨setSfld up .stuFrmCfg_frame_len 0 1 none, _, pk [1], _, got_eq (by decide +kernel), by decide +kernel, pair_eq (by decide +kernel),
     by decide +kernel⟩,
   ⟨up, _, _, pk [], got_eq (by decide +kernel), by decide +kernel, pair_eq (by decide +kernel)⟩,
   ⟨up, _, pk [], got_eq (by decide +kernel), by decide +kernel⟩,
   ⟨up, _, pk [1], got_eq (by decide +kernel), by decide +kernel⟩,
   ⟨up, _, pk [], got_eq (by decide +kernel)⟩,
   ⟨up, _, pk [], got_eq (by decide +kernel)⟩,
   ⟨up, _, pk [], got_eq (by decide +kernel)⟩,
   ⟨up, _, pk [], got_eq (by decide +kernel)⟩⟩

theorem test_meets_ParamAndPointCommandsComplete :
    (∃ (s : State) (t : State) (u : State) (l : _) (p : _), startOf s { op := 0x0301, lenOk := counted 1 1024 1 } p = some t ∧
      readParams t (restWords p) 1 [] = .ok (l, u) ∧ l.length ≤ replySpace t p ∧ l.length ≤ replySpace u p) ∧
    (∃ (s : State) (t : State) (p : _), startOf s { op := 0x0302, lenOk := counted 1 512 2, lockout := fun l => (pairs ((l.drop 1).map (·.toNat))).any fun x => rindClassPid x.1, targets := fun s p => (pairs (restWords p)).flatMap fun x => pidKey s (pidOf x.1) } p = some t ∧
      firstFail (writeCheck t) (pairs (restWords p)) 0 = none) ∧
    (∃ (s : State) (t : State) (p : _), startOf s { op := 0x0303, lenOk := words 1 } p = some t ∧ pidOf (pw p 0) ≠ .bad ∧
      16 ≤ replySpace (paramFacts t (pidOf (pw p 0))).2 p) ∧
    (∃ (s : State) (t : State) (p : _), startOf s { op := 0x0310, lenOk := counted 1 2048 1 } p = some t ∧
      (∀ pa ∈ restWords p, pa < 299008) ∧ ((restWords p).flatMap (pointB t)).length ≤ replySpace t p) ∧
    (∃ (s : State) (t : State) (p : _), startOf s { op := 0x0311, lenOk := words 2 } p = some t ∧ 1 ≤ pw p 1 ∧ pw p 1 ≤ 16384 ∧
      pw p 0 + pw p 1 ≤ 299008 ∧ (((List.range (pw p 1)).map (pw p 0 + ·)).flatMap (pointB t)).length ≤ replySpace t p) ∧
    (∃ (s : State) (t : State) (p : _), startOf s { op := 0x0312, lenOk := counted 1 256 2, targets := fun _ p => (pairs (restWords p)).map fun x => ptKey x.1 } p = some t ∧
      firstFail (pointCheck t) (pairs (restWords p)) 0 = none) ∧
    (∃ (s : State) (t : State) (p : _), startOf s { op := 0x0313, lenOk := words 1 } p = some t ∧ pw p 0 < 299008 ∧
      (pointDescB (getDesc t (descIdx (pw p 0))) (writerOf (pw p 0))).length ≤ replySpace t p) ∧
    (∃ (s : State) (t : State) (p : _), startOf s { op := 0x0314, lenOk := words 5, targets := fun _ p => [ptKey (pw p 0)] } p = some t ∧
      pw p 0 < 299008 ∧ fieldAt (paramBytes p 1) 8 2 / 1024 % 8 = writerOf (pw p 0) ∧ descBytesOk (paramBytes p 1) = true) ∧
    (∃ (s : State) (t : State) (p : _), startOf s { op := 0x0315, lenOk := words 1 } p = some t ∧ pw p 0 < 299008 ∧
      calibrated (pw p 0) = true) ∧
    (∃ (s : State) (t : State) (p : _), startOf s { op := 0x0316, lenOk := words 2, targets := fun _ p => [ptKey (pw p 0)] } p = some t ∧
      pw p 0 < 299008 ∧ calibrated (pw p 0) = true) ∧
    (∃ (s : State) (t : State) (p : _), startOf s { op := 0x0317 } p = some t) :=
  ⟨⟨up, _, _, _, pk [1, 0], got_eq (by decide +kernel), rfl, by decide +kernel⟩,
   ⟨up, _, pk [1, 4, 0], got_eq (by decide +kernel), by decide +kernel⟩,
   ⟨up, _, pk [0], got_eq (by decide +kernel), by decide +kernel⟩,
   ⟨up, _, pk [1, 299007], got_eq (by decide +kernel), by decide +kernel⟩,
   ⟨up, _, pk [299007, 1], got_eq (by decide +kernel), by decide +kernel⟩,
   ⟨up, _, pk [1, 299007, 0], got_eq (by decide +kernel), by decide +kernel⟩,
   ⟨up, _, pk [299007], got_eq (by decide +kernel), by decide +kernel⟩,
   ⟨up, _, pk [299007, 0x7FFF8000, 0, 0x1C00, 0], got_eq (by decide +kernel), by decide +kernel⟩,
   ⟨up, _, pk [0], got_eq (by decide +kernel), by decide +kernel⟩,
   ⟨up, _, pk [0, 0], got_eq (by decide +kernel), by decide +kernel⟩,
   ⟨up, _, pk [], got_eq (by decide +kernel)⟩⟩

theorem test_meets_CellCommandsComplete :
    (∃ (s : State) (t : State) (p : _), startOf s { op := 0x0401, kinds := [.cell] } p = some t ∧
      (cellInfoB t (scopeNum t p)).length ≤ replySpace t p) ∧
    (∃ (s : State) (t : State) (p : _), startOf s { op := 0x0402, kinds := [.cell], lenOk := words 1 } p = some t ∧ 1 ≤ bulkLen (pw p 0) ∧
      bulkLen (pw p 0) ≤ 64 ∧ bulkLen (pw p 0) ≤ replySpace t p) ∧
    (∃ (s : State) (t : State) (p : _), startOf s { op := 0x0403, kinds := [.cell], lenOk := bulkWords, targets := headerKey } p = some t ∧
      1 ≤ bulkLen (pw p 0) ∧ bulkLen (pw p 0) ≤ 64 ∧ (bitsAt (pw p 0) 0 24 + bulkLen (pw p 0) ≤ 0x100 ∨ 0x120 ≤ bitsAt (pw p 0) 0 24)) ∧
    (∃ (s : State) (t : State) (p : _), startOf s { op := 0x0404, kinds := [.branch], standby := true, targets := headerKey } p = some t ∧
      brParked t (scopeNum t p) = true ∧ discBusy t (scopeNum t p) = false) ∧
    (∃ (s : State) (t : State) (p : _), startOf s { op := 0x0405 } p = some t) ∧
    (∃ (s : State) (t : State) (p : _), startOf s { op := 0x0410, kinds := [.cell], lenOk := words 1, targets := headerKey } p = some t ∧
      pw p 0 ≤ 2) ∧
    (∃ (s : State) (t : State) (p : _), startOf s { op := 0x0411, kinds := [.cell], lenOk := eyeWords } p = some t ∧ pw p 0 ≤ 1 ∧
      eyePartOk (eyePart p) = true ∧ (eyePart p).2 ≤ replySpace t p ∧ (eyePart p).2 ≠ 0) ∧
    (∃ (s : State) (t : State) (p : _), startOf s { op := 0x0412, kinds := [.cell], standby := true, targets := headerKey } p = some t) ∧
    (∃ (s : State) (t : State) (p : _), startOf s { op := 0x0413, kinds := [.cell], standby := true, targets := headerKey } p = some t ∧
      brParked t (scopeNum t p / 48) = true ∧ (getCtl t (scopeNum t p)).role = .bypassed) :=
  ⟨⟨inMap, _, cellPk [], got_eq (by decide +kernel), by decide +kernel⟩,
   ⟨inMap, _, cellPk [0x40000000], got_eq (by decide +kernel), by decide +kernel⟩,
   ⟨inMap, _, cellPk [0x01000000, 0], got_eq (by decide +kernel), by decide +kernel⟩,
   ⟨up, _, { pk [] with scope := 0xE000 }, got_eq (by decide +kernel), by decide +kernel⟩,
   ⟨up, _, pk [], got_eq (by decide +kernel)⟩,
   ⟨inMap, _, cellPk [2], got_eq (by decide +kernel), by decide +kernel⟩,
   ⟨inMap, _, cellPk [1, 0, 64], got_eq (by decide +kernel), by decide +kernel⟩,
   ⟨inMap, _, cellPk [], got_eq (by decide +kernel)⟩,
   ⟨modCtl inMap 0 fun x => { x with role := .bypassed }, _, cellPk [], got_eq (by decide +kernel), by decide +kernel⟩⟩

theorem test_meets_ConvAndModeCommandsComplete :
    (∃ (s : State) (t : State) (p : _), startOf s { op := 0x0501, lockout := always, standby := true, holdBus := always, targets := headerKey } p = some t ∧
      t.boot.holdBus = false ∧ standby t = false ∧ t.mode.conv = .parked ∧ startOk t = true) ∧
    (∃ (s : State) (t : State) (u : State) (p : _), startOf s { op := 0x0502, standby := true } p = some t ∧ hostStop t = (u, true)) ∧
    (∃ (s : State) (t : State) (u : State) (p : _), startOf s { op := 0x0503, kinds := [.branch], lockout := always, standby := true, holdBus := always, targets := headerKey } p = some t ∧
      (t.mode.conv = .run ∧ class2Live t (scopeNum t p) = true → False) ∧ hostRestart t (scopeNum t p) = (u, true)) ∧
    (∃ (s : State) (t : State) (u : State) (p : _), startOf s { op := 0x0504, lenOk := words 1, targets := headerKey } p = some t ∧
      pw p 0 ≤ 11 ∧ tripClear t (pw p 0) = (u, true)) ∧
    (∃ (s : State) (t : State) (p : _), startOf s { op := 0x0505, lenOk := words 3, targets := headerKey } p = some t ∧ pw p 0 ≤ 11 ∧
      pw p 1 < 2 ^ 24 ∧ pw p 2 < 2 ^ 28) ∧
    (∃ (s : State) (t : State) (p : _), startOf s { op := 0x0506, lenOk := words 2, targets := headerKey } p = some t) ∧
    (∃ (s : State) (t : State) (p : _), startOf s { op := 0x0507, standby := true, targets := headerKey } p = some t ∧
      t.twin.role = .primary ∧ t.twin.peerReady = true ∧ t.twin.swapAt = none) ∧
    (∃ (s : State) (t : State) (p : _), startOf s { op := 0x0508, standby := true, targets := headerKey } p = some t ∧
      calAllowed t = true) ∧
    (∃ (s : State) (t : State) (p : _), startOf s { op := 0x0601, lenOk := words 2, targets := stationTarget } p = some t ∧
      pw p 0 < 2 ^ 7 ∧ pw p 1 < 2 ^ 4) ∧
    (∃ (s : State) (t : State) (p : _), startOf s { op := 0x0602, lenOk := words 2, targets := stationTarget } p = some t ∧ pw p 0 ≤ 11 ∧
      pw p 1 - (pw p 1 &&& RegName.mask .modeLvgCfg fun _ => true) = 0) ∧
    (∃ (s : State) (t : State) (p : _) (u : State), startOf s { op := 0x0603, holdBus := always, targets := stationTarget } p = some t ∧
      commitBlock t 8 = (u, none)) ∧
    (∃ (s : State) (t : State) (p : _), startOf s { op := 0x0604 } p = some t ∧
      (regsB t [(.modeSts, 0), (.modeEff, 0), (.modeLvEff, 0)]).length ≤ replySpace t p) :=
  ⟨⟨startable, _, pk [], got_eq (by decide +kernel), by decide +kernel⟩,
   ⟨modMo (up) fun x => { x with conv := .rampDown }, _, _, pk [], got_eq (by decide +kernel), pair_eq (by decide +kernel)⟩,
   ⟨modBc (modMo inMap fun x => { x with conv := .run }) 0 fun x => { x with classTwo := true }, _, _, { pk [] with scope := 0xE000 },
     got_eq (by decide +kernel), by decide +kernel, pair_eq (by decide +kernel)⟩,
   ⟨up, _, _, pk [11], got_eq (by decide +kernel), by decide +kernel, pair_eq (by decide +kernel)⟩,
   ⟨up, _, pk [11, 0xFFFFFF, 0xFFFFFFF], got_eq (by decide +kernel), by decide +kernel⟩,
   ⟨up, _, pk [0xFFF, 0], got_eq (by decide +kernel)⟩,
   ⟨modTw primary1 fun x => { x with peerReady := true }, _, pk [], got_eq (by decide +kernel), by decide +kernel⟩,
   ⟨primary1, _, pk [], got_eq (by decide +kernel), by decide +kernel⟩,
   ⟨up, _, pk [0x7F, 0xF], got_eq (by decide +kernel), by decide +kernel⟩,
   ⟨up, _, pk [11, 0], got_eq (by decide +kernel), by decide +kernel⟩,
   ⟨up, _, pk [], _, got_eq (by decide +kernel), pair_eq (by decide +kernel)⟩,
   ⟨up, _, pk [], got_eq (by decide +kernel), by decide +kernel⟩⟩

theorem test_meets_PlanAndTraceCommandsComplete :
    (∃ (s : State) (t : State) (p : _), startOf s { op := 0x0701, kinds := [.cell] } p = some t ∧
      (((List.range 37).flatMap fun i => leB 2 (seePt t (cellPa (scopeNum t p) (252 + i))).val.toNat) ++ zeroB 2 ++ regsB t [(.affPlanSeq, 0)]).length ≤ replySpace t p) ∧
    (∃ (s : State) (t : State) (p : _), startOf s { op := 0x0702, lenOk := words 1 } p = some t ∧ planAwaits t (pw p 0) = true) ∧
    (∃ (s : State) (t : State) (p : _), startOf s { op := 0x0703, lenOk := words 1 } p = some t ∧ planAwaits t (pw p 0) = true) ∧
    (∃ (s : State) (t : State) (p : _), startOf s { op := 0x0704 } p = some t ∧ t.aff.busy = false) ∧
    (∃ (s : State) (t : State) (p : _), startOf s { op := 0x0705, kinds := [.cell] } p = some t ∧
      ((List.range 12).flatMap fun sw => leB 6 (getWear t (12 * scopeNum t p + sw)).dmg ++ zeroB 2).length ≤ replySpace t p) ∧
    (∃ (s : State) (t : State) (x : _) (p : _), startOf s { op := 0x0706, kinds := [.switch] } p = some t ∧ t.aff.busy = false ∧
      cmdScope t p.scope.toNat = some x ∧
      ((List.range 256).flatMap fun i => leB 6 (tget 0 t.cave.bins (256 * (12 * x.num + x.sw) + i))).length ≤ replySpace t p ∧
      (p.transport.val ≠ 0 ∨ vatStarving t (hostDma p.queue.toNat) = false)) ∧
    (∃ (s : State) (t : State) (p : _), startOf s { op := 0x0707, lenOk := words 2, targets := stationTarget } p = some t) ∧
    (∃ (s : State) (t : State) (p : _), startOf s { op := 0x0801, lenOk := counted 0 8192 1, targets := stationTarget } p = some t ∧
      (restWords p).all (fun pa => decide (pa < 299008)) = true) ∧
    (∃ (s : State) (t : State) (p : _), startOf s { op := 0x0802, lenOk := words 4 } p = some t ∧ pw p 0 < 299008 ∧ pw p 1 < 2 ^ 18 ∧
      pw p 2 + pw p 3 + 1 ≤ traceDepth t.cave.list.length) ∧
    (∃ (s : State) (t : State) (p : _), startOf s { op := 0x0803 } p = some t) ∧
    (∃ (s : State) (t : State) (p : _), startOf s { op := 0x0804 } p = some t ∧ t.cave.mode = .frozen) ∧
    (∃ (s : State) (t : State) (p : _), startOf s { op := 0x0804 } p = some t ∧ t.cave.mode = .post) ∧
    (∃ (s : State) (t : State) (p : _), startOf s { op := 0x0805 } p = some t ∧ (traceStatusB t).length ≤ replySpace t p) ∧
    (∃ (s : State) (t : State) (fr : _) (p : _), startOf s { op := 0x0806, lenOk := words 2 } p = some t ∧
      traceFrames t (pw p 0) (pw p 1) = some fr ∧ (fr.flatMap (traceB t.cave.list.length t.cave.trigK)).length ≤ replySpace t p ∧
      (p.transport.val ≠ 0 ∨ vatStarving t (hostDma p.queue.toNat) = false)) ∧
    (∃ (s : State) (t : State) (p : _), startOf s { op := 0x0807, lenOk := words 2 } p = some t ∧ 1 ≤ pw p 1 ∧ pw p 1 ≤ 1024 ∧
      ((t.cave.log.dropWhile fun e => e.index.toNat ≠ pw p 0).take (pw p 1)).length = pw p 1 ∧
      (((t.cave.log.dropWhile fun e => e.index.toNat ≠ pw p 0).take (pw p 1)).flatMap logB).length ≤ replySpace t p ∧
      (p.transport.val ≠ 0 ∨ vatStarving t (hostDma p.queue.toNat) = false)) ∧
    (∃ (s : State) (t : State) (p : _), startOf s { op := 0x0808 } p = some t ∧
      (leB 4 (match t.cave.log.head? with | some e => e.index.toNat | none => 0) ++ regsB t [(.caveLogNew, 0), (.caveLogOvr, 0)] ++ leB 4 0).length ≤ replySpace t p) :=
  ⟨⟨inMap, _, cellPk [], got_eq (by decide +kernel), by decide +kernel⟩,
   ⟨modAf (up) fun x => { x with proposed := true }, _, pk [0], got_eq (by decide +kernel), by decide +kernel⟩,
   ⟨modAf (up) fun x => { x with proposed := true }, _, pk [0], got_eq (by decide +kernel), by decide +kernel⟩,
   ⟨up, _, pk [], got_eq (by decide +kernel), by decide +kernel⟩,
   ⟨inMap, _, cellPk [], got_eq (by decide +kernel), by decide +kernel⟩,
   ⟨inMap, _, ⟨.switch, 0, 11⟩, { pk [] with scope := 0xB000 }, got_eq (by decide +kernel), by decide +kernel⟩,
   ⟨up, _, pk [0, 0], got_eq (by decide +kernel)⟩,
   ⟨up, _, pk [1, 299007], got_eq (by decide +kernel), by decide +kernel⟩,
   ⟨modCv up fun x => { x with list := [0] }, _, pk [299007, 0x3FFFF, 0, 0], got_eq (by decide +kernel), by decide +kernel⟩,
   ⟨up, _, pk [], got_eq (by decide +kernel)⟩,
   ⟨modCv (up) fun x => { x with mode := .frozen }, _, pk [], got_eq (by decide +kernel), by decide +kernel⟩,
   ⟨modCv (up) fun x => { x with mode := .post }, _, pk [], got_eq (by decide +kernel), by decide +kernel⟩,
   ⟨up, _, pk [], got_eq (by decide +kernel), by decide +kernel⟩,
   ⟨modCv up fun x => { x with mode := .frozen, ring := [rec1] }, _, [rec1], pk [0, 1], got_eq (by decide +kernel), by decide +kernel⟩,
   ⟨modCv up fun x => { x with log := [log1] }, _, pk [0, 1], got_eq (by decide +kernel), by decide +kernel⟩,
   ⟨up, _, pk [], got_eq (by decide +kernel), by decide +kernel⟩⟩

theorem test_meets_TimeAndPowerCommandsComplete :
    (∃ (s : State) (t : State) (p : _), startOf s { op := 0x0901 } p = some t ∧
      (leB 8 (secsOf ((instant t).1)) ++ leB 4 (nsWord ((instant t).1)) ++ leB 4 (qualityCode t.stu.quality)).length ≤ replySpace ((instant t).2) p) ∧
    (∃ (s : State) (t : State) (p : _), startOf s { op := 0x0902, lenOk := words 3 } p = some t ∧ allParked t = true ∧
      flag t .stuPtpCfg_enable 0 = false ∧ pw p 2 < 1000000000) ∧
    (∃ (s : State) (t : State) (u : State) (p : _), startOf s { op := 0x0903, lenOk := words 6 } p = some t ∧ pw p 0 ≤ 3 ∧
      pw p 3 < 1000000000 ∧
      armPulse ([(RegName.stuTpStartSLo, pw p 1), (.stuTpStartSHi, pw p 2 % 65536), (.stuTpStartNs, pw p 3), (.stuTpPeriod, pw p 4), (.stuTpWidth, pw p 5)].foldl (fun v x => putWord v x.1 (pw p 0) x.2) t) (pw p 0) = (u, false)) ∧
    (∃ (s : State) (t : State) (u : State) (p : _), startOf s { op := 0x0903, lenOk := words 6 } p = some t ∧ pw p 0 ≤ 3 ∧
      pw p 3 < 1000000000 ∧
      armPulse ([(RegName.stuTpStartSLo, pw p 1), (.stuTpStartSHi, pw p 2 % 65536), (.stuTpStartNs, pw p 3), (.stuTpPeriod, pw p 4), (.stuTpWidth, pw p 5)].foldl (fun v x => putWord v x.1 (pw p 0) x.2) t) (pw p 0) = (u, true)) ∧
    (∃ (s : State) (t : State) (p : _), startOf s { op := 0x0904, lenOk := words 1 } p = some t ∧ pw p 0 ≤ 1 ∧
      (timeB (t.stu.caps.getD (pw p 0) (0, 0, false, false, false)).1 ++ leB 2 (t.stu.caps.getD (pw p 0) (0, 0, false, false, false)).2.1 ++ leB 1 (fld t .stuCapCfg_ovr (pw p 0) + 2 * b2n (t.stu.caps.getD (pw p 0) (0, 0, false, false, false)).2.2.2.2 + 4 * b2n (t.stu.caps.getD (pw p 0) (0, 0, false, false, false)).2.2.2.1) ++ zeroB 3).length ≤ replySpace t p) ∧
    (∃ (s : State) (t : State) (p : _), startOf s { op := 0x0905 } p = some t ∧ (ptpStatusB t).1.length ≤ replySpace (ptpStatusB t).2 p) ∧
    (∃ (s : State) (t : State) (p : _), startOf s { op := 0x0A01, holdBus := always, targets := stationTarget } p = some t ∧
      powerCheck t false = stOk) ∧
    (∃ (s : State) (t : State) (p : _), startOf s { op := 0x0A02, lenOk := words 2, holdBus := always, targets := stationTarget } p = some t ∧
      powerCheck t true = stOk ∧ pw p 0 = 0 ∧ bitsAt (pw p 1) 0 16 = 0) ∧
    (∃ (s : State) (t : State) (p : _), startOf s { op := 0x0A03 } p = some t ∧ t.power.mode = .idle) ∧
    (∃ (s : State) (t : State) (p : _), startOf s { op := 0x0A04 } p = some t) :=
  ⟨⟨up, _, pk [], got_eq (by decide +kernel), by decide +kernel⟩,
   ⟨setFld up .stuPtpCfg_enable 0 0, _, pk [0, 0, 999999999], got_eq (by decide +kernel), by decide +kernel⟩,
   ⟨up, _, _, pk [3, 0, 0, 999999999, 33, 32], got_eq (by decide +kernel), by decide +kernel, by decide +kernel,
     pair_eq (by decide +kernel)⟩,
   ⟨up, _, _, pk [3, 0, 0, 999999999, 32, 33], got_eq (by decide +kernel), by decide +kernel, by decide +kernel,
     pair_eq (by decide +kernel)⟩,
   ⟨up, _, pk [1], got_eq (by decide +kernel), by decide +kernel⟩,
   ⟨up, _, pk [], got_eq (by decide +kernel), by decide +kernel⟩,
   ⟨up, _, pk [], got_eq (by decide +kernel), by decide +kernel⟩,
   ⟨up, _, pk [0, 0], got_eq (by decide +kernel), by decide +kernel⟩,
   ⟨modPw (up) fun x => { x with mode := .idle }, _, pk [], got_eq (by decide +kernel), by decide +kernel⟩,
   ⟨up, _, pk [], got_eq (by decide +kernel)⟩⟩

theorem test_meets_DiagnosticCommandsComplete :
    (∃ (s : State) (t : State) (p : _), startOf s { op := 0x0B01, lenOk := words 2 } p = some t ∧ 1 ≤ pw p 1 ∧ pw p 1 ≤ 512 ∧
      pw p 0 + pw p 1 ≤ sourceCount ∧ ((List.range (pw p 1)).flatMap fun i => recordB (getSrc t (pw p 0 + i))).length ≤ replySpace t p) ∧
    (∃ (s : State) (t : State) (l : _) (p : _), startOf s { op := 0x0B02, kinds := [.station, .cell], lockout := always, lenOk := fun l => l.length == 2 || (l.length == 1 && l.getD 0 0 != 0) } p = some t ∧
      clearNames t p = some l ∧ (clearMany t l).2 = false) ∧
    (∃ (s : State) (t : State) (u : State) (p : _), startOf s { op := 0x0B03, lenOk := words 2, lockout := always } p = some t ∧
      sourceIs (pw p 0) = true ∧ forceSrc t (pw p 0) (bitAt (pw p 1) 0) = (u, true)) ∧
    (∃ (s : State) (t : State) (p : _), startOf s { op := 0x0B04 } p = some t ∧
      (regsB t ([(.rindFirst, 0), (.rindSts, 0)] ++ (List.range 18).map fun i => (.rindCellAny, i))).length ≤ replySpace t p) ∧
    (∃ (s : State) (t : State) (u : State) (p : _), startOf s { op := 0x0B10 } p = some t ∧ harpHalt t = (u, true)) ∧
    (∃ (s : State) (t : State) (p : _), startOf s { op := 0x0B11 } p = some t ∧ t.harp.halted = true) ∧
    (∃ (s : State) (t : State) (p : _), startOf s { op := 0x0B20, lenOk := words 2 } p = some t ∧ lanePresent t (pw p 0) = true ∧
      16 ≤ bitsAt (pw p 1) 4 5 ∧ bitsAt (pw p 1) 4 5 ≤ 30 ∧ (getLane t (pw p 0)).scan = none) ∧
    (∃ (s : State) (t : State) (p : _), startOf s { op := 0x0B21, lenOk := eyeWords } p = some t ∧ tget [] t.cave.eyes (pw p 0) ≠ [] ∧
      eyePartOk (eyePart p) = true ∧ (((tget [] t.cave.eyes (pw p 0)).drop (eyePart p).1).take (eyePart p).2).length ≤ replySpace t p ∧
      (p.transport.val ≠ 0 ∨ vatStarving t (hostDma p.queue.toNat) = false)) ∧
    (∃ (s : State) (t : State) (p : _), startOf s { op := 0x0B22, lenOk := words 2 } p = some t ∧ pw p 0 = 0) ∧
    (∃ (s : State) (t : State) (p : _), startOf s { op := 0x0C01, kinds := lockScopes, lenOk := words 1 } p = some t ∧
      bitsAt (pw p 0) 0 16 ≤ 1000 ∧ bitsAt (pw p 0) 16 16 ≤ 10000 ∧
      (∀ l ∈ locksOf t p.queue.toNat, keyLt l.key ((headerKey t p).headD stationKey) = true) ∧ t.cmd.locks.length < 64 ∧
      (locksOf t p.queue.toNat).length < 16 ∧ otherLock t p.queue.toNat ((headerKey t p).headD stationKey) = none) ∧
    (∃ (s : State) (t : State) (p : _), startOf s { op := 0x0C02, kinds := lockScopes, lenOk := words 1 } p = some t ∧
      ((locksOf t p.queue.toNat).filter fun x => x.key = (headerKey t p).headD stationKey) ≠ []) ∧
    (∃ (s : State) (t : State) (p : _), startOf s { op := 0x0C03, kinds := lockScopes } p = some t ∧
      (t.cmd.locks.find? fun l => overlap l.key ((headerKey t p).headD stationKey)) = none) ∧
    (∃ (s : State) (t : State) (p : _), startOf s { op := 0x0C04, lenOk := words 1 } p = some t) :=
  ⟨⟨up, _, pk [945, 1], got_eq (by decide +kernel), by decide +kernel⟩,
   ⟨up, _, _, pk [2, 0], got_eq (by decide +kernel), rfl, by decide +kernel⟩,
   ⟨setFld up .rindCfg_inj_en 0 1, _, _, pk [945, 1], got_eq (by decide +kernel), by decide +kernel, pair_eq (by decide +kernel)⟩,
   ⟨up, _, pk [], got_eq (by decide +kernel), by decide +kernel⟩,
   ⟨permit1, _, _, pk [], got_eq (by decide +kernel), pair_eq (by decide +kernel)⟩,
   ⟨halted1, _, pk [], got_eq (by decide +kernel), by decide +kernel⟩,
   ⟨up, _, pk [27, 0x1E0], got_eq (by decide +kernel), by decide +kernel⟩,
   ⟨{ up with cave := { up.cave with eyes := [(27, [1])] } }, _, pk [27, 0, 64], got_eq (by decide +kernel), by decide +kernel⟩,
   ⟨up, _, pk [0, 0], got_eq (by decide +kernel), by decide +kernel⟩,
   ⟨up, _, pk [0x271003E8], got_eq (by decide +kernel), by decide +kernel⟩,
   ⟨{ up with cmd := { up.cmd with locks := [⟨0, ⟨0, 0⟩, 0, 0⟩] } }, _, pk [0], got_eq (by decide +kernel), by decide +kernel⟩,
   ⟨up, _, pk [], got_eq (by decide +kernel), by decide +kernel⟩,
   ⟨up, _, pk [0], got_eq (by decide +kernel)⟩⟩

theorem test_meets_FlashAccessEndsItsCommand :
    (∃ (q : Fin 32) (w : _) (s : State), clocked s = true ∧ (s.cmd.waits.find? fun w => w.queue = q.val ∧ w.wait = .flash) = some w ∧
      w.opcode = 0x0105) ∧
    (∃ (q : Fin 32) (w : _) (s : State), clocked s = true ∧ (s.cmd.waits.find? fun w => w.queue = q.val ∧ w.wait = .flash) = some w ∧
      w.opcode = 0x0106 ∧ (flashRead (unwait s w) (pw (w.packet) 0) (pw (w.packet) 1)).length ≤ replySpace (unwait s w) (w.packet)) ∧
    (∃ (q : Fin 32) (w : _) (s : State), clocked s = true ∧ (s.cmd.waits.find? fun w => w.queue = q.val ∧ w.wait = .flash) = some w ∧
      w.opcode = 0x0107) ∧
    (∃ (q : Fin 32) (w : _) (s : State) (v : _) (crc : _), clocked s = true ∧
      (s.cmd.waits.find? fun w => w.queue = q.val ∧ w.wait = .flash) = some w ∧ w.opcode = 0x0108 ∧
      slotImage (unwait s w) (pw (w.packet) 0) = some (v, crc) ∧ crc = pw (w.packet) 1) ∧
    (∃ (q : Fin 32) (w : _) (s : State), clocked s = true ∧ (s.cmd.waits.find? fun w => w.queue = q.val ∧ w.wait = .flash) = some w ∧
      w.opcode = 0x0205) ∧
    (∃ (q : Fin 32) (w : _) (s : State), clocked s = true ∧ (s.cmd.waits.find? fun w => w.queue = q.val ∧ w.wait = .flash) = some w ∧
      w.opcode = 0x0206 ∧ bankBusy (unwait s w) = true) ∧
    (∃ (q : Fin 32) (w : _) (s : State) (l : _), clocked s = true ∧
      (s.cmd.waits.find? fun w => w.queue = q.val ∧ w.wait = .flash) = some w ∧ w.opcode = 0x0206 ∧ bankBusy (unwait s w) = false ∧
      newestCfg (unwait s w) = some l) ∧
    (∃ (q : Fin 32) (w : _) (s : State), clocked s = true ∧ (s.cmd.waits.find? fun w => w.queue = q.val ∧ w.wait = .flash) = some w ∧
      w.opcode = 0x0317) ∧
    (∃ (q : Fin 32) (w : _) (s : State), clocked s = true ∧ (s.cmd.waits.find? fun w => w.queue = q.val ∧ w.wait = .flash) = some w ∧
      w.opcode = 0x0405) ∧
    (∃ (q : Fin 32) (w : _) (s : State), clocked s = true ∧ (s.cmd.waits.find? fun w => w.queue = q.val ∧ w.wait = .flash) = some w ∧
      w.opcode = 0x0707) :=
  ⟨⟨0, ⟨0, 0x0105, pk [], .flash⟩, flashing 0x0105 [], by decide +kernel⟩,
   ⟨0, ⟨0, 0x0106, pk [0, 1], .flash⟩, flashing 0x0106 [0, 1], by decide +kernel⟩,
   ⟨0, ⟨0, 0x0107, pk [0, 0], .flash⟩, flashing 0x0107 [0, 0], by decide +kernel⟩,
   ⟨0, ⟨0, 0x0108, pk [0, 0], .flash⟩, modFlash (flashing 0x0108 [0, 0]) fun _ => flashed.boot.flash, 7, 0, by decide +kernel⟩,
   ⟨0, ⟨0, 0x0205, pk [], .flash⟩, flashing 0x0205 [], by decide +kernel⟩,
   ⟨0, ⟨0, 0x0206, pk [], .flash⟩, { flashing 0x0206 [] with press := { up.press with copyBusy := true } }, by decide +kernel⟩,
   ⟨0, ⟨0, 0x0206, pk [], .flash⟩, modFlash (flashing 0x0206 []) fun x => { x with cfg := [some (0, []), none] }, [], by decide +kernel⟩,
   ⟨0, ⟨0, 0x0317, pk [], .flash⟩, flashing 0x0317 [], by decide +kernel⟩,
   ⟨0, ⟨0, 0x0405, pk [], .flash⟩, flashing 0x0405 [], by decide +kernel⟩,
   ⟨0, ⟨0, 0x0707, pk [0, 0], .flash⟩, flashing 0x0707 [0, 0], by decide +kernel⟩⟩

end Sys2Proof.Tests
end

/-!
PROOFS. ENUM at a node (R103): a LINK message as built passes the check of one as received, a LINK message leaves a port at once, and what
ENUM does in each of its two cases.
-/
namespace Sys2Proof.Machine

/-! ### LINK messages as built and as checked (R102) -/

@[simp] theorem length_leB (n v : Nat) : (leB n v).length = n := by
  induction n generalizing v with
  | zero => rfl
  | succ n ih => simp [leB, ih]

@[simp] theorem length_padB (n : Nat) (l : List Byte) : (padB n l).length = n := by
  simp [padB, zeroB]

/-- Little-endian bytes spell the number they were made from, as far as they reach. -/
theorem leN_leB (n v : Nat) : leN (leB n v) = v % 256 ^ n := by
  induction n generalizing v with
  | zero => simp [leB, leN, Nat.mod_one]
  | succ n ih => rw [leB, leN, ih, Nat.pow_succ', Nat.mod_mul, BitVec.toNat_ofNat]

/-- The ten bytes of a LINK message that its CRC-16 covers. -/
def linkBody (op addr : Nat) (args : List Byte) : List Byte := leB 1 op ++ leB 1 addr ++ padB 8 args

@[simp] theorem length_linkBody (op addr : Nat) (args : List Byte) : (linkBody op addr args).length = 10 := by
  simp [linkBody]

theorem linkB_eq (op addr : Nat) (args : List Byte) :
    linkB op addr args = linkBody op addr args ++ leB 2 (crc16 (linkBody op addr args)).toNat := rfl

theorem byteAt_linkB_zero (op addr : Nat) (args : List Byte) : byteAt (linkB op addr args) 0 = op % 256 := by
  simp [linkB_eq, linkBody, byteAt, leB]

theorem take_linkB (op addr : Nat) (args : List Byte) : (linkB op addr args).take 10 = linkBody op addr args := by
  rw [linkB_eq, List.take_left' (length_linkBody op addr args)]

theorem fieldAt_linkB_crc (op addr : Nat) (args : List Byte) :
    fieldAt (linkB op addr args) 10 2 = (crc16 (linkBody op addr args)).toNat := by
  rw [fieldAt, linkB_eq, List.drop_left' (length_linkBody op addr args), List.take_of_length_le (by simp), leN_leB]
  exact Nat.mod_eq_of_lt (BitVec.isLt _)

/-- A LINK message as built is valid for the opcode that its first byte holds. -/
theorem linkOk_linkB (op addr : Nat) (args : List Byte) : linkOk (linkB op addr args) (op % 256) = true := by
  have hlen : (linkB op addr args).length = 12 := by simp [linkB_eq]
  simp [linkOk, hlen, byteAt_linkB_zero, fieldAt_linkB_crc, take_linkB]

/-! ### A LINK message out of a port (R72, R95) -/

/-- A LINK message is a gap itself, so it fits a port whatever its run. -/
@[simp] theorem portFits_link (b64 : Bool) (t : NodeTx) (l : List Byte) : portFits b64 t [(.link, l)] = true := by
  simp [portFits, ownRank]

@[simp] theorem portStart_tx_one (s : State) (c : Nat) (portB own : Bool) (m : SlabType × List Byte) :
    (portStart s c portB own [m]).tx = s.tx ++ [.node c portB m.2] := rfl

variable {s : State} {c : Nat} {p : Bool}

/-- A port with no own content in progress and an empty FIFO forwards a LINK message at once. -/
theorem forward_link_tx (l : List Byte) (hown : (getPort (getNode s c) p).own = 0) (hfifo : (getPort (getNode s c) p).fifo = []) :
    (forward s c p .link l).tx = s.tx ++ [.node c p l] := by
  simp [forward, hown, hfifo]

/-- A port with nothing in progress and nothing waiting sends a LINK message of the node's own at once. -/
theorem sendOwn_link_tx (l : List Byte) (hown : (getPort (getNode s c) p).own = 0) (hfifo : (getPort (getNode s c) p).fifo = [])
    (hfwd : (getPort (getNode s c) p).fwd = 0) (hwait : (getPort (getNode s c) p).wait = []) :
    (sendOwn s c p [(.link, l)]).tx = s.tx ++ [.node c p l] := by
  simp [sendOwn, hown, hfifo, hfwd, hwait]

/-! ### ENUM at a node (R103) -/

/-- A change of a node that leaves its ports' status alone leaves them UP or not as they were. -/
theorem portIsUp_modNode {f : Node → Node} (hf : ∀ x, (f x).portUp = x.portUp) :
    portIsUp (getNode (modNode s c f) c) p = portIsUp (getNode s c) p := by
  simp [portIsUp, hf]

/-- The node records h as its hop count from the given port. -/
def recordHops (s : State) (c : Nat) (portB : Bool) (h : Nat) : State :=
  modNode s c fun x => if portB then { x with hopsB := some h } else { x with hopsA := some h }

@[simp] theorem portIsUp_recordHops (portB : Bool) (h : Nat) :
    portIsUp (getNode (recordHops s c portB h) c) p = portIsUp (getNode s c) p :=
  portIsUp_modNode fun _ => by cases portB <;> rfl

variable {cell : Cell} {portB : Bool} {bytes : List Byte}

theorem exec_enum : exec (.enum cell portB bytes) s =
    .next (if !linkOk bytes 1 then s
      else if bitAt (byteAt bytes 3) 0 then fwdUp s cell portB .link bytes
      else
        let h := byteAt bytes 2 + 1
        let t := recordHops s cell portB h
        if portIsUp (getNode t cell) (!portB) then forward t cell (!portB) .link (linkB 1 0x80 (leB 1 h))
        else sendOwn t cell portB [(.link, linkB 1 0x80 (leB 1 h ++ leB 1 1))]) := rfl

/-- A valid ENUM without the end reply flag goes on out of the other port where that is UP. -/
theorem exec_enum_forwards (hok : linkOk bytes 1 = true) (hreply : bitAt (byteAt bytes 3) 0 = false)
    (hup : portIsUp (getNode s cell) (!portB) = true) :
    exec (.enum cell portB bytes) s =
      .next (forward (recordHops s cell portB (byteAt bytes 2 + 1)) cell (!portB) .link (linkB 1 0x80 (leB 1 (byteAt bytes 2 + 1)))) := by
  simp [exec_enum, hok, hreply, hup]

/-- Where the other port is not UP, it goes back out of the arrival port as an end reply. -/
theorem exec_enum_returns (hok : linkOk bytes 1 = true) (hreply : bitAt (byteAt bytes 3) 0 = false)
    (hdown : portIsUp (getNode s cell) (!portB) = false) :
    exec (.enum cell portB bytes) s =
      .next (sendOwn (recordHops s cell portB (byteAt bytes 2 + 1)) cell portB
        [(.link, linkB 1 0x80 (leB 1 (byteAt bytes 2 + 1) ++ leB 1 1))]) := by
  simp [exec_enum, hok, hreply, hdown]

/-- Settles O16: the two cases of an ENUM by the onward port, what a free port does with a LINK message, and the check of a LINK message as
built. -/
theorem enumRecordsHopsAndGoesOn : Obligations.EnumRecordsHopsAndGoesOn := by
  intro c portB bytes s hok hreply
  refine ⟨?forwarded, ?returned, ?sentAtOnce, linkOk_linkB⟩
  case forwarded => exact exec_enum_forwards hok hreply
  case returned => exact exec_enum_returns hok hreply
  case sentAtOnce =>
    intro u d p l hown hfifo
    exact ⟨forward_link_tx l hown hfifo, sendOwn_link_tx l hown hfifo⟩

end Sys2Proof.Machine

/-!
PROOFS. Absent points (R124): what any reader sees of one, and the word that a read of the Curd window answers for it. The registers of
BAR0 end below the window, so that a read there answers the point's word (Tables 18-1 and 18-2, R140).
-/
namespace Sys2Proof.Machine

/-! ### The registers of BAR0 and the Curd window -/

/-- An address past the elements of a register is none of them. -/
theorem RegName.indexAt_eq_none {r : RegName} {a : Nat} (hbase : r.place.addr < a)
    (hend : r.place.addr + r.place.count * r.place.stride ≤ a) : r.indexAt a = none := by
  rcases Nat.eq_zero_or_pos r.place.stride with hstride | hstride
  · simp [indexAt, hstride, hbase.not_gt, hbase.ne']
  · have hcount : r.place.count ≤ (a - r.place.addr) / r.place.stride := by
      rw [Nat.le_div_iff_mul_le hstride]
      omega
    simp [indexAt, hbase.not_gt, hstride.ne', hcount.not_gt]

/-- Every register starts and ends below the Curd window. -/
theorem place_below_window :
    ∀ r ∈ allRegs, r.place.addr < 0x100000 ∧ r.place.addr + r.place.count * r.place.stride ≤ 0x100000 := by decide +kernel

/-- No register is assigned at or above the Curd window's base. -/
theorem regAt_eq_none_of_ge {a : Nat} (h : 0x100000 ≤ a) : regAt a = none := by
  rw [regAt, List.findSome?_eq_none_iff]
  intro r hr
  obtain ⟨hbase, hend⟩ := place_below_window r hr
  simp [RegName.indexAt_eq_none (hbase.trans_le h) (hend.trans h)]

section Points

variable {s : State} {pa : Nat}

/-- A read in the Curd window answers the point's word and changes nothing (R140). -/
theorem readBar_point (h : pa < 299008) : readBar s (0x100000 + 4 * pa) = (BitVec.ofNat 32 (pointWord s pa), s) := by
  have haligned : (0x100000 + 4 * pa) % 4 = 0 := by omega
  have hwindow : 0x100000 ≤ 0x100000 + 4 * pa ∧ 0x100000 + 4 * pa < 0x224000 := by omega
  have hindex : (0x100000 + 4 * pa - 0x100000) / 4 = pa := by omega
  simp only [readBar, regAt_eq_none_of_ge hwindow.1, haligned, hwindow, hindex, ne_eq, not_true_eq_false, and_self, if_true, if_false]

/-! ### Points that are not there (R124) -/

theorem ptAbsent_of_not_inMap (hcell : pa < 294912) (hmap : (getLink s (pa / 512)).inMap = false) : ptAbsent s pa = true := by
  simp [ptAbsent, hcell, hmap]

/-- The branch of a point decides alike for cell points and for the points of Table 05-3. -/
theorem ptAbsent_of_branch_absent (hbr : branchOfPa pa < 12) (habs : brPresent s (branchOfPa pa) = false) : ptAbsent s pa = true := by
  by_cases hcell : pa < 294912
  · have hbranch : branchOfPa pa = pa / 512 / 48 := if_pos hcell
    simp [ptAbsent, hcell, ← hbranch, habs]
  · simp [ptAbsent, hcell, hbr, habs]

theorem seePt_of_absent (h : ptAbsent s pa = true) : seePt s pa = { Point.zero with stale := true, age := 255 } :=
  if_pos h

/-- Value 0, the stale bit, age 255 in the top byte (Table 05-5). -/
theorem pointWord_of_absent (h : ptAbsent s pa = true) : pointWord s pa = 0xFF010000 := by
  rw [pointWord, seePt_of_absent h]
  rfl

end Points

/-- Settles O19: both kinds of absence make `ptAbsent` true, and an absent point has one value and one word. -/
theorem absentPointsReadStale : Obligations.AbsentPointsReadStale := by
  intro s pa hpa hcause
  have habsent : ptAbsent s pa = true := by
    rcases hcause with ⟨hcell, hmap⟩ | ⟨hbr, habs⟩
    · exact ptAbsent_of_not_inMap hcell hmap
    · exact ptAbsent_of_branch_absent hbr habs
  rw [seePt_of_absent habsent, readBar_point hpa, pointWord_of_absent habsent]
  refine ⟨rfl, rfl, rfl, rfl, ?word⟩
  case word =>
    dsimp only
    decide

end Sys2Proof.Machine

/-!
PROOFS. Standing sources (R293): `standing` as the maximum of what each source contributes, the field of RIND_STS that reads it, and the
check that holds off an entry into IDLE or CURE (R392).
-/
namespace Sys2Proof.Machine

/-! ### The largest of a list -/

theorem maxOf_eq (l : List Nat) : maxOf l = l.max?.getD 0 := by
  rw [maxOf, List.foldl_max, Nat.zero_max]

theorem le_maxOf {l : List Nat} {a : Nat} (h : a ∈ l) : a ≤ maxOf l :=
  maxOf_eq l ▸ List.le_max?_getD_of_mem h

/-- A largest that is not 0 is one of the elements; the 0 of an empty list is none. -/
theorem maxOf_mem {l : List Nat} (h : maxOf l ≠ 0) : maxOf l ∈ l := by
  rw [maxOf_eq] at h ⊢
  cases hmax : l.max? with
  | none => simp [hmax] at h
  | some a => exact List.max?_mem hmax

/-! ### Fields of a word -/

/-- Bits written to a field are read back, as far as they fit in it. -/
theorem bitsAt_putBits (w lo width v : Nat) : bitsAt (putBits w lo width v) lo width = v % 2 ^ width := by
  have habove : (w - bitsAt w lo width * 2 ^ lo) / 2 ^ lo = 2 ^ width * (w / 2 ^ lo / 2 ^ width) := by
    rw [Nat.mul_comm, Nat.sub_mul_div, bitsAt, Nat.sub_eq_of_eq_add (Nat.div_add_mod _ _).symm]
  rw [bitsAt, putBits, Nat.add_mul_div_right _ _ (Nat.two_pow_pos lo), habove, Nat.mul_add_mod, Nat.mod_mod]

/-- The field laid over a word last is read from it. -/
theorem bitsAt_layOver_concat (w : Nat) (l : List (Fld × Nat)) (f : Fld) (v : Nat) :
    bitsAt (layOver w (l ++ [(f, v)])) f.spec.lo f.spec.width = v % 2 ^ f.spec.width := by
  rw [layOver, List.foldl_concat, bitsAt_putBits]

/-! ### Standing sources (R293) -/

/-- The source's latch is set, or its sticky is set with applied class 4. -/
def Src.Standing (x : Src) : Prop := x.latch = true ∨ (x.sticky = true ∧ x.applied = 4)

/-- The class that a source adds to `standing`: its applied class while it stands, else 0. -/
def standingClass (x : Src) : Nat := if x.latch || (x.sticky && x.applied == 4) then x.applied else 0

theorem standingClass_of_standing {x : Src} (h : x.Standing) : standingClass x = x.applied :=
  if_pos (by simpa [Src.Standing] using h)

theorem standing_of_standingClass_ne_zero {x : Src} (h : standingClass x ≠ 0) : x.Standing := by
  by_contra hnot
  exact h (if_neg (by simpa [Src.Standing] using hnot))

theorem standingClass_le_applied (x : Src) : standingClass x ≤ x.applied := by
  unfold standingClass
  split
  · exact le_rfl
  · exact Nat.zero_le _

variable {s : State}

theorem standing_eq (s : State) : standing s = maxOf (s.rind.src.map fun e => standingClass e.2) := rfl

theorem applied_le_standing {n : Nat} {x : Src} (hmem : (n, x) ∈ s.rind.src) (h : x.Standing) : x.applied ≤ standing s := by
  rw [← standingClass_of_standing h, standing_eq]
  exact le_maxOf (List.mem_map.2 ⟨(n, x), hmem, rfl⟩)

/-- A class of `standing` other than 0 is the applied class of a source that stands. -/
theorem exists_standing_source (h : standing s ≠ 0) :
    ∃ n x, (n, x) ∈ s.rind.src ∧ x.Standing ∧ x.applied = standing s := by
  obtain ⟨⟨n, x⟩, hmem, hclass⟩ := List.mem_map.1 (maxOf_mem (standing_eq s ▸ h))
  rw [← standing_eq] at hclass
  have hstands : x.Standing := standing_of_standingClass_ne_zero (hclass ▸ h)
  exact ⟨n, x, hmem, hstands, (standingClass_of_standing hstands).symm.trans hclass⟩

theorem standing_le {m : Nat} (h : ∀ e ∈ s.rind.src, e.2.applied ≤ m) : standing s ≤ m := by
  by_cases hzero : standing s = 0
  · exact hzero ▸ Nat.zero_le m
  · obtain ⟨n, x, hmem, _, hclass⟩ := exists_standing_source hzero
    exact hclass ▸ h (n, x) hmem

/-! ### RIND_STS and the entry check -/

/-- RIND_STS lies over the register file with `standing` last (Table 11-8). -/
theorem readWord_rindSts (s : State) : ∃ w l, readWord s .rindSts 0 = layOver w (l ++ [(.rindSts_standing, standing s)]) :=
  ⟨_, [(.rindSts_lockout, b2n s.rind.lockout), (.rindSts_trip_n, b2n (!s.rind.tripN)), (.rindSts_safe_n, b2n (!s.rind.safeN))], rfl⟩

/-- The field reads the low three bits of the class. -/
theorem bitsAt_readWord_rindSts_standing (s : State) :
    bitsAt (readWord s .rindSts 0) Fld.rindSts_standing.spec.lo Fld.rindSts_standing.spec.width = standing s % 8 := by
  obtain ⟨w, l, hword⟩ := readWord_rindSts s
  rw [hword]
  exact bitsAt_layOver_concat w l .rindSts_standing (standing s)

/-- Where the conditions named before it hold, a standing source of class 2 or above refuses the entry (R392). -/
theorem powerCheck_of_standing (fromIdle : Bool) (hstanding : 2 ≤ standing s) (hparked : s.mode.conv = .parked)
    (htwin : flag s .twinCfg_enable 0 = false) (hrun : s.power.mode = .run) : powerCheck s fromIdle = stFaultStanding := by
  simp [powerCheck, hparked, htwin, hrun, hstanding]

/-- Settles O18: `standing` bounds the class of each source that stands and is the class of one of them; a class is at most 4, so the
three bits of RIND_STS hold it. -/
theorem standingIsTheHighestStandingClass : Obligations.StandingIsTheHighestStandingClass := by
  refine ⟨?bound, ?attained, ?field, ?refused⟩
  case bound => exact fun _ _ _ => applied_le_standing
  case attained => exact fun _ => exists_standing_source
  case field =>
    intro s hclasses
    have hle : standing s ≤ 4 := standing_le hclasses
    rw [bitsAt_readWord_rindSts_standing, Nat.mod_eq_of_lt (by omega)]
  case refused => exact fun _ fromIdle => powerCheck_of_standing fromIdle

end Sys2Proof.Machine

/-!
PROOFS. The boot window (R428): the boot source that its accept condition asks for, what a write does in each of its two cases, and what a
read of it answers.
-/
namespace Sys2Proof.Machine

section BootWindow

variable {s : State}

/-- The boot strap is a two-bit code. -/
theorem strapF_two_lt (s : State) (lo : Nat) : strapF s lo 2 < 4 :=
  Nat.mod_lt _ (by decide)

/-- The image comes from the host for the codes 1 and 2; the reserved code 3 counts as 0. -/
theorem bootSrc_ne_zero_iff : bootSrc s ≠ 0 ↔ strapF s 0 2 = 1 ∨ strapF s 0 2 = 2 := by
  have hcode : strapF s 0 2 < 4 := strapF_two_lt s 0
  by_cases hreserved : strapF s 0 2 = 3
  · simp [bootSrc, hreserved]
  · simp only [bootSrc, hreserved, if_false]
    omega

/-- The window takes writes (R428). -/
def BootWindowOpen (s : State) : Prop :=
  s.boot.stage = 2 ∧ (strapF s 0 2 = 1 ∨ strapF s 0 2 = 2) ∧ s.boot.go = false

/-- Each cause that R428 leaves for ignoring a write closes the window. -/
theorem not_bootWindowOpen (h : s.boot.stage ≠ 2 ∨ strapF s 0 2 = 0 ∨ strapF s 0 2 = 3 ∨ s.boot.go = true) :
    ¬ BootWindowOpen s := by
  rintro ⟨hstage, hsource, hgo⟩
  rcases h with hbad | hzero | hreserved | hset
  · exact hbad hstage
  · omega
  · omega
  · simp [hgo] at hset

/-- The model's accept condition is that of R428. -/
theorem bootWindow_guard_iff : (s.boot.stage = 2 ∧ bootSrc s ≠ 0 ∧ !s.boot.go) ↔ BootWindowOpen s := by
  simp only [BootWindowOpen, bootSrc_ne_zero_iff, Bool.not_eq_true']

/-- An open window takes the four bytes of the word, the lowest at the lowest offset. -/
theorem bootWindow_of_open (offset value : Nat) (h : BootWindowOpen s) :
    bootWindow s offset value = modBo s fun x => { x with
      window := (List.range 4).foldl (fun t i => tset 0 t (4 * offset + i) (BitVec.ofNat 8 (value / 2 ^ (8 * i)))) x.window } :=
  if_pos (bootWindow_guard_iff.mpr h)

/-- A closed window ignores the word and sets SYS_ERR.boot_win. -/
theorem bootWindow_of_closed (offset value : Nat) (h : ¬ BootWindowOpen s) :
    bootWindow s offset value = setFld s .sysErr_boot_win 0 1 :=
  if_neg (mt bootWindow_guard_iff.mp h)

/-- While the core clock runs, a boot window write is `bootWindow` and what settles after it. -/
theorem exec_bootWindowWrite (o : Fin 2097152) (v : Word) (h : clocked s = true) :
    exec (.bootWindowWrite o v) s = .next (settle (bootWindow s o v.toNat)) := by
  have harm : exec (.bootWindowWrite o v) s = onCore s fun s => bootWindow s o v.toNat := rfl
  rw [harm, onCore_clocked h]

/-- No register and neither of the read windows stands there, so a read of the boot window answers 0 and changes nothing. -/
theorem readBar_bootWindow {a : Nat} (hlo : 0x1000000 ≤ a) : readBar s a = (0, s) := by
  have hregs : regAt a = none := regAt_eq_none_of_ge (by omega)
  have hcurd : ¬ (0x100000 ≤ a ∧ a < 0x224000) := by omega
  have hrind : ¬ (0x300000 ≤ a ∧ a < 0x39B400) := by omega
  simp only [readBar, hregs, hcurd, hrind, if_false, ite_self]

end BootWindow

/-- Settles O17: the window is open or closed as R428 says, a write does one thing in each case, and no read finds anything there. -/
theorem bootWindowTakesAnImage : Obligations.BootWindowTakesAnImage := by
  refine ⟨?taken, ?ignored, ?reads⟩
  case taken =>
    intro o v s hclock hstage hsource hgo
    have hopen : BootWindowOpen s := ⟨hstage, hsource, hgo⟩
    rw [exec_bootWindowWrite o v hclock, bootWindow_of_open _ _ hopen]
  case ignored =>
    intro o v s hclock hcause
    rw [exec_bootWindowWrite o v hclock, bootWindow_of_closed _ _ (not_bootWindowOpen hcause)]
  case reads => exact fun _ _ hlo _ => readBar_bootWindow hlo

end Sys2Proof.Machine

/-!
PROOFS. Rows of cell nodes (chapter 04): each changes the node of its cell, what has been sent and the counter of free values only, and
never turns on both switches of a leg (R116).
-/
namespace Sys2Proof.Machine

/-! ### The legs of a node -/

/-- Gates that are each on in `x` as well keep the legs of `x` safe. -/
theorem LegsSafe.mono {x y : Node} (h : LegsSafe x) (hsub : ∀ i, y.gates.getLsbD i = true → x.gates.getLsbD i = true) :
    LegsSafe y := by
  intro j hj hboth
  exact h j hj ⟨hsub _ hboth.1, hsub _ hboth.2⟩

theorem LegsSafe.of_gates_eq {x y : Node} (h : LegsSafe x) (hg : y.gates = x.gates) : LegsSafe y :=
  h.mono fun _ hi => hg ▸ hi

/-- With every gate off no leg is unsafe. -/
theorem legsSafe_of_gates_zero {x : Node} (h : x.gates = 0) : LegsSafe x := by
  intro j _ hboth
  simp [h] at hboth

/-- A change of a node that leaves safe legs safe. -/
def KeepsLegs (f : Node → Node) : Prop := ∀ x, LegsSafe x → LegsSafe (f x)

theorem KeepsLegs.of_gates {f : Node → Node} (h : ∀ x, (f x).gates = x.gates) : KeepsLegs f := fun x hx => hx.of_gates_eq (h x)

/-! ### One node changes -/

/-- From s to t only node c, what has been sent and the counter of free values change, and safe legs of the node stay safe. -/
structure NodeStep (c : Nat) (s t : State) : Prop where
  frame : t = { s with nodes := t.nodes, tx := t.tx, fresh := t.fresh }
  others : ∀ d, d ≠ c → getNode t d = getNode s d
  legs : LegsSafe (getNode s c) → LegsSafe (getNode t c)

/-- Nothing that has been sent is taken back. -/
def Sends (s t : State) : Prop := ∃ out, t.tx = s.tx ++ out

/-- A change of one node that takes nothing back. -/
def NodeSends (c : Nat) (s t : State) : Prop := NodeStep c s t ∧ Sends s t

section NodeSteps

variable {c : Nat} {s t u : State}

theorem Sends.refl (s : State) : Sends s s := ⟨[], by simp⟩

theorem Sends.trans (h : Sends s t) (k : Sends t u) : Sends s u := by
  obtain ⟨a, ha⟩ := h
  obtain ⟨b, hb⟩ := k
  exact ⟨a ++ b, by rw [hb, ha, List.append_assoc]⟩

theorem NodeStep.refl (c : Nat) (s : State) : NodeStep c s s := ⟨rfl, fun _ _ => rfl, id⟩

theorem NodeStep.trans (h : NodeStep c s t) (k : NodeStep c t u) : NodeStep c s u where
  frame := by
    have hk := k.frame
    rw [h.frame] at hk
    exact hk
  others d hd := (k.others d hd).trans (h.others d hd)
  legs hs := k.legs (h.legs hs)

theorem NodeSends.refl (c : Nat) (s : State) : NodeSends c s s := ⟨.refl c s, .refl s⟩

theorem NodeSends.trans (h : NodeSends c s t) (k : NodeSends c t u) : NodeSends c s u := ⟨h.1.trans k.1, h.2.trans k.2⟩

theorem NodeSends.ite {p : Prop} [Decidable p] (h : NodeSends c s t) (k : NodeSends c s u) : NodeSends c s (if p then t else u) := by
  split
  · exact h
  · exact k

theorem nodeSends_modNode_of {f : Node → Node} (hf : LegsSafe (getNode s c) → LegsSafe (f (getNode s c))) :
    NodeSends c s (modNode s c f) where
  left := {
    frame := rfl
    others := fun d hd => by simp [getNode_modNode, hd]
    legs := fun h => by simpa using hf h }
  right := ⟨[], by simp⟩

theorem nodeSends_modNode {f : Node → Node} (hf : KeepsLegs f) : NodeSends c s (modNode s c f) :=
  nodeSends_modNode_of (hf _)

theorem nodeSends_send (x : Tx) : NodeSends c s (send s x) := ⟨⟨rfl, fun _ _ => rfl, id⟩, [x], rfl⟩

theorem nodeSends_draw : NodeSends c s (draw s).2 := ⟨⟨rfl, fun _ _ => rfl, id⟩, [], by simp⟩

theorem nodeSends_drawBelow (n : Nat) : NodeSends c s (drawBelow s n).2 := ⟨⟨rfl, fun _ _ => rfl, id⟩, [], by simp⟩

theorem NodeSends.foldl {α : Type} {f : State → α → State} (h : ∀ t x, NodeSends c t (f t x)) (l : List α) (s : State) :
    NodeSends c s (l.foldl f s) := by
  induction l generalizing s with
  | nil => exact .refl c s
  | cons x l ih => exact (h s x).trans (ih (f s x))

/-! ### A port's transmitter (R72, R74, R95) -/

theorem keepsLegs_modPort (p : Bool) (f : NodeTx → NodeTx) : KeepsLegs fun x => modPort x p f :=
  .of_gates fun x => by cases p <;> rfl

theorem nodeSends_modPort (p : Bool) (f : Node → NodeTx → NodeTx) : NodeSends c s (modNode s c fun x => modPort x p (f x)) :=
  nodeSends_modNode fun x hx => keepsLegs_modPort p (f x) x hx

theorem nodeSends_portStart (p own : Bool) (ls : List (SlabType × List Byte)) : NodeSends c s (portStart s c p own ls) :=
  (nodeSends_modPort p fun _ => _).trans (.foldl (fun _ _ => nodeSends_send _) _ _)

theorem nodeSends_forward (p : Bool) (typ : SlabType) (l : List Byte) : NodeSends c s (forward s c p typ l) :=
  .ite (nodeSends_portStart ..) <| .ite (nodeSends_modPort p fun _ => _) <| nodeSends_modNode (.of_gates fun _ => rfl)

theorem nodeSends_sendOwn (p : Bool) (ls : List (SlabType × List Byte)) : NodeSends c s (sendOwn s c p ls) :=
  .ite (nodeSends_portStart ..) (nodeSends_modPort p fun _ => _)

theorem nodeSends_portNext (p afterOwn : Bool) : NodeSends c s (portNext s c p afterOwn) := by
  unfold portNext
  dsimp only
  split
  · exact .refl c s
  · exact .ite ((nodeSends_modPort p fun _ => _).trans (nodeSends_portStart ..)) (.refl c s)

theorem nodeSends_portTime (p : Bool) : NodeSends c s (portTime s c p) :=
  .ite ((nodeSends_modPort p fun _ => _).trans (nodeSends_portNext ..)) (nodeSends_modPort p fun _ => _)

theorem nodeSends_nodeSlabTime : NodeSends c s (nodeSlabTime s c) := (nodeSends_portTime false).trans (nodeSends_portTime true)

theorem nodeSends_portFlush : NodeSends c s (portFlush s c) :=
  .foldl (fun _ p => (nodeSends_modPort p fun _ => _).trans (.foldl (fun _ _ => nodeSends_send _) _ _)) _ _

/-! ### What goes on (Table 04-1) -/

theorem nodeSends_fwdAcross (p : Bool) (l : List Byte) : NodeSends c s (fwdAcross s c p l) :=
  .ite (nodeSends_forward ..) (.refl c s)

theorem nodeSends_fwdDown (p : Bool) (typ : SlabType) (l : List Byte) : NodeSends c s (fwdDown s c p typ l) := by
  unfold fwdDown
  refine .ite (nodeSends_forward ..) ?_
  split
  · exact .ite (nodeSends_forward ..) (.refl c s)
  · exact .refl c s

theorem nodeSends_fwdUp (p : Bool) (typ : SlabType) (l : List Byte) : NodeSends c s (fwdUp s c p typ l) := by
  unfold fwdUp
  refine .ite (nodeSends_forward ..) ?_
  split
  · exact .ite (.refl c s) (nodeSends_forward ..)
  · exact .refl c s

theorem nodeSends_onLink (p : Bool) (l : List Byte) (op : Nat) {f : Node → Node} (hf : KeepsLegs f) :
    NodeSends c s (onLink s c p l op f) := by
  have hfwd : NodeSends c s (if hopForMe (getNode s c) p (byteAt l 1) && !bitAt (byteAt l 1) 7 then s else fwdAcross s c p l) :=
    .ite (.refl c s) (nodeSends_fwdAcross ..)
  exact .ite (.refl c s) (.ite (hfwd.trans (nodeSends_modNode hf)) hfwd)

end NodeSteps

/-! ### Changes of a node that keep its legs safe -/

theorem keepsLegs_id : KeepsLegs id := fun _ h => h

theorem KeepsLegs.comp {f g : Node → Node} (hf : KeepsLegs f) (hg : KeepsLegs g) : KeepsLegs fun x => f (g x) :=
  fun x hx => hf _ (hg x hx)

theorem KeepsLegs.ite {p : Node → Prop} [∀ x, Decidable (p x)] {f g : Node → Node} (hf : KeepsLegs f) (hg : KeepsLegs g) :
    KeepsLegs fun x => if p x then f x else g x := by
  intro x hx
  dsimp only
  split
  · exact hf x hx
  · exact hg x hx

theorem keepsLegs_gates_zero {f : Node → Node} (h : ∀ x, (f x).gates = 0) : KeepsLegs f := fun x _ => legsSafe_of_gates_zero (h x)

theorem KeepsLegs.foldl {α : Type} {f : Node → α → Node} (h : ∀ a, KeepsLegs fun x => f x a) (l : List α) :
    KeepsLegs fun x => l.foldl f x := by
  induction l with
  | nil => exact keepsLegs_id
  | cons a l ih => exact ih.comp (h a)

theorem keepsLegs_modTrip (r : Nat) (f : NodeTrip → NodeTrip) : KeepsLegs fun x => modTrip x r f := .of_gates fun _ => rfl

theorem keepsLegs_nodePortUp (p : Bool) : KeepsLegs fun x => nodePortUp x p := .of_gates fun _ => rfl

theorem keepsLegs_startClose : KeepsLegs startClose := keepsLegs_gates_zero fun _ => rfl

theorem keepsLegs_toSafe : KeepsLegs toSafe := keepsLegs_gates_zero fun _ => rfl

theorem keepsLegs_missCheck : KeepsLegs missCheck := .ite keepsLegs_toSafe keepsLegs_id

theorem keepsLegs_lockCheck : KeepsLegs lockCheck := .ite (.of_gates fun _ => rfl) keepsLegs_id

theorem keepsLegs_unlockCheck : KeepsLegs unlockCheck :=
  have hunlock : KeepsLegs fun x => { x with locked := false, good := 0 } := .of_gates fun _ => rfl
  .ite (.ite (keepsLegs_toSafe.comp hunlock) hunlock) keepsLegs_id

theorem keepsLegs_bypApply (byp : Nat) : KeepsLegs fun x => bypApply x byp :=
  .ite keepsLegs_startClose (.ite (.of_gates fun _ => rfl) keepsLegs_id)

theorem keepsLegs_armApply : KeepsLegs armApply := .ite (.ite (.of_gates fun _ => rfl) (.of_gates fun _ => rfl)) keepsLegs_id

theorem keepsLegs_splitApply : KeepsLegs splitApply := by
  refine .of_gates fun x => ?_
  unfold splitApply
  split
  · split <;> rfl
  · rfl

theorem keepsLegs_listApply : KeepsLegs listApply := by
  refine .of_gates fun x => ?_
  unfold listApply
  split <;> rfl

theorem keepsLegs_tripWindows : KeepsLegs tripWindows :=
  .foldl (fun r => .ite (keepsLegs_modTrip r _) keepsLegs_id) _

/-- One announced change: of the frame length, or of the coding with both ports down. -/
theorem keepsLegs_announceApply : KeepsLegs announceApply := by
  have hone : ∀ a : Nat × Nat × Nat × Nat, KeepsLegs fun y =>
      match a with
      | (ke, kind, code, _) =>
        if ke ≠ y.k % 65536 then y
        else if kind = 0 then { y with len := ⟨code % 4, Nat.mod_lt _ (by decide)⟩ }
        else if kind = 1 then { y with coding := code == 1, portUp := 0, portSig := 0 } else y := by
    rintro ⟨ke, kind, code, n⟩
    exact .ite keepsLegs_id (.ite (.of_gates fun _ => rfl) (.ite (.of_gates fun _ => rfl) keepsLegs_id))
  intro x hx
  exact LegsSafe.of_gates_eq (KeepsLegs.foldl hone x.announce { x with ticks := windowTicks x x.k } hx) rfl

theorem keepsLegs_nodeBoundary (found : NodeSample) (valid : Half) : KeepsLegs fun x => nodeBoundary x found valid := by
  intro x hx
  have hlists := keepsLegs_announceApply _ (keepsLegs_listApply { x with
    k := (x.k + 1) % 2 ^ 48, fired := [], offTick := x.offTick.map fun (i, t) => (i, t - (x.ticks : Int)), noMark := x.noMark + 1 } hx)
  exact LegsSafe.of_gates_eq (keepsLegs_tripWindows _ (keepsLegs_unlockCheck _ (keepsLegs_missCheck _ (keepsLegs_armApply _
    (keepsLegs_splitApply _ (keepsLegs_bypApply _ _ hlists)))))) rfl

theorem keepsLegs_tripNode (r : Nat) : KeepsLegs fun x => tripNode x r := by
  refine .ite keepsLegs_id ?_
  intro x hx
  refine hx.mono fun i hi => ?_
  have hand : (x.gates &&& ~~~(BitVec.ofNat 12 (15 * 2 ^ (4 * r)))).getLsbD i = true := hi
  simp only [BitVec.getLsbD_and, Bool.and_eq_true] at hand
  exact hand.1

/-! ### An edge fires (R48, R115, R116) -/

/-- Turning on a switch whose partner is off leaves safe legs safe. -/
theorem LegsSafe.or_bit {x : Node} (h : LegsSafe x) (sw : Nat)
    (hpartner : x.gates.getLsbD (if sw % 2 = 0 then sw + 1 else sw - 1) = false) :
    LegsSafe { x with gates := x.gates ||| BitVec.ofNat 12 (2 ^ sw) } := by
  have hbit : ∀ i, (BitVec.ofNat 12 (2 ^ sw)).getLsbD i = true → i = sw := by
    intro i hi
    simp only [BitVec.getLsbD_ofNat, Nat.testBit_two_pow, Bool.and_eq_true, decide_eq_true_eq] at hi
    exact hi.2.symm
  intro j hj ⟨heven, hodd⟩
  simp only [BitVec.getLsbD_or, Bool.or_eq_true] at heven hodd
  by_cases hsw : sw / 2 = j
  · rcases Nat.mod_two_eq_zero_or_one sw with hpar | hpar
    · have hjsw : 2 * j + 1 = sw + 1 := by omega
      rw [if_pos hpar] at hpartner
      rcases hodd with hon | hon
      · simp [hjsw, hpartner] at hon
      · have := hbit _ hon
        omega
    · have hjsw : 2 * j = sw - 1 := by omega
      rw [if_neg (by omega)] at hpartner
      rcases heven with hon | hon
      · simp [hjsw, hpartner] at hon
      · have := hbit _ hon
        omega
  · refine h j hj ⟨heven.resolve_right fun hon => ?_, hodd.resolve_right fun hon => ?_⟩
    · have := hbit _ hon
      omega
    · have := hbit _ hon
      omega

theorem LegsSafe.ite {p : Prop} [Decidable p] {x y : Node} (h : p → LegsSafe x) (k : ¬p → LegsSafe y) :
    LegsSafe (if p then x else y) := by
  split
  · exact h ‹p›
  · exact k ‹¬p›

/-- A turn-on waits while the partner of its switch is on; a turn-off takes a gate away. -/
theorem keepsLegs_fireEdge (e : Edge) (delay : Half) : KeepsLegs fun x => fireEdge x e delay := by
  intro x hx
  refine .ite (fun _ => hx) fun _ => .ite (fun hon => ?on) fun hoff => ?off
  case on =>
    refine .ite (fun _ => ?held) fun _ => .ite (fun _ => ?locked) fun hfree => ?fires
    case held => exact hx.of_gates_eq (by simp [modTrip, hon])
    case locked => exact hx.of_gates_eq (by simp [modTrip, hon])
    case fires =>
      simp only [Bool.or_eq_true, not_or, Bool.not_eq_true] at hfree
      exact (hx.or_bit e.sw (by simpa [modTrip, hon] using hfree.1)).of_gates_eq (by simp [modTrip, hon])
  case off =>
    refine hx.mono fun i hi => ?_
    simp only [hoff, BitVec.getLsbD_and, Bool.and_eq_true] at hi
    exact hi.1

/-! ### Node memory (Table 04-9) -/

theorem keepsLegs_nodeWrite (a : Nat) (data : List Byte) : KeepsLegs fun x => (nodeWrite x a data).1 := by
  intro x hx
  unfold nodeWrite
  dsimp only
  split
  · exact hx
  · split
    · exact hx
    · exact KeepsLegs.foldl (fun r => .ite keepsLegs_id (keepsLegs_modTrip r _)) _ _ <|
        KeepsLegs.foldl (fun r => keepsLegs_modTrip r _) _ _ <|
        KeepsLegs.foldl (f := fun y i => { y with mem := tset 0 y.mem (a + i) _ }) (fun _ => .of_gates fun _ => rfl) _ _ hx

theorem nodeSends_nodeRead {s : State} (c d a n : Nat) : NodeSends c s (nodeRead s d a n).2 := by
  unfold nodeRead
  dsimp only
  split
  · exact .refl c s
  · split
    · exact .refl c s
    · split
      · exact .refl c s
      · split
        · exact nodeSends_draw
        · exact .refl c s

theorem nodeSends_onBulk {c : Nat} {s : State} (p : Bool) (l : List Byte) (write : Bool) : NodeSends c s (onBulk s c p l write) := by
  unfold onBulk
  refine .ite (nodeSends_fwdDown ..) (.ite (.refl c s) ?_)
  dsimp only
  split
  · have hwrite := keepsLegs_nodeWrite (fieldAt l 4 3) ((l.drop 8).take (byteAt l 7)) (getNode s c)
    exact .ite ((nodeSends_modNode_of hwrite).trans (nodeSends_sendOwn ..)) (nodeSends_sendOwn ..)
  · have hread := nodeSends_nodeRead (s := s) c c (fieldAt l 4 3) (byteAt l 7)
    split
    · exact hread.trans (nodeSends_sendOwn ..)
    · exact hread.trans (nodeSends_sendOwn ..)

/-! ### The rows -/

/-- A row of node c answers a state in which only that node has changed and nothing sent is taken back. -/
def NodeRow (c : Nat) (s : State) (o : Host.Outcome State Fault Refusal) : Prop := ∃ t, o = .next t ∧ NodeSends c s t

section Rows

variable (s : State) (c : Cell) (p : Bool) (bytes : List Byte)

theorem nodeRow_nodePowerUp : NodeRow c s (exec (.nodePowerUp c) s) :=
  ⟨_, rfl, (nodeSends_drawBelow (2 ^ 48)).trans (nodeSends_modNode (keepsLegs_gates_zero fun _ => rfl))⟩

theorem nodeRow_nodeFrameBoundary (found : NodeSample) (valid : Half) : NodeRow c s (exec (.nodeFrameBoundary c found valid) s) :=
  ⟨_, rfl, nodeSends_portFlush.trans (nodeSends_modNode (keepsLegs_nodeBoundary found valid))⟩

theorem nodeRow_edgeList (tick : Nat) : NodeRow c s (exec (.edgeList c p tick bytes) s) :=
  ⟨_, rfl, .ite (nodeSends_fwdDown ..) (.ite (nodeSends_modNode (.of_gates fun _ => rfl)) (.refl ..))⟩

theorem nodeRow_edgeFire (index : Nat) (delay : Half) : NodeRow c s (exec (.edgeFire c index delay) s) := by
  refine ⟨_, rfl, ?_⟩
  dsimp only
  split
  next e _ => exact .ite (nodeSends_modNode fun x hx => (keepsLegs_fireEdge e delay x hx).of_gates_eq rfl) (.refl ..)
  · exact .refl ..

theorem nodeRow_dMark (markRx : Int) : NodeRow c s (exec (.dMark c p markRx bytes) s) := by
  refine ⟨_, rfl, .ite (.refl ..) ?_⟩
  have hfwd := (nodeSends_draw (c := c) (s := s)).trans
    (nodeSends_fwdDown p .mark (markPlus (getNode s c).coding bytes (draw s).1))
  refine .ite hfwd (hfwd.trans (nodeSends_modNode fun x hx => ?_))
  dsimp only
  split
  · exact hx.of_gates_eq rfl
  · exact .ite (fun _ => hx.of_gates_eq rfl) fun _ => keepsLegs_unlockCheck _ (keepsLegs_lockCheck _ (hx.of_gates_eq rfl))

theorem nodeRow_nodeDcOverLimit (volts : Nat) : NodeRow c s (exec (.nodeDcOverLimit c volts) s) :=
  ⟨_, rfl, nodeSends_modNode (.ite (keepsLegs_startClose.comp keepsLegs_toSafe) keepsLegs_id)⟩

theorem nodeRow_nodeHeadSlot (resp : Nat) : NodeRow c s (exec (.nodeHeadSlot c resp) s) := by
  refine ⟨_, rfl, ?_⟩
  dsimp only
  split
  · exact .refl ..
  · exact (nodeSends_sendOwn ..).trans (nodeSends_modNode (.of_gates fun _ => rfl))

theorem nodeRow_nodeTailSlot : NodeRow c s (exec (.nodeTailSlot c) s) := by
  refine ⟨_, rfl, ?_⟩
  dsimp only
  split
  · refine .trans ?_ (nodeSends_sendOwn ..)
    exact nodeSends_modNode (.of_gates fun _ => rfl)
  · exact .refl ..

theorem nodeRow_enum : NodeRow c s (exec (.enum c p bytes) s) := by
  refine ⟨_, rfl, .ite (.refl ..) (.ite (nodeSends_fwdUp ..) ?_)⟩
  have hhops : NodeSends c s (recordHops s c p (byteAt bytes 2 + 1)) := nodeSends_modNode (.of_gates fun _ => by cases p <;> rfl)
  exact .ite (hhops.trans (nodeSends_forward ..)) (hhops.trans (nodeSends_sendOwn ..))

theorem nodeRow_setpos : NodeRow c s (exec (.setpos c p bytes) s) :=
  ⟨_, rfl, nodeSends_onLink _ _ _ (.ite keepsLegs_id (keepsLegs_gates_zero fun _ => rfl))⟩

theorem nodeRow_split : NodeRow c s (exec (.split c p bytes) s) :=
  ⟨_, rfl, nodeSends_onLink _ _ _ (.ite keepsLegs_id (.of_gates fun _ => rfl))⟩

theorem nodeRow_role : NodeRow c s (exec (.role c p bytes) s) :=
  ⟨_, rfl, nodeSends_onLink _ _ _ (.ite (.of_gates fun _ => rfl) keepsLegs_id)⟩

theorem nodeRow_arm : NodeRow c s (exec (.arm c p bytes) s) :=
  ⟨_, rfl, nodeSends_onLink _ _ _ (.ite (.of_gates fun _ => rfl) keepsLegs_id)⟩

theorem nodeRow_announce : NodeRow c s (exec (.announce c p bytes) s) :=
  ⟨_, rfl, nodeSends_onLink _ _ _ (.ite keepsLegs_id (.of_gates fun _ => rfl))⟩

theorem nodeRow_settime : NodeRow c s (exec (.settime c p bytes) s) :=
  ⟨_, rfl, nodeSends_onLink _ _ _ (.ite keepsLegs_id (.of_gates fun _ => rfl))⟩

theorem nodeRow_train : NodeRow c s (exec (.train (.node c p)) s) :=
  ⟨_, rfl, (nodeSends_modNode (keepsLegs_nodePortUp p)).trans (nodeSends_send _)⟩

theorem nodeRow_lstat (content : Content) : NodeRow c s (exec (.lstat (.node c p) content) s) := by
  cases content with
  | slabs => exact ⟨_, rfl, .refl ..⟩
  | bytes l => exact ⟨_, rfl, .ite (nodeSends_send _) (.refl ..)⟩

theorem nodeRow_uMark (d : Cell) (arrival : Int) : NodeRow c s (exec (.uMark d arrival (.node c p bytes)) s) :=
  ⟨_, rfl, .ite (.refl ..) (nodeSends_draw.trans (nodeSends_fwdUp ..))⟩

end Rows

/-! ### PARK at a node (R75) -/

/-- What a PARK out of a port takes back: the parts in progress there. -/
def abortedParts (s : State) (c : Nat) (p : Bool) : List Tx := (getPort (getNode s c) p).parts.map (.node c p)

/-- From s to t only node c changes, and of what has been sent at most the parts in progress out of port p are taken back. -/
def ParkStep (c : Nat) (p : Bool) (s t : State) : Prop :=
  NodeStep c s t ∧ ∃ gone out, t.tx = s.tx.diff gone ++ out ∧ gone ⊆ abortedParts s c p

section Park

variable {s t u : State} {c : Nat} {p : Bool}

theorem ParkStep.of_sends (h : NodeSends c s t) : ParkStep c p s t := by
  obtain ⟨hstep, out, hout⟩ := h
  exact ⟨hstep, [], out, by simpa using hout, by simp⟩

theorem ParkStep.then_sends (h : ParkStep c p s t) (k : NodeSends c t u) : ParkStep c p s u := by
  obtain ⟨hstep, gone, out, htx, hgone⟩ := h
  obtain ⟨kstep, more, hmore⟩ := k
  exact ⟨hstep.trans kstep, gone, out ++ more, by rw [hmore, htx, List.append_assoc], hgone⟩

theorem foldl_erase_eq_diff (s : State) (c : Nat) (p : Bool) :
    (getPort (getNode s c) p).parts.foldl (fun q l => q.erase (.node c p l)) s.tx = s.tx.diff (abortedParts s c p) := by
  rw [abortedParts, List.diff_eq_foldl, List.foldl_map]

theorem parkStep_parkOut (l : List Byte) : ParkStep c p s (parkOut s c p l) := by
  have htx : NodeStep c s { s with tx := s.tx.diff (abortedParts s c p) } := ⟨rfl, fun _ _ => rfl, id⟩
  refine ⟨?_, abortedParts s c p, [.node c p l], ?_, fun _ h => h⟩
  · rw [parkOut, foldl_erase_eq_diff]
    exact htx.trans ((nodeSends_modPort p fun _ => _).trans (nodeSends_send _)).1
  · rw [parkOut, foldl_erase_eq_diff]
    rfl

theorem parkStep_park (s : State) (c : Cell) (p : Bool) (bytes : List Byte) :
    ∃ t, exec (.park c p bytes) s = .next t ∧ ParkStep c (!p) s t := by
  refine ⟨_, rfl, ?_⟩
  have hfwd : ParkStep c (!p) s (fwdPark s c p bytes) := by
    unfold fwdPark
    split
    · exact parkStep_parkOut bytes
    · exact .of_sends (.refl ..)
  dsimp only
  split
  · exact .of_sends (.refl ..)
  · split
    · exact hfwd
    · refine hfwd.then_sends (nodeSends_modNode fun y _ => ?_)
      exact .ite (fun _ => legsSafe_of_gates_zero rfl) fun _ => legsSafe_of_gates_zero rfl

end Park

/-! ### Every node row -/

theorem NodeRow.at {d c : Nat} {s : State} {o : Host.Outcome State Fault Refusal} (k : NodeRow d s o) (h : some d = some c) :
    NodeRow c s o :=
  Option.some.inj h ▸ k

/-- A node row other than PARK changes its own node only and takes nothing back. -/
theorem nodeRow_exec {i : Instr} {c : Nat} (h : nodeCell i = some c) (hpark : ∀ d p bytes, i ≠ .park d p bytes) (s : State) :
    NodeRow c s (exec i s) := by
  cases i
  case park d p bytes => exact absurd rfl (hpark d p bytes)
  case nodePowerUp d => exact (nodeRow_nodePowerUp s d).at h
  case nodePortUp d p => exact NodeRow.at ⟨_, rfl, nodeSends_modNode (keepsLegs_nodePortUp p)⟩ h
  case nodeFrameBoundary d found valid => exact (nodeRow_nodeFrameBoundary s d found valid).at h
  case nodeListMiss d => exact NodeRow.at ⟨_, rfl, nodeSends_modNode keepsLegs_missCheck⟩ h
  case edgeList d p tick bytes => exact (nodeRow_edgeList s d p bytes tick).at h
  case edgeFire d index delay => exact (nodeRow_edgeFire s d index delay).at h
  case dMark d p markRx bytes => exact (nodeRow_dMark s d p bytes markRx).at h
  case nodeTimeLockAcquired d => exact NodeRow.at ⟨_, rfl, nodeSends_modNode keepsLegs_lockCheck⟩ h
  case nodeTimeLockLost d => exact NodeRow.at ⟨_, rfl, nodeSends_modNode keepsLegs_unlockCheck⟩ h
  case nodeDcOverLimit d volts => exact (nodeRow_nodeDcOverLimit s d volts).at h
  case nodeHeadSlot d resp => exact (nodeRow_nodeHeadSlot s d resp).at h
  case nodeTailSlot d => exact (nodeRow_nodeTailSlot s d).at h
  case bypassCloseConfirm d =>
    exact NodeRow.at ⟨_, rfl, nodeSends_modNode (.ite (.of_gates fun _ => rfl) keepsLegs_id)⟩ h
  case bypassCloseTimeout d => exact NodeRow.at ⟨_, rfl, nodeSends_modNode (.of_gates fun _ => rfl)⟩ h
  case cellSideTrip d r => exact NodeRow.at ⟨_, rfl, nodeSends_modNode (keepsLegs_tripNode r)⟩ h
  case cellSideTripRelease d r => exact NodeRow.at ⟨_, rfl, nodeSends_modNode (keepsLegs_modTrip r _)⟩ h
  case enum d p bytes => exact (nodeRow_enum s d p bytes).at h
  case setpos d p bytes => exact (nodeRow_setpos s d p bytes).at h
  case split d p bytes => exact (nodeRow_split s d p bytes).at h
  case role d p bytes => exact (nodeRow_role s d p bytes).at h
  case arm d p bytes => exact (nodeRow_arm s d p bytes).at h
  case announce d p bytes => exact (nodeRow_announce s d p bytes).at h
  case settime d p bytes => exact (nodeRow_settime s d p bytes).at h
  case bulkRead d p bytes => exact NodeRow.at ⟨_, rfl, nodeSends_onBulk p bytes false⟩ h
  case bulkWrite d p bytes => exact NodeRow.at ⟨_, rfl, nodeSends_onBulk p bytes true⟩ h
  case train rx =>
    cases rx with
    | lane => injection h
    | node d p => exact (nodeRow_train s d p).at h
  case lstat rx content =>
    cases rx with
    | lane => injection h
    | node d p => exact (nodeRow_lstat s d p content).at h
  case eidle rx =>
    cases rx with
    | lane => injection h
    | node d p => exact NodeRow.at ⟨_, rfl, nodeSends_modNode (.of_gates fun _ => rfl)⟩ h
  case uMark d arrival rx =>
    cases rx with
    | lane => injection h
    | node d' p bytes => exact (nodeRow_uMark s d' p bytes d arrival).at h
  case uplinkHead d rx | uplinkTail d rx | bulkReadRsp d rx | bulkWriteAck d rx | bulkError d rx =>
    cases rx with
    | lane => injection h
    | node d' p bytes => exact NodeRow.at ⟨_, rfl, nodeSends_fwdUp ..⟩ h
  all_goals injection h

/-- Any node row: its own node only changes, and what it takes back are the parts that a PARK aborts. -/
theorem nodeStep_exec {i : Instr} {c : Nat} (h : nodeCell i = some c) (s : State) :
    ∃ t, exec i s = .next t ∧ NodeStep c s t ∧ ∃ gone out, t.tx = s.tx.diff gone ++ out ∧
      ∀ m ∈ gone, ∃ (d : Cell) (p : Bool) (bytes l : List Byte), i = .park d (!p) bytes ∧ d.val = c ∧
        m = .node c p l ∧ l ∈ (getPort (getNode s c) p).parts := by
  by_cases hpark : ∃ d p bytes, i = .park d p bytes
  · obtain ⟨d, p, bytes, rfl⟩ := hpark
    obtain rfl : d.val = c := Option.some.inj h
    obtain ⟨t, ht, hstep, gone, out, htx, hgone⟩ := parkStep_park s d p bytes
    refine ⟨t, ht, hstep, gone, out, htx, fun m hm => ?_⟩
    obtain ⟨l, hl, rfl⟩ := List.mem_map.mp (hgone hm)
    exact ⟨d, !p, bytes, l, by rw [Bool.not_not], rfl, rfl, hl⟩
  · obtain ⟨t, ht, hstep, out, htx⟩ := nodeRow_exec h (fun d p bytes hi => hpark ⟨d, p, bytes, hi⟩) s
    exact ⟨t, ht, hstep, [], out, by simpa using htx, by simp⟩

/-- Settles O7: every node row is a step of its own node, and only a PARK takes back what has been sent. -/
theorem nodeRowsChangeTheirNodeOnly : Obligations.NodeRowsChangeTheirNodeOnly := by
  intro i c s t hrow hexec
  obtain ⟨u, hu, hstep, hsent⟩ := nodeStep_exec hrow s
  obtain rfl : u = t := Host.Outcome.next.inj (hu.symm.trans hexec)
  exact ⟨hstep.frame, hstep.others, hsent⟩

/-- Settles O8: a step of one node leaves the other nodes alone and keeps its own legs safe. -/
theorem nodeRowsKeepLegsSafe : Obligations.NodeRowsKeepLegsSafe := by
  intro i c s t hrow hsafe hexec d
  obtain ⟨u, hu, hstep, _⟩ := nodeStep_exec hrow s
  obtain rfl : u = t := Host.Outcome.next.inj (hu.symm.trans hexec)
  by_cases hd : d = c
  · exact hd ▸ hstep.legs (hsafe c)
  · exact hstep.others d hd ▸ hsafe d

end Sys2Proof.Machine

/-!
PROOFS. How every row ends: the rows of the core domain and the BAR0 accesses run on the core clock, node rows step their node, and the
rows of the Cellar, the Wax domain and the reset pins end with the pins brought up to date. From this follow that every row answers a
next state, that rows of the core domain stand without their clock, and that the pins follow their causes through every step.
-/
namespace Sys2Proof.Machine

/-! ### What kind of row a command is -/

/-- A row that is neither of the core domain nor a BAR0 access. -/
inductive OtherRow (i : Instr) : Prop where
  | node (c : Nat) (h : nodeCell i = some c)
  | cellar (f : State → State) (h : ∀ s, exec i s = onCellar s f)
  | wax (f : State → State) (h : ∀ s, exec i s = onWax s f)
  | pins (f : State → State) (h : ∀ s, exec i s = pinned (f s))
  | restart (h : ∀ s, exec i s =
      if s.cellar.mode = .shutdown ∧ cooled s ∧ cellarRuns s then done (internalReset s 4 true) else .next s)

/-- Every row runs on the core clock, or is no row of the core domain and no BAR0 access. -/
theorem exec_kind (i : Instr) :
    (∃ f, ∀ s, exec i s = onCore s f) ∨ (coreRow i = false ∧ barRow i = false ∧ OtherRow i) := by
  cases i
  case train rx =>
    cases rx with
    | lane n => exact .inl ⟨_, fun _ => rfl⟩
    | node c p => exact .inr ⟨rfl, rfl, .node _ rfl⟩
  case lstat rx content =>
    cases rx with
    | lane n =>
      cases content with
      | slabs => exact .inl ⟨_, fun _ => rfl⟩
      | bytes => exact .inl ⟨_, fun _ => rfl⟩
    | node c p => exact .inr ⟨rfl, rfl, .node _ rfl⟩
  case eidle rx =>
    cases rx with
    | lane n => exact .inl ⟨_, fun _ => rfl⟩
    | node c p => exact .inr ⟨rfl, rfl, .node _ rfl⟩
  case uplinkHead d rx | uplinkTail d rx | uMark d a rx | bulkReadRsp d rx | bulkWriteAck d rx | bulkError d rx =>
    cases rx with
    | lane n => exact .inl ⟨_, fun _ => rfl⟩
    | node c p => exact .inr ⟨rfl, rfl, .node _ rfl⟩
  case nodePowerUp | nodePortUp | nodeFrameBoundary | nodeListMiss | edgeList | edgeFire | park | dMark | nodeTimeLockAcquired |
      nodeTimeLockLost | nodeDcOverLimit | nodeHeadSlot | nodeTailSlot | bypassCloseConfirm | bypassCloseTimeout | cellSideTrip |
      cellSideTripRelease | enum | setpos | split | role | arm | announce | settime | bulkRead | bulkWrite =>
    exact .inr ⟨rfl, rfl, .node _ rfl⟩
  case cellarModelUpdate | cellarDiodeReading | cellarBaseUpdate | parkShutdownRepeat | referenceAbsent | referenceReturn |
      referenceFrequencyWindow =>
    exact .inr ⟨rfl, rfl, .cellar _ fun _ => rfl⟩
  case cellarHoldRelease | cureDiodeCheck | cureEntry | wakeNAssert | waxAlarm | pcieWake | wakeFrame | wakeTripInput | powerGood |
      powerGoodTimeout | oscillatorReady | oscillatorReadyTimeout | wakeRetry | railCrossing | waxCounterWrap =>
    exact .inr ⟨rfl, rfl, .wax _ fun _ => rfl⟩
  case rstNAssert | rstNRelease | porstNAssert | porstNRelease | aonPowerOnReset | aonSupplyUp =>
    exact .inr ⟨rfl, rfl, .pins _ fun _ => rfl⟩
  case cellarRestart => exact .inr ⟨rfl, rfl, .restart fun _ => rfl⟩
  all_goals exact .inl ⟨_, fun _ => rfl⟩

/-- The rows of the core domain and the BAR0 accesses run on the core clock. -/
theorem exec_eq_onCore {i : Instr} (h : coreRow i = true ∨ barRow i = true) : ∃ f, ∀ s, exec i s = onCore s f := by
  rcases exec_kind i with hcore | ⟨hcore, hbar, _⟩
  · exact hcore
  · simp [hcore, hbar] at h

variable {s t : State}

/-- Without the core clock such a row leaves the state as it is. -/
theorem exec_stopped {i : Instr} (h : coreRow i = true ∨ barRow i = true) (hs : clocked s = false) : exec i s = .next s := by
  obtain ⟨f, hf⟩ := exec_eq_onCore h
  rw [hf, onCore_stopped hs]

theorem clocked_of_cure (h : s.power.mode = .cure) : clocked s = false := by
  simp [clocked, h]

/-- Settles O3: each such row runs on the core clock. -/
theorem coreRowsStandWithoutClock : Obligations.CoreRowsStandWithoutClock := fun _ _ hs =>
  ⟨fun hcore => exec_stopped (.inl hcore) hs, fun hbar => exec_stopped (.inr hbar) hs⟩

/-! ### The ends of a row -/

/-- What a row answers: the state as it was, one that `settle` or the pins' update has ended, or a step of one node. -/
inductive RowEnd (s : State) : State → Prop where
  | stands : RowEnd s s
  | settled (u : State) : RowEnd s (settle u)
  | pinned (u : State) : RowEnd s (updPins u)
  | node {c : Nat} {t : State} (h : NodeStep c s t) : RowEnd s t

theorem rowEnd_onCore (f : State → State) : ∃ t, onCore s f = .next t ∧ RowEnd s t := by
  unfold onCore
  split
  · exact ⟨_, rfl, .settled _⟩
  · exact ⟨_, rfl, .stands⟩

theorem rowEnd_settle_or_pins (u : State) : RowEnd s (if clocked u then settle u else updPins u) := by
  split
  · exact .settled u
  · exact .pinned u

theorem rowEnd_onCellar (f : State → State) : ∃ t, onCellar s f = .next t ∧ RowEnd s t := by
  unfold onCellar
  split
  · exact ⟨_, rfl, rowEnd_settle_or_pins (f s)⟩
  · exact ⟨_, rfl, .stands⟩

theorem rowEnd_onWax (f : State → State) : ∃ t, onWax s f = .next t ∧ RowEnd s t := by
  unfold onWax
  split
  · exact ⟨_, rfl, rowEnd_settle_or_pins (f s)⟩
  · exact ⟨_, rfl, .stands⟩

theorem rowEnd_otherRow {i : Instr} (h : OtherRow i) : ∃ t, exec i s = .next t ∧ RowEnd s t := by
  cases h with
  | node c h =>
    obtain ⟨t, ht, hstep, _⟩ := nodeStep_exec h s
    exact ⟨t, ht, .node hstep⟩
  | cellar f h => exact h s ▸ rowEnd_onCellar f
  | wax f h => exact h s ▸ rowEnd_onWax f
  | pins f h => exact ⟨_, h s, .pinned _⟩
  | restart h =>
    rw [h s]
    split
    · exact ⟨_, rfl, .settled _⟩
    · exact ⟨_, rfl, .stands⟩

/-- Every row answers a next state, which one of the ends has brought about. -/
theorem exec_rowEnd (i : Instr) (s : State) : ∃ t, exec i s = .next t ∧ RowEnd s t := by
  rcases exec_kind i with ⟨f, hf⟩ | ⟨_, _, hother⟩
  · exact hf s ▸ rowEnd_onCore f
  · exact rowEnd_otherRow hother

/-! ### A step -/

theorem step_cons {c : Instr} {rest : List Instr} (h : s.pending = c :: rest) : step s = exec c { s with pending := rest } := by
  simp [step, h]

theorem step_nil (h : s.pending = []) : step s = .next (slabTimes s) := by
  simp [step, h]

theorem step_next (s : State) : ∃ t, step s = .next t := by
  cases h : s.pending with
  | nil => exact ⟨_, step_nil h⟩
  | cons c rest =>
    obtain ⟨t, ht, _⟩ := exec_rowEnd c { s with pending := rest }
    exact ⟨t, (step_cons h).trans ht⟩

/-- Settles O1: the two equations of a step. -/
theorem stepTakesTheFrontCommand : Obligations.StepTakesTheFrontCommand :=
  ⟨fun _ _ _ => step_cons rfl, fun _ => step_nil, fun _ _ _ => ⟨rfl, rfl⟩⟩

/-- Settles O2: every row has an end, and a BAR0 access in CURE finds the core clock standing. -/
theorem everyCommandCompletes : Obligations.EveryCommandCompletes := by
  refine ⟨fun i s => ?_, step_next, fun i s hbar hcure => exec_stopped (.inr hbar) (clocked_of_cure hcure)⟩
  obtain ⟨t, ht, _⟩ := exec_rowEnd i s
  exact ⟨t, ht⟩

/-! ### The pins -/

/-- The causes and the levels of the pins lie in these parts of the state. -/
theorem PinsFollow.congr (h : PinsFollow s) (hregs : t.regs = s.regs) (hclk : t.clk = s.clk) (hrind : t.rind = s.rind)
    (hpower : t.power = s.power) (hboot : t.boot = s.boot) : PinsFollow t := by
  have hfld : ∀ f n, fld t f n = fld s f n := by simp [fld, rword, hregs]
  have hidle : pllIdle t = pllIdle s := by simp [pllIdle, hpower, hclk]
  have hclkOut : clkOutOf t = clkOutOf s := by
    funext n
    simp only [clkOutOf, hfld, hpower, hidle, hclk]
  simpa only [PinsFollow, tripHeld, hrind, hpower, hboot, hidle, hclkOut] using h

theorem pinsFollow_updPins (u : State) : PinsFollow (updPins u) := by
  unfold updPins
  dsimp only
  split
  next hcure => exact ⟨fun hnot => absurd hcure hnot, rfl, rfl⟩
  · exact ⟨fun _ => ⟨rfl, rfl⟩, rfl, rfl⟩

theorem pinsFollow_settle (u : State) : PinsFollow (settle u) :=
  (pinsFollow_updPins _).congr (signalAll_regs _) (signalAll_clk _) (signalAll_rind _) (signalAll_power _) (signalAll_boot _)

theorem NodeStep.pinsFollow {c : Nat} (h : NodeStep c s t) (hs : PinsFollow s) : PinsFollow t := by
  rw [h.frame]
  exact hs.congr rfl rfl rfl rfl rfl

theorem RowEnd.pinsFollow (h : RowEnd s t) (hs : PinsFollow s) : PinsFollow t := by
  cases h with
  | stands => exact hs
  | settled u => exact pinsFollow_settle u
  | pinned u => exact pinsFollow_updPins u
  | node hstep => exact hstep.pinsFollow hs

/-! ### A slab time (R72) -/

theorem pinsFollow_foldl {α : Type} {f : State → α → State} (h : ∀ t x, PinsFollow t → PinsFollow (f t x)) (l : List α)
    (hs : PinsFollow s) : PinsFollow (l.foldl f s) :=
  List.foldlRecOn l f hs fun t ht x _ => h t x ht

theorem pinsFollow_slabTime (n : Nat) (hs : PinsFollow s) : PinsFollow (slabTime s n) := by
  rw [slabTime_eq]
  exact hs.congr rfl rfl rfl rfl rfl

theorem pinsFollow_slabTimes (hs : PinsFollow s) : PinsFollow (slabTimes s) := by
  refine pinsFollow_foldl (fun t c ht => nodeSends_nodeSlabTime.1.pinsFollow ht) _ ?_
  split
  · exact pinsFollow_foldl (fun _ n => pinsFollow_slabTime n) _ hs
  · exact hs

/-- Settles O4: every end of a row brings the pins up to date or leaves their causes and levels alone, and so does a slab time. -/
theorem pinsFollowTheirCausesInEveryStep : Obligations.PinsFollowTheirCausesInEveryStep := by
  intro s t hs hstep
  cases hpending : s.pending with
  | nil =>
    obtain rfl : slabTimes s = t := Host.Outcome.next.inj ((step_nil hpending).symm.trans hstep)
    exact pinsFollow_slabTimes hs
  | cons c rest =>
    obtain ⟨u, hu, hend⟩ := exec_rowEnd c { s with pending := rest }
    obtain rfl : u = t := Host.Outcome.next.inj (hu.symm.trans ((step_cons hpending).symm.trans hstep))
    exact hend.pinsFollow (hs.congr rfl rfl rfl rfl rfl)

end Sys2Proof.Machine

/-!
PROOFS. Encodings read back: little-endian fields of a byte string, command packets (Table 13-1), descriptors (Tables 07-3 and 13-25),
scopes (R317) and edge lists (R97, R98), whose form as sent is the one that a node accepts.
-/
namespace Sys2Proof.Machine

/-! ### Fields of a byte string -/

/-- A field behind a part of the string is read from the rest. -/
theorem fieldAt_append_right {a : List Byte} (b : List Byte) {o : Nat} (n : Nat) (h : a.length ≤ o) :
    fieldAt (a ++ b) o n = fieldAt b (o - a.length) n := by
  rw [fieldAt, fieldAt, List.drop_append, List.drop_of_length_le h, List.nil_append]

/-- The field at the front is the number it was made from, as far as it reaches. -/
theorem fieldAt_leB_append (n v : Nat) (b : List Byte) : fieldAt (leB n v ++ b) 0 n = v % 256 ^ n := by
  rw [fieldAt, List.drop_zero, List.take_left' (length_leB n v), leN_leB]

theorem fieldAt_leB (n v : Nat) : fieldAt (leB n v) 0 n = v % 256 ^ n := by
  simpa using fieldAt_leB_append n v []

theorem byteAt_eq_fieldAt (l : List Byte) (i : Nat) : byteAt l i = fieldAt l i 1 := by
  rw [byteAt, fieldAt, List.getD_eq_getElem?_getD, ← List.head?_drop, List.take_one]
  cases (l.drop i).head? <;> simp [leN]

theorem leB_one_toNat (b : Byte) : leB 1 b.toNat = [b] := by
  simp [leB]

/-- A value of n bits reads back from a number of bytes that holds it. -/
theorem ofNat_toNat_mod {n m : Nat} (v : BitVec n) (h : 2 ^ n ≤ m) : BitVec.ofNat n (v.toNat % m) = v := by
  rw [Nat.mod_eq_of_lt (v.isLt.trans_le h), BitVec.ofNat_toNat, BitVec.setWidth_eq]

/-! ### Words -/

theorem take_flatMap_word {α : Type} (g : α → Nat) (x : α) (l : List α) :
    ((x :: l).flatMap fun y => leB 4 (g y)).take 4 = leB 4 (g x) := by
  rw [List.flatMap_cons, List.take_left' (length_leB 4 _)]

theorem drop_flatMap_word {α : Type} (g : α → Nat) (x : α) (l : List α) :
    ((x :: l).flatMap fun y => leB 4 (g y)).drop 4 = l.flatMap fun y => leB 4 (g y) := by
  rw [List.flatMap_cons, List.drop_left' (length_leB 4 _)]

theorem length_flatMap_word {α : Type} (g : α → Nat) (l : List α) : (l.flatMap fun y => leB 4 (g y)).length = 4 * l.length := by
  induction l with
  | nil => rfl
  | cons x l ih =>
    rw [List.flatMap_cons, List.length_append, length_leB, ih, List.length_cons]
    omega

/-- Word i of a list of words laid one after another. -/
theorem fieldAt_flatMap_word {α : Type} (g : α → Nat) (l : List α) (i : Nat) (h : i < l.length) :
    fieldAt (l.flatMap fun y => leB 4 (g y)) (4 * i) 4 = g l[i] % 2 ^ 32 := by
  induction l generalizing i with
  | nil => simp at h
  | cons x l ih =>
    cases i with
    | zero => exact fieldAt_leB_append 4 (g x) _
    | succ i =>
      have hnext := ih i (by simpa using h)
      rw [List.flatMap_cons, fieldAt_append_right _ _ (by simp), length_leB, List.getElem_cons_succ, ← hnext]
      congr 1

theorem wordsOf_flatMap (ws : List Word) (n : Nat) (h : ws.length < n) : wordsOf n (ws.flatMap fun w => leB 4 w.toNat) = ws := by
  induction ws generalizing n with
  | nil => cases n <;> simp [wordsOf]
  | cons w ws ih =>
    obtain ⟨n, rfl⟩ : ∃ m, n = m + 1 := ⟨n - 1, by simp at h; omega⟩
    have hne : ((w :: ws).flatMap fun y => leB 4 y.toNat).isEmpty = false := by simp [leB]
    have hword : BitVec.ofNat 32 (w.toNat % 256 ^ 4) = w := ofNat_toNat_mod w le_rfl
    simp only [wordsOf, hne, take_flatMap_word, drop_flatMap_word, leN_leB, hword]
    simp [ih n (by simpa using h)]

theorem allWords_flatMap (ws : List Word) : allWords (ws.flatMap fun w => leB 4 w.toNat) = ws :=
  wordsOf_flatMap ws _ (by rw [length_flatMap_word]; omega)

/-! ### Command packets (Table 13-1) -/

/-- The header as a row of fields. -/
theorem headerB_append (op : Half) (p : Packet) (l : List Byte) :
    headerB op p ++ l = leB 2 op.toNat ++ (leB 1 p.flags.toNat ++ (leB 1 p.queue.toNat ++ (leB 2 p.tag.toNat ++
      (leB 2 p.length.toNat ++ (leB 2 p.scope.toNat ++ (leB 2 p.replyMax.toNat ++ l)))))) := by
  simp [headerB, leB_one_toNat]

/-- Settles O12: each field of the header is read where it was laid, and the parameters word by word. -/
theorem packetsReadBack : Obligations.PacketsReadBack := by
  intro op p
  simp [packetOf, headerB_append, byteAt_eq_fieldAt, fieldAt_append_right, fieldAt_leB_append, fieldAt_leB, allWords_flatMap,
    ofNat_toNat_mod]

/-! ### Descriptors and scopes -/

@[simp] theorem b2n_mod_byte_ne_zero (b : Bool) : (b2n b % 256 != 0) = b := by
  cases b <;> rfl

theorem loopDescOf_loopDescB {d : LoopDesc} (h : d.fits) : loopDescOf (loopDescB d) = d := by
  obtain ⟨hkind, hlevel, horder, hnu, hin0, hin1, hin2, hin3, hout, hlo, hhi, hobs, hgroup, hslew, hhold, hhand⟩ := h
  delta loopDescB
  simp only [loopDescOf, List.append_assoc, fieldAt_append_right, fieldAt_leB_append, length_leB, Nat.reduceLeDiff, Nat.reduceSub]
  simp only [Nat.reducePow] at hin0 hin1 hin2 hin3 hout hlo hhi hobs hslew hhand
  simp [Nat.mod_eq_of_lt, ofNat_toNat_mod, *]

theorem pointDescOf_pointDescB {d : Desc} (h : d.fits) (w : Nat) :
    pointDescOf (pointDescB d w) = d ∧ fieldAt (pointDescB d w) 8 2 / 1024 % 8 = w % 8 := by
  obtain ⟨hrate, hstale, hnoise, hbase, hfrz, hfs⟩ := h
  have hframes : (d.frzN % 1024 + 1024 * (w % 8)) % 65536 % 1024 = d.frzN := by omega
  have hnoise' : (d.noise % 16 + 16 * (d.base % 8)) % 256 % 16 = d.noise := by omega
  have hbase' : (d.noise % 16 + 16 * (d.base % 8)) % 256 / 16 % 8 = d.base := by omega
  simp only [Nat.reducePow] at hrate hfs
  constructor
  · simp [pointDescOf, pointDescB, byteAt_eq_fieldAt, fieldAt_append_right, fieldAt_leB_append, fieldAt_leB, ofNat_toNat_mod,
      Nat.mod_eq_of_lt hrate, Nat.mod_eq_of_lt hstale, Nat.mod_eq_of_lt hfs, hframes, hnoise', hbase']
  · simp [pointDescB, fieldAt_append_right, fieldAt_leB_append]
    omega

/-- The fields of a cell's scope word (R317): phase, branch of the phase, position in the chain, and the selector 13. -/
theorem bitsAt_cellScope {p b c : Nat} (hp : p < 4) (hb : b < 4) (hc : c < 64) :
    let w := 0xD000 + p + 4 * b + 16 * c
    bitsAt w 0 2 = p ∧ bitsAt w 2 2 = b ∧ bitsAt w 4 6 = c ∧ bitsAt w 10 2 = 0 ∧ bitsAt w 12 4 = 13 := by
  simp only [bitsAt]
  omega

theorem scopeKey_cell {n : Nat} (h : n < 576) : scopeKey (keyScope ⟨3, n⟩) = some ⟨3, n⟩ := by
  have hphase : n / 192 < 3 := by omega
  have hpos : n % 48 < 48 := Nat.mod_lt _ (by decide)
  obtain ⟨hp, hb, hc, hzero, hsel⟩ := bitsAt_cellScope (p := n / 192) (b := n / 48 % 4) (c := n % 48) (by omega) (by omega) (by omega)
  have hword : keyScope ⟨3, n⟩ = 0xD000 + n / 192 + 4 * (n / 48 % 4) + 16 * (n % 48) := rfl
  have hnum : (4 * (n / 192) + n / 48 % 4) * 48 + n % 48 = n := by omega
  simp [scopeKey, hword, hp, hb, hc, hzero, hsel, hnum, hphase.ne, Nat.not_lt.mpr (Nat.lt_succ_iff.mp hpos)]

/-- Settles O13: field by field for the descriptors; the few scopes above the cells are checked one by one. -/
theorem descriptorsAndScopesReadBack : Obligations.DescriptorsAndScopesReadBack := by
  refine ⟨fun _ => loopDescOf_loopDescB, fun _ w h => pointDescOf_pointDescB h w, by decide, by decide, by decide, ?cells, by decide⟩
  case cells => exact fun _ => scopeKey_cell

/-! ### Edge lists (R97) -/

/-- An edge's word holds each of its fields where Table 04-4 has it. -/
theorem edgeOf_word {e : Edge} (h : e.offset < 2 ^ 17 ∧ e.frac < 16 ∧ e.sw < 16) :
    edgeOf ((e.offset % 2 ^ 17 + e.frac % 16 * 2 ^ 17 + e.sw % 16 * 2 ^ 21 + b2n e.on * 2 ^ 25) % 2 ^ 32) = e := by
  obtain ⟨offset, frac, sw, on⟩ := e
  obtain ⟨hoffset, hfrac, hsw⟩ := h
  simp only at hoffset hfrac hsw
  cases on <;> simp [edgeOf, bitsAt, bitAt, b2n, Nat.testBit_eq_decide_div_mod_eq] <;> omega

/-- The word of an edge (Table 04-4). -/
def edgeNum (e : Edge) : Nat := e.offset % 2 ^ 17 + e.frac % 16 * 2 ^ 17 + e.sw % 16 * 2 ^ 21 + b2n e.on * 2 ^ 25

theorem edgeB_eq : edgeB = fun e => leB 4 (edgeNum e) := rfl

theorem length_listHead (l : EdgeList) : (listHead l).length = 12 := by
  simp [listHead, zeroB]

theorem edgeWord_listB (l : EdgeList) (i : Nat) (h : i < l.edges.length) : edgeWord (listB l) i = edgeNum l.edges[i] % 2 ^ 32 := by
  rw [edgeWord, listB, fieldAt_append_right _ _ (by simp [length_listHead])]
  rw [edgeB_eq, ← fieldAt_flatMap_word edgeNum l.edges i h]
  congr 1
  simp [length_listHead]

/-- The header as a row of fields (Table 04-3). -/
theorem listB_append (l : EdgeList) : ∃ rest, listB l = leB 1 (l.dest % 64 + 64 * (l.byp % 4)) ++
    (leB 1 (l.edges.length % 32 + 32 * b2n l.stale + 64 * b2n l.holder) ++ (leB 2 l.kLo.toNat ++ (leB 3 (l.path % 2 ^ 20) ++
      (leB 2 l.tailStart ++ (leB 2 l.headStart ++ (leB 1 0 ++ rest)))))) :=
  ⟨_, by simp only [listB, listHead, List.append_assoc]; rfl⟩

section EdgeLists

variable {l : EdgeList}

/-- The number of edges, the stale mark and the end that sends the list (byte 1). -/
def countByte (l : EdgeList) : Nat := l.edges.length + 32 * b2n l.stale + 64 * b2n l.holder

theorem listB_head (h : l.fits) :
    byteAt (listB l) 0 = l.dest + 64 * l.byp ∧ byteAt (listB l) 1 = countByte l ∧ fieldAt (listB l) 2 2 = l.kLo.toNat ∧
    fieldAt (listB l) 4 3 = l.path ∧ fieldAt (listB l) 7 2 = l.tailStart ∧ fieldAt (listB l) 9 2 = l.headStart ∧
    byteAt (listB l) 11 = 0 := by
  obtain ⟨hdest, hbyp, hlen, hpath, htail, hhead, _⟩ := h
  obtain ⟨rest, hrest⟩ := listB_append l
  have hstale : b2n l.stale ≤ 1 := by cases l.stale <;> decide
  have hholder : b2n l.holder ≤ 1 := by cases l.holder <;> decide
  have hk : l.kLo.toNat < 65536 := l.kLo.isLt
  rw [hrest]
  simp [byteAt_eq_fieldAt, fieldAt_append_right, fieldAt_leB_append, countByte]
  omega

theorem countByte_fields (h : l.edges.length < 32) :
    countByte l % 32 = l.edges.length ∧ bitAt (countByte l) 5 = l.stale ∧ bitAt (countByte l) 6 = l.holder ∧
    bitAt (countByte l) 7 = false := by
  cases hs : l.stale <;> cases hh : l.holder <;>
    simp [countByte, hs, hh, b2n, bitAt, Nat.testBit_eq_decide_div_mod_eq] <;> omega

/-- The edges of a list read back from its words. -/
theorem edges_listB (h : l.fits) : (List.range l.edges.length).map (fun i => edgeOf (edgeWord (listB l) i)) = l.edges := by
  obtain ⟨_, _, _, _, _, _, hedges⟩ := h
  refine List.ext_getElem (by simp) fun i hi _ => ?_
  have hi' : i < l.edges.length := by simpa using hi
  rw [List.getElem_map, List.getElem_range, edgeWord_listB l i hi']
  exact edgeOf_word (hedges _ (List.getElem_mem hi'))

theorem listOf_listB (h : l.fits) : listOf (listB l) = l := by
  obtain ⟨hdestByp, hcount, hk, hpath, htail, hhead, _⟩ := listB_head h
  have hes := edges_listB h
  obtain ⟨hdest, hbyp, hlen, hpathFits, _⟩ := h
  obtain ⟨hnum, hstale, hholder, _⟩ := countByte_fields hlen
  have hd : (l.dest + 64 * l.byp) % 64 = l.dest := by omega
  have hb : (l.dest + 64 * l.byp) / 64 = l.byp := by omega
  simp only [listOf, hdestByp, hcount, hk, hpath, htail, hhead, hnum, hstale, hholder, hes, hd, hb, Nat.mod_eq_of_lt hpathFits,
    BitVec.ofNat_toNat, BitVec.setWidth_eq]

/-! ### The form of an edge list (R97, R98) -/

theorem length_listB (l : EdgeList) : (listB l).length = 16 + 4 * l.edges.length := by
  rw [listB, edgeB_eq]
  simp only [List.length_append, length_listHead, length_leB, length_flatMap_word]

theorem crc_listB (l : EdgeList) : (crc32 ((listB l).take 12 ++ (listB l).drop 16)).toNat = fieldAt (listB l) 12 4 := by
  have htake : (listB l).take 12 = listHead l := by rw [listB, List.append_assoc, List.take_left' (length_listHead l)]
  have hdrop : (listB l).drop 16 = l.edges.flatMap edgeB := by
    rw [listB, List.drop_left' (by simp [length_listHead])]
  have hfield : fieldAt (listB l) 12 4 = (crc32 (listHead l ++ l.edges.flatMap edgeB)).toNat % 256 ^ 4 := by
    rw [listB, List.append_assoc, fieldAt_append_right _ _ (length_listHead l).le, length_listHead]
    exact fieldAt_leB_append _ _ _
  rw [htake, hdrop, hfield]
  exact (Nat.mod_eq_of_lt (BitVec.isLt _)).symm

theorem edgeNum_lt {e : Edge} : edgeNum e < 2 ^ 26 := by
  have : b2n e.on ≤ 1 := by cases e.on <;> decide
  simp only [edgeNum]
  omega

/-- Neighbours in an ordered list are in order. -/
theorem all_zip_drop_of_pairwise {α : Type} {r : α → α → Prop} {es : List α} (h : es.Pairwise r) :
    ∀ p ∈ es.zip (es.drop 1), r p.1 p.2 := by
  intro p hp
  obtain ⟨i, hi, rfl⟩ := List.mem_iff_getElem.mp hp
  simp only [List.length_zip, List.length_drop] at hi
  rw [List.getElem_zip, List.getElem_drop]
  exact List.pairwise_iff_getElem.mp h i (1 + i) (by omega) (by omega) (by omega)

/-- A list in order, within the window and with no switch twice at one offset has the form that a node accepts. -/
theorem listFormOk_listB {n : Nat} (hfits : l.fits) (hbyp : l.byp ≠ 3) (hlen : l.edges.length ≤ 16)
    (hwindow : ∀ e ∈ l.edges, e.sw ≤ 11 ∧ e.offset < n)
    (hpairs : l.edges.Pairwise fun a b => a.offset ≤ b.offset ∧ (a.sw, a.offset) ≠ (b.sw, b.offset)) :
    listFormOk (listB l) n = true := by
  obtain ⟨hdestByp, hcount, _, hpath, _, _, hzero⟩ := listB_head hfits
  have hes := edges_listB hfits
  obtain ⟨hdest, _, hlen', hpathFits, _⟩ := hfits
  obtain ⟨hnum, _, _, hbit⟩ := countByte_fields hlen'
  have hb : (l.dest + 64 * l.byp) / 64 = l.byp := by omega
  have hwords : ∀ i, i < l.edges.length → edgeWord (listB l) i < 2 ^ 26 := by
    intro i hi
    rw [edgeWord_listB l i hi]
    exact (Nat.mod_le _ _).trans_lt edgeNum_lt
  have hneighbours := all_zip_drop_of_pairwise hpairs
  simp only [listFormOk, hdestByp, hcount, hpath, hzero, hnum, hbit, hes, hb, crc_listB, length_listB, Bool.and_eq_true,
    List.all_eq_true, List.mem_range]
  refine ⟨⟨⟨⟨⟨⟨⟨⟨⟨⟨?_, ?_⟩, ?_⟩, ?_⟩, ?path⟩, ?_⟩, ?_⟩, ?words⟩, ?window⟩, ?order⟩, ?twice⟩
  case path => exact decide_eq_true hpathFits
  case words => exact fun i hi => decide_eq_true (hwords i hi)
  case window => simpa using hwindow
  case order => exact fun p hp => decide_eq_true (hneighbours p hp).1
  case twice =>
    intro i hi j hj
    by_cases hij : j ≤ i
    · simp [hij]
    · have hne := (List.pairwise_iff_getElem.mp hpairs i j hi hj (by omega)).2
      simpa [hi, hj, hij, imp_iff_not_or] using hne
  all_goals simp [hlen, hbyp]

end EdgeLists

/-- Settles O10: the head field by field, and each edge from its word. -/
theorem edgeListsReadBack : Obligations.EdgeListsReadBack := fun _ => listOf_listB

/-- Settles O11: each check of R98 on the bytes of the list is one on the list itself. -/
theorem edgeListsSentHaveTheAcceptedForm : Obligations.EdgeListsSentHaveTheAcceptedForm :=
  fun _ _ hfits hbyp hlen hwindow hpairs => listFormOk_listB hfits hbyp hlen hwindow hpairs

end Sys2Proof.Machine

/-!
PROOFS. Slabs and blocks read back from the wire (R62 to R69): bits of bytes, the scrambler and its inverse, stuff bits and the bound on
runs of identical bits.
-/
namespace Sys2Proof.Machine

/-! ### Bits -/

@[simp] theorem length_bitsOf (w n : Nat) : (bitsOf w n).length = w := by
  simp [bitsOf]

theorem bitsOf_succ (w n : Nat) : bitsOf (w + 1) n = n.testBit 0 :: bitsOf w (n / 2) := by
  simp [bitsOf, List.range_succ_eq_map, Nat.testBit_succ, Function.comp_def]

theorem ofBits_bitsOf (w n : Nat) : ofBits (bitsOf w n) = n % 2 ^ w := by
  induction w generalizing n with
  | zero => simp [bitsOf, ofBits, Nat.mod_one]
  | succ w ih =>
    have hbit : b2n (n.testBit 0) = n % 2 := by
      rcases Nat.mod_two_eq_zero_or_one n with h | h <;> simp [b2n, Nat.testBit_zero, h]
    rw [bitsOf_succ, ofBits, ih, hbit, Nat.pow_succ', Nat.mod_mul]

theorem length_bitsB (l : List Byte) : (bitsB l).length = 8 * l.length := by
  induction l with
  | nil => rfl
  | cons b l ih =>
    rw [bitsB, List.flatMap_cons, List.length_append, length_bitsOf, List.length_cons, ← bitsB, ih]
    omega

theorem bytesOf_append {a : List Bool} (ha : a.length = 8) (n : Nat) (b : List Bool) :
    bytesOf (n + 1) (a ++ b) = BitVec.ofNat 8 (ofBits a) :: bytesOf n b := by
  have htake : (a ++ b).take 8 = a := List.take_left' ha
  have hdrop : ∀ i, (a ++ b).drop (8 * (i + 1)) = b.drop (8 * i) := by
    intro i
    rw [Nat.mul_add, Nat.mul_one, Nat.add_comm, ← List.drop_drop, List.drop_left' ha]
  simp [bytesOf, List.range_succ_eq_map, Function.comp_def, htake, hdrop]

/-- Bytes read back from their bits (R64). -/
theorem bytesOf_bitsB (l : List Byte) : bytesOf l.length (bitsB l) = l := by
  induction l with
  | nil => rfl
  | cons b l ih =>
    have hbits : bitsB (b :: l) = bitsOf 8 b.toNat ++ bitsB l := by rw [bitsB, List.flatMap_cons, ← bitsB]
    rw [hbits, List.length_cons, bytesOf_append (length_bitsOf 8 _), ih, ofBits_bitsOf, ofNat_toNat_mod b le_rfl]

theorem padB_of_length {n : Nat} {l : List Byte} (h : l.length = n) : padB n l = l :=
  List.take_left' h

/-! ### The scrambler (R65, R69) -/

theorem length_scramble (b64 : Bool) (h : Nat) (l : List Bool) : (scramble b64 h l).1.length = l.length := by
  induction l generalizing h with
  | nil => rfl
  | cons d l ih => simp [scramble, ih]

/-- From the same history the descrambler gives the bits and the history of the scrambler. -/
theorem descramble_scramble (b64 : Bool) (h : Nat) (l : List Bool) :
    descramble b64 h (scramble b64 h l).1 = (l, (scramble b64 h l).2) := by
  induction l generalizing h with
  | nil => rfl
  | cons d l ih => simp [scramble, descramble, ih]

/-! ### Stuff bits (R66) -/

theorem runOf_le {run : Nat} (h : run < 24) (prev : Option Bool) (b : Bool) : runOf run prev b ≤ 24 := by
  unfold runOf
  split <;> omega

theorem length_stuff (run : Nat) (prev : Option Bool) (p : List Bool) : p.length ≤ (stuff run prev p).length := by
  induction p generalizing run prev with
  | nil => simp
  | cons b p ih =>
    rw [stuff]
    split
    · have := ih 1 (some !b)
      simp only [List.length_cons]
      omega
    · have := ih (runOf run prev b) (some b)
      simp only [List.length_cons]
      omega

/-- Stuffed bits give back the payload and the number of stuff bits. -/
theorem unstuff_stuff {run : Nat} (hrun : run < 24) (prev : Option Bool) (p : List Bool) :
    unstuff run prev (stuff run prev p) = some (p, (stuff run prev p).length - p.length) := by
  induction p generalizing run prev with
  | nil => simp [stuff, unstuff, hrun.ne]
  | cons b p ih =>
    rw [stuff]
    split
    next hfull =>
      have hlen := length_stuff 1 (some !b) p
      simp only [unstuff, hrun.ne, hfull, if_false, if_true, ih (by decide : 1 < 24), Option.map_some, List.length_cons]
      simp
      omega
    next hfull =>
      have hlt : runOf run prev b < 24 := lt_of_le_of_ne (runOf_le hrun prev b) hfull
      simp [unstuff, hrun.ne, ih hlt]

/-- A run of at most 24 bits that the next bit ends holds no 25 identical bits. -/
theorem infix_of_replicate_append {b c : Bool} {m : Nat} {r : List Bool} (hm : m ≤ 24)
    (h : List.replicate 25 b <:+: List.replicate m c ++ (!c) :: r) : List.replicate 25 b <:+: (!c) :: r := by
  induction m with
  | zero => simpa using h
  | succ m ih =>
    rw [List.replicate_succ (n := m), List.cons_append, List.infix_cons_iff] at h
    rcases h with hpre | hin
    · have hfirst : b = c := by simpa using hpre.getElem (i := 0) (by simp)
      have hlast := hpre.getElem (i := m + 1) (by simp; omega)
      rw [List.getElem_replicate, List.getElem_cons_succ, List.getElem_append_right (by simp)] at hlast
      simp [hfirst] at hlast
    · exact ih (by omega) hin

/-- After a run of fewer than 24 bits the stuffed bits hold no 25 identical ones. -/
theorem not_infix_stuff {run : Nat} (hrun : run < 24) (b c : Bool) (p : List Bool) :
    ¬ List.replicate 25 b <:+: List.replicate run c ++ stuff run (some c) p := by
  induction p generalizing run c with
  | nil =>
    intro h
    have := h.length_le
    simp [stuff] at this
    omega
  | cons a p ih =>
    intro h
    have hone : ∀ d, List.replicate 25 b <:+: d :: stuff 1 (some d) p → False := fun d => ih (run := 1) (by decide) d
    by_cases ha : c = a
    · subst ha
      have hgrow : ∀ l, List.replicate run c ++ c :: l = List.replicate (run + 1) c ++ l := by
        intro l
        rw [List.replicate_succ', List.append_assoc, List.singleton_append]
      have hnext : runOf run (some c) c = run + 1 := if_pos rfl
      rw [stuff, hnext] at h
      split at h
      next hfull =>
        rw [hgrow] at h
        exact hone _ (infix_of_replicate_append hfull.le h)
      next hfull =>
        rw [hgrow] at h
        exact ih (by omega) c h
    · obtain rfl : a = !c := by cases a <;> cases c <;> simp_all
      have hnext : runOf run (some c) (!c) = 1 := if_neg (by simp)
      rw [stuff, hnext, if_neg (by decide)] at h
      exact hone _ (infix_of_replicate_append hrun.le h)

/-- No stuffed payload holds 25 identical bits in a row. -/
theorem drop_take_stuff_ne (p : List Bool) (i : Nat) (b : Bool) :
    ((stuff 0 none p).drop i).take 25 ≠ List.replicate 25 b := by
  intro h
  have hin : List.replicate 25 b <:+: stuff 0 none p := by
    rw [← h]
    exact (List.take_prefix _ _).isInfix.trans (List.drop_suffix _ _).isInfix
  cases p with
  | nil => simp [stuff] at hin
  | cons a p =>
    have hfirst : stuff 0 none (a :: p) = a :: stuff 1 (some a) p := by simp [stuff, runOf]
    exact not_infix_stuff (run := 1) (by decide) b a p (by rw [hfirst] at hin; exact hin)

/-! ### Slabs (Tables 03-2 and 03-3) -/

@[simp] theorem length_slabHead (t : SlabType) : (slabHead t).length = 16 := length_bitsOf 16 _

theorem slabOf_slabHead (t : SlabType) : slabOf (ofBits ((slabHead t).take 4)) = some t := by
  cases t <;> decide

theorem slabOf_head {t : SlabType} {l : List Bool} : slabOf (ofBits ((slabHead t ++ l).take 4)) = some t := by
  rw [List.take_append_of_le_length (by simp), slabOf_slabHead]

/-- A slab with this head whose payload unstuffs to 112 bits. -/
theorem slabRead_of_unstuff {h n : Nat} {t : SlabType} {w p : List Bool} (ht : t ≠ .train) (hu : unstuff 0 none w = some (p, n))
    (hp : p.length = 112) :
    slabRead h (slabHead t ++ w) = (.slab t (bytesOf 14 (descramble false h p).1), n, (descramble false h p).2) := by
  have htake : (slabHead t ++ w).take 16 = slabHead t := List.take_left' (length_slabHead t)
  have hdrop : (slabHead t ++ w).drop 16 = w := List.drop_left' (length_slabHead t)
  rw [slabRead, slabOf_head]
  simp only [htake, hdrop, hu]
  simp [ht, hp]

/-- A slab as sent is the slab received, with its stuff bits removed and counted. -/
theorem slabRead_slabBits (h : Nat) {t : SlabType} {l : List Byte} (ht : t ≠ .train) (hl : l.length = 14) :
    slabRead h (slabBits h t l).1 = (.slab t l, (slabBits h t l).1.length - 128, (slabBits h t l).2) := by
  have hbits : (bitsB l).length = 112 := by rw [length_bitsB, hl]
  have hlen : (scramble false h (bitsB l)).1.length = 112 := by rw [length_scramble, hbits]
  have hslab : slabBits h t l =
      (slabHead t ++ stuff 0 none (scramble false h (bitsB l)).1, (scramble false h (bitsB l)).2) := by
    simp [slabBits, ht, padB_of_length hl]
  have hbytes : bytesOf 14 (bitsB l) = l := hl ▸ bytesOf_bitsB l
  have hcount : ∀ n, 16 + n - 128 = n - 112 := fun n => by omega
  rw [hslab, slabRead_of_unstuff ht (unstuff_stuff (by decide) none _) hlen, descramble_scramble, hbytes, hlen, List.length_append,
    length_slabHead, hcount]

/-- A TRAIN slab is not scrambled. -/
theorem slabRead_train (h : Nat) (l : List Byte) :
    slabRead h (slabBits h .train l).1 = (.slab .train (List.replicate 14 0x33), 0, h) := by
  have htake : ∀ w, (slabHead .train ++ w).take 16 = slabHead .train := fun _ => List.take_left' (length_slabHead _)
  have hdrop : ∀ w, (slabHead .train ++ w).drop 16 = w := fun _ => List.drop_left' (length_slabHead _)
  have hbytes : bytesOf 14 (bitsB (List.replicate 14 0x33#8)) = List.replicate 14 0x33#8 := bytesOf_bitsB _
  simp [-List.reduceReplicate, slabRead, slabBits, slabOf_head, htake, hdrop, hbytes]

theorem slabRead_reserved (h : Nat) (w : Slab) (hw : slabOf (ofBits (w.take 4)) = none) : (slabRead h w).1 = .bad false := by
  simp [slabRead, hw]

/-! ### Blocks of 64b/66b (Table 03-4) -/

section Blocks

variable {t : SlabType} {l : List Byte}

/-- The scrambled bytes of a block, of which there are 64 bits, give the bytes back. -/
theorem block_payload (h : Nat) (hlen : (blockBytes t l).length = 8) :
    (blockBits h t l).1.length = 66 ∧ (blockBits h t l).1.take 2 = [!isPart t, isPart t] ∧
    bytesOf 8 (descramble true h ((blockBits h t l).1.drop 2)).1 = blockBytes t l ∧
    (descramble true h ((blockBits h t l).1.drop 2)).2 = (blockBits h t l).2 := by
  have hbytes : bytesOf 8 (bitsB (blockBytes t l)) = blockBytes t l := hlen ▸ bytesOf_bitsB (blockBytes t l)
  simp [blockBits, length_scramble, length_bitsB, hlen, descramble_scramble, hbytes]

/-- A data block: the header 01, then the bytes of a message part. -/
theorem blockRead_data (h : Nat) (ht : isPart t = true) (hl : l.length = 8) :
    blockRead h (blockBits h t l).1 = (.data l, 0, (blockBits h t l).2) := by
  have hblock : blockBytes t l = l := by cases t <;> simp_all [isPart, blockBytes, padB_of_length hl]
  obtain ⟨hlen, htake, hbytes, hhist⟩ := block_payload (t := t) (l := l) h (by rw [hblock, hl])
  simp [blockRead, hlen, htake, hbytes, hhist, ht, hblock]

/-- A control block: the header 10, the block type 0x5A and the type byte, then six bytes. -/
theorem blockRead_control (h : Nat) (ht : t ∈ [SlabType.bulk, .mark, .park, .eidle, .link]) (hl : l.length = 6) :
    blockRead h (blockBits h t l).1 = (.slab t l, 0, (blockBits h t l).2) := by
  have hpart : isPart t = false := by revert t; decide
  have hblock : blockBytes t l = leB 1 0x5A ++ (leB 1 (typeByte t) ++ l) := by
    have hpad := padB_of_length hl
    simp only [List.mem_cons, List.not_mem_nil, or_false] at ht
    rcases ht with rfl | rfl | rfl | rfl | rfl <;> simp [blockBytes, hpad]
  have htype : typeByte t % 256 = typeByte t ∧ slabOf (typeByte t % 16) = some t := by cases t <;> decide
  have hzero : byteAt (blockBytes t l) 0 = 0x5A := by simp [hblock, byteAt_eq_fieldAt, fieldAt_leB_append]
  have hone : byteAt (blockBytes t l) 1 = typeByte t := by
    rw [hblock, byteAt_eq_fieldAt, fieldAt_append_right _ _ (by simp), length_leB, Nat.sub_self, fieldAt_leB_append]
    exact htype.1
  have hrest : (blockBytes t l).drop 2 = l := by rw [hblock]; rfl
  obtain ⟨hlen, htake, hbytes, hhist⟩ := block_payload (t := t) (l := l) h (by simp [hblock, hl])
  simp [blockRead, hlen, htake, hbytes, hhist, hpart, hzero, hone, htype.2, hrest, ctlTypes]

end Blocks

/-- Settles O14: what each reader makes of what its writer laid down, and the bound on runs. -/
theorem slabsAndBlocksReadBack : Obligations.SlabsAndBlocksReadBack := by
  refine ⟨?slab, slabRead_train, ?data, ?control, slabRead_reserved, drop_take_stuff_ne⟩
  case slab => exact fun h _ _ ht hl => slabRead_slabBits h ht hl
  case data => exact fun h _ _ ht hl => blockRead_data h ht hl
  case control => exact fun h _ _ ht hl => blockRead_control h ht hl

end Sys2Proof.Machine

/-!
PROOFS. Raising a source (chapter 11): what a rise and its reaction can change, and what breaking a queue's locks leaves.
-/
namespace Sys2Proof.Machine

/-! ### The reach of a rise -/

/-- From s to t only what a rise of a source and its reaction touch has changed: registers, lanes, branch and cell control, local pairs,
the converter's requests, the Cave, the Rind, the power entry, free values, what is sent, and the event rings. -/
def Raises (s t : State) : Prop :=
  t = { s with regs := t.regs, lanes := t.lanes, ctls := t.ctls, brCtls := t.brCtls, harp := t.harp, mode := t.mode, cave := t.cave,
               rind := t.rind, power := t.power, tx := t.tx, fresh := t.fresh, cmd := { s.cmd with rings := t.cmd.rings } }

section Raising

variable {s t u : State}

theorem Raises.refl (s : State) : Raises s s := rfl

theorem Raises.trans (h : Raises s t) (k : Raises t u) : Raises s u := by
  unfold Raises at *
  rw [h] at k
  exact k

theorem Raises.ite {p : Prop} [Decidable p] (h : Raises s t) (k : Raises s u) : Raises s (if p then t else u) := by
  split
  · exact h
  · exact k

theorem Raises.foldl {α : Type} {f : State → α → State} (h : ∀ t x, Raises t (f t x)) (l : List α) (s : State) :
    Raises s (l.foldl f s) := by
  induction l generalizing s with
  | nil => exact .refl s
  | cons x l ih => exact (h s x).trans (ih (f s x))

/-- A step that a row takes only under a condition. -/
theorem Raises.when {p : Prop} [Decidable p] (h : Raises s t) (k : Raises t u) : Raises s (if p then u else t) := .ite (h.trans k) h

theorem Raises.mode (h : Raises s t) (m : Mode) : Raises s { t with mode := m } := h.trans rfl
theorem Raises.rind (h : Raises s t) (r : Rind) : Raises s { t with rind := r } := h.trans rfl
theorem Raises.cave (h : Raises s t) (c : Cave) : Raises s { t with cave := c } := h.trans rfl
theorem Raises.power (h : Raises s t) (p : Power) : Raises s { t with power := p } := h.trans rfl

theorem raises_send (x : Tx) : Raises s (send s x) := rfl
theorem raises_putWord (r : RegName) (i w : Nat) : Raises s (putWord s r i w) := rfl
theorem raises_modLane (n : Nat) (f : Lane → Lane) : Raises s (modLane s n f) := rfl
theorem raises_modCtl (c : Nat) (f : CellCtl → CellCtl) : Raises s (modCtl s c f) := rfl
theorem raises_modBc (b : Nat) (f : BranchCtl → BranchCtl) : Raises s (modBc s b f) := rfl
theorem raises_modPair (j : Nat) (f : LPair → LPair) : Raises s (modPair s j f) := rfl
theorem raises_modSrc (n : Nat) (f : Src → Src) : Raises s (modSrc s n f) := rfl
theorem raises_modRing (e : Nat) (f : EvRing → EvRing) : Raises s (modRing s e f) := rfl
theorem raises_later (n : Nat) (d : Word) : Raises s (later s n d) := rfl
theorem raises_instant : Raises s (instant s).2 := rfl

/-! ### PARK and fault decisions -/

theorem raises_peerOut (typ : SlabType) (l : List Byte) : Raises s (peerOut s typ l) := raises_send _

theorem raises_sendEnd (b : Nat) (endB : Bool) (typ : SlabType) (l : List Byte) : Raises s (sendEnd s b endB typ l) := by
  unfold sendEnd sendVia
  dsimp only
  split
  · exact raises_send _
  · exact .ite (raises_send _) (.ite (.foldl (fun _ _ => raises_peerOut _ _) _ _) (.refl s))

theorem raises_startAttempt (n : Nat) (keep : Bool) : Raises s (startAttempt s n keep) :=
  .ite (.refl s) (.ite (raises_modLane ..) (((raises_modLane ..).trans (raises_send _)).trans (raises_send _)))

theorem raises_parkLane (n : Nat) (l : List Byte) : Raises s (parkLane s n l) :=
  .ite (((raises_startAttempt n false).trans (raises_modLane ..)).trans (raises_sendEnd ..)) (raises_sendEnd ..)

theorem raises_parkAllOf (b reason : Nat) : Raises s (parkAllOf s b reason) := (raises_parkLane ..).trans (raises_parkLane ..)

theorem raises_disarm (b : Nat) : Raises s (disarm s b) := (Raises.foldl (fun _ _ => raises_modCtl ..) _ _).trans (raises_modBc ..)

theorem raises_parkBranch (b reason : Nat) : Raises s (parkBranch s b reason) := (raises_parkAllOf ..).trans (raises_disarm ..)

theorem raises_tripBranch (b : Nat) : Raises s (tripBranch s b) :=
  have hpark := (raises_parkBranch (s := s) b 2).trans (raises_modBc b _)
  .ite (hpark.mode _) hpark

theorem raises_forceOff (j : Nat) : Raises s (forceOff s j) := raises_modPair ..

theorem raises_parkStation (reason : Nat) : Raises s (parkStation s reason) :=
  (Raises.foldl (fun _ _ => raises_parkBranch ..) _ _).trans (.foldl (fun _ _ => raises_forceOff _) _ _)

theorem raises_faultDecision (c reason : Nat) : Raises s (faultDecision s c reason) :=
  .ite (.refl s) (.ite ((raises_parkLane ..).trans (raises_modCtl ..)) ((raises_modCtl ..).trans (raises_later ..)))

/-! ### Reactions -/

theorem raises_assertTrip : Raises s (assertTrip s) := rfl

theorem raises_lockoutBy (n : Nat) : Raises s (lockoutBy s n) :=
  ((((Raises.refl s).rind _).trans (raises_parkStation 4)).trans raises_assertTrip).mode _

/-- What a reaction starts from: an entry into CURE in progress has ended (R397). -/
def entryEnded (s : State) (a : Nat) : State :=
  if 2 ≤ a ∧ (s.power.entering ∨ s.power.cureReq) then
    { s with power := { s.power with entering := false, cureReq := false, exitReq := some (if s.power.entering then 0 else 0xFF) } }
  else s

theorem raises_entryEnded (a : Nat) : Raises s (entryEnded s a) := .ite ((Raises.refl s).power _) (.refl s)

theorem raises_react (n a : Nat) (d : Word) : Raises s (react s n a d) := by
  have h0 := raises_entryEnded (s := s) a
  refine .ite ?two (.ite ?three (.ite (h0.trans (raises_lockoutBy n)) h0))
  case two =>
    split
    · exact .ite h0 (h0.trans (raises_faultDecision ..))
    · exact .ite h0 ((h0.trans (.foldl (fun _ _ => raises_tripBranch _) _ _)).trans (.foldl (fun _ _ => raises_forceOff _) _ _))
  case three => exact ((Raises.ite h0 (h0.trans (raises_parkStation 3))).trans raises_assertTrip).mode _

/-! ### Records, log and rings -/

theorem raises_logEntry (typ time : Nat) (detail : List Byte) : Raises s (logEntry s typ time detail) := .ite rfl rfl

theorem raises_postRing (typ time : Nat) (detail : List Byte) (e : Nat) : Raises s (postRing typ time detail s e) := by
  unfold postRing
  refine .ite (.ite ?udp ?dma) (.refl s)
  case udp =>
    split
    · exact raises_send _
    · exact raises_modRing ..
  case dma => exact .ite (raises_modRing ..) ((raises_send _).trans (raises_modRing ..))

theorem raises_logAndRing (typ time : Nat) (ring : Bool) (a b : List Byte) : Raises s (logAndRing s typ time ring a b) := by
  have hlog := raises_logEntry (s := s) typ time a
  have hlate : Raises s (if (logEntry s typ time a).cave.logLost != s.cave.logLost then later (logEntry s typ time a) 943 0
      else logEntry s typ time a) := .ite (hlog.trans (raises_later ..)) hlog
  refine .ite (hlate.trans (.foldl (fun t e => ?_) _ _)) hlate
  exact .ite ((raises_postRing ..).trans (raises_later ..)) (raises_postRing ..)

theorem postEvent_eq (s : State) (typ : Nat) (detail : List Byte) :
    postEvent s typ detail = logAndRing (instant s).2 typ (instant s).1 true detail detail := rfl

theorem raises_postEvent (typ : Nat) (detail : List Byte) : Raises s (postEvent s typ detail) :=
  postEvent_eq s typ detail ▸ raises_instant.trans (raises_logAndRing ..)

theorem raises_traceTrigger (src : Nat) : Raises s (traceTrigger s src) := by
  unfold traceTrigger
  split
  · exact .refl s
  · rfl
  · exact .ite rfl rfl
  · rfl

theorem raises_rindSnapshot (t : Nat) : Raises s (rindSnapshot s t) := by
  have hslot : Raises s (slotFresh s (0x381000000 + 0x100000 * s.cave.snapshots) 0x100000) := rfl
  exact .ite (raises_putWord ..) (hslot.trans rfl)

theorem raises_takeFirst (n a : Nat) : Raises s (takeFirst s n a) := .ite rfl (.refl s)

/-! ### Rises -/

theorem raises_rise (n : Nat) (d : Word) (forced : Bool) : Raises s (rise s n d forced) :=
  ((((((raises_instant.trans (raises_modSrc ..)).trans (raises_takeFirst ..)).when (raises_putWord ..)).when
    (raises_traceTrigger ..)).when (raises_rindSnapshot ..)).trans (raises_logAndRing ..)).trans (raises_react ..)

theorem raises_raiseE (n : Nat) (d : Word) : Raises s (raiseE s n d) := by
  have hnow := raises_modSrc (s := s) n fun x => { x with evNow := true }
  refine .ite (.refl s) (.ite ?live (hnow.trans (raises_rise ..)))
  exact (hnow.trans (raises_modSrc ..)).when ((raises_modSrc ..).trans (raises_react ..))

theorem raises_setC (n : Nat) (v : Bool) (d : Word) : Raises s (setC s n v d) := by
  have hcond := raises_modSrc (s := s) n fun x => { x with cond := v }
  exact .ite (.refl s) (.ite hcond (.ite (hcond.trans (raises_rise ..)) (.ite (hcond.trans (raises_modSrc ..)) hcond)))

end Raising
end Sys2Proof.Machine

/-!
PROOFS. Locks of different queues stay apart (R333): what ends a command or breaks a lock adds none, a grant adds one that nothing of
another queue overlaps.
-/
namespace Sys2Proof.Machine

variable {s t u : State}

/-! ### Steps that add no lock -/

/-- Every lock held in t is held in s. -/
def NoNewLock (s t : State) : Prop := t.cmd.locks ⊆ s.cmd.locks

theorem NoNewLock.refl (s : State) : NoNewLock s s := List.Subset.refl _

theorem NoNewLock.trans (h : NoNewLock s t) (k : NoNewLock t u) : NoNewLock s u := List.Subset.trans k h

theorem NoNewLock.of_eq (h : t.cmd.locks = s.cmd.locks) : NoNewLock s t := fun _ hl => h ▸ hl

theorem NoNewLock.ite {p : Prop} [Decidable p] (h : NoNewLock s t) (k : NoNewLock s u) : NoNewLock s (if p then t else u) := by
  split
  · exact h
  · exact k

theorem NoNewLock.foldl {α : Type} {f : State → α → State} (h : ∀ t x, NoNewLock t (f t x)) (l : List α) (s : State) :
    NoNewLock s (l.foldl f s) := by
  induction l generalizing s with
  | nil => exact .refl s
  | cons x l ih => exact (h s x).trans (ih (f s x))

theorem Raises.noNewLock (h : Raises s t) : NoNewLock s t := .of_eq (by rw [h])

theorem LocksApart.of_noNewLock (h : LocksApart s) (hsub : NoNewLock s t) : LocksApart t :=
  fun a ha b hb => h a (hsub ha) b (hsub hb)

theorem noNewLock_modQ (q : Nat) (f : Queue → Queue) : NoNewLock s (modQ s q f) := .refl s

theorem noNewLock_send (x : Tx) : NoNewLock s (send s x) := .refl s

/-- What a queue wrote is taken back in registers and the Press alone. -/
theorem restoreShadows_cmd (s : State) (q : Nat) (k : LockKey) : (restoreShadows s q k).cmd = s.cmd := by
  unfold restoreShadows restoreCoefs
  exact foldl_keeps (·.cmd) _ (by intro t a; rfl) _ _

theorem noNewLock_breakLock (l : Lock) (cause : Nat) : NoNewLock s (breakLock s l cause) := by
  have hfilter : NoNewLock s { s with cmd := { s.cmd with
      locks := s.cmd.locks.filter (· ≠ l), broken := s.cmd.broken ++ [l.key], sts := s.cmd.sts ||| 4 } } := List.filter_sublist.subset
  have hpost := ((hfilter.trans (.of_eq (congrArg Cmd.locks (restoreShadows_cmd _ l.queue l.key)))).trans
    (noNewLock_modQ l.queue fun x => { x with expired := x.expired ++ [l.key] })).trans
      (raises_postEvent 0x5001 (leB 2 (keyScope l.key) ++ leB 1 l.queue ++ leB 1 cause)).noNewLock
  exact .ite (hpost.trans (raises_raiseE ..).noNewLock) (hpost.trans (raises_raiseE ..).noNewLock)

theorem noNewLock_qError (q code : Nat) : NoNewLock s (qError s q code) := by
  have hmark : NoNewLock s { modQ s q fun x => { x with mode := .error, err := code } with
      cmd := { (modQ s q fun x => { x with mode := .error, err := code }).cmd with sts := s.cmd.sts ||| 2 } } := .refl s
  exact .ite ((hmark.trans (raises_raiseE ..).noNewLock).trans (.foldl (fun _ l => noNewLock_breakLock l 2) _ _)) (.refl s)

/-! ### The end of a command -/

theorem noNewLock_deliver (p : Packet) (st res k : Nat) (reply : List Byte) : NoNewLock s (deliver s p st res k reply) := by
  refine .ite (noNewLock_modQ ..) (.ite (.ite (.refl s) (.ite (noNewLock_qError ..) ?_)) (.ite ?_ (noNewLock_modQ ..)))
  · refine .trans (.trans ?_ (noNewLock_send _)) (noNewLock_modQ ..)
    exact .ite (.refl s) (noNewLock_send _)
  · exact (noNewLock_modQ ..).trans (noNewLock_send _)

theorem noNewLock_finish (p : Packet) (st res : Nat) (reply : List Byte) : NoNewLock s (finish s p st res reply) :=
  .ite (noNewLock_deliver ..) (noNewLock_deliver ..)

theorem noNewLock_waitFor (op : Half) (p : Packet) (w : Wait) : NoNewLock s (waitFor s op p w) := .ite (noNewLock_modQ ..) (.refl s)

/-! ### Grants -/

theorem overlap_comm (a b : LockKey) : overlap a b = overlap b a := Bool.or_comm _ _

/-- A lock that nothing of another queue overlaps may be added. -/
theorem LocksApart.append (h : LocksApart s) {l : Lock} (hfree : otherLock s l.queue l.key = none)
    (hlocks : t.cmd.locks = s.cmd.locks ++ [l]) : LocksApart t := by
  have hother : ∀ a ∈ s.cmd.locks, a.queue ≠ l.queue → overlap a.key l.key = false := by
    intro a ha hq
    have hnone := List.find?_eq_none.mp hfree a ha
    simpa [hq] using hnone
  intro a ha b hb hq
  rw [hlocks, List.mem_append, List.mem_singleton] at ha hb
  rcases ha with ha | rfl <;> rcases hb with hb | rfl
  · exact h a ha b hb hq
  · exact hother a ha hq
  · rw [overlap_comm]
    exact hother b hb hq.symm
  · exact absurd rfl hq

theorem LocksApart.grantLock (h : LocksApart s) {p : Packet} {key : LockKey} (hold : Nat)
    (hfree : otherLock s p.queue.toNat key = none) : LocksApart (grantLock s p key hold) := by
  have hadd : LocksApart { s with cmd := { s.cmd with
      locks := s.cmd.locks ++ [⟨p.queue.toNat, key, hold, nowQ s⟩], broken := s.cmd.broken.filter fun k => !overlap key k } } :=
    h.append (l := ⟨p.queue.toNat, key, hold, nowQ s⟩) hfree rfl
  exact hadd.of_noNewLock (noNewLock_finish ..)

/-- The hold time of a lock starts again without a change of its queue or scope. -/
theorem LocksApart.map {f : Lock → Lock} (h : LocksApart s) (hf : ∀ l, (f l).queue = l.queue ∧ (f l).key = l.key)
    (hlocks : t.cmd.locks = s.cmd.locks.map f) : LocksApart t := by
  intro a ha b hb hq
  rw [hlocks, List.mem_map] at ha hb
  obtain ⟨x, hx, rfl⟩ := ha
  obtain ⟨y, hy, rfl⟩ := hb
  rw [(hf x).1, (hf y).1] at hq
  rw [(hf x).2, (hf y).2]
  exact h x hx y hy hq

/-- The lock list after the check of a command's targets: the hold of the queue's own locks over them starts again (R336). -/
def holdAgain (s : State) (q : Nat) (keys : List LockKey) (l : Lock) : Lock :=
  if l.queue = q ∧ keys.any (overlap l.key) then { l with since := nowQ s } else l

theorem lockGate_locks (s : State) (q : Nat) (keys : List LockKey) :
    (lockGate s q keys).1.cmd.locks = s.cmd.locks.map (holdAgain s q keys) := by
  unfold lockGate
  dsimp only
  split
  · rfl
  · split <;> rfl

theorem holdAgain_queue_key (s : State) (q : Nat) (keys : List LockKey) (l : Lock) :
    (holdAgain s q keys l).queue = l.queue ∧ (holdAgain s q keys l).key = l.key := by
  unfold holdAgain
  split <;> exact ⟨rfl, rfl⟩

/-- Settles O9: a grant is made only where nothing of another queue overlaps; all else adds no lock or only restarts holds. -/
theorem locksOfQueuesStayApart : Obligations.LocksOfQueuesStayApart := by
  refine ⟨?reserve, ?release, ?gate⟩
  case reserve =>
    intro s p key wait hold h
    unfold reserve
    dsimp only
    split
    · exact h.of_noNewLock (noNewLock_finish ..)
    · split
      · exact h.of_noNewLock (noNewLock_finish ..)
      · split
        next hfree => exact h.grantLock hold hfree
        · exact h.of_noNewLock (.ite (noNewLock_finish ..) (noNewLock_waitFor ..))
  case release =>
    intro s q l discard h
    have hfilter : NoNewLock s { s with cmd := { s.cmd with locks := s.cmd.locks.filter fun x => !l.contains x } } :=
      List.filter_sublist.subset
    refine h.of_noNewLock (.ite (hfilter.trans (.foldl (fun t x => ?_) _ _)) hfilter)
    exact .of_eq (congrArg Cmd.locks (restoreShadows_cmd t q x.key))
  case gate => exact fun s q keys h => h.map (holdAgain_queue_key s q keys) (lockGate_locks s q keys)

end Sys2Proof.Machine

/-!
PROOFS. The end of a row in a quiet state, and the state after reset.
-/
namespace Sys2Proof.Machine

/-! ### Interrupt outputs -/

/-- From s to t only pending bits, interrupt outputs and what is sent have changed. -/
def Signals (s t : State) : Prop :=
  t.cmd = { s.cmd with pend := t.cmd.pend, pba := t.cmd.pba, intN := t.cmd.intN } ∧ Sends s t

section Signals

variable {s t u : State}

theorem Signals.trans (h : Signals s t) (k : Signals t u) : Signals s u := by
  refine ⟨?_, h.2.trans k.2⟩
  have hk := k.1
  rw [h.1] at hk
  exact hk

theorem Signals.foldl {α : Type} {f : State → α → State} (h : ∀ t x, Signals t (f t x)) (l : List α) (s : State) :
    Signals s (l.foldl f s) := by
  induction l generalizing s with
  | nil => exact ⟨rfl, .refl s⟩
  | cons x l ih => exact (h s x).trans (ih (f s x))

theorem signals_signal (v : Nat) : Signals s (signal s v) := by
  unfold signal
  split
  · exact ⟨rfl, .refl s⟩
  · exact ⟨rfl, _, rfl⟩

theorem signals_signalAll : Signals s (signalAll s) := by
  unfold signalAll
  refine Signals.trans (.foldl (fun t v => ?_) _ _) ⟨rfl, .refl _⟩
  have hpend : Signals t { t with cmd := { t.cmd with
      pend := if vecPend t v then t.cmd.pend ||| BitVec.ofNat 42 (2 ^ v) else t.cmd.pend &&& ~~~(BitVec.ofNat 42 (2 ^ v)) } } :=
    ⟨rfl, .refl t⟩
  dsimp only
  split
  · exact hpend.trans (signals_signal v)
  · exact hpend

end Signals

/-! ### A quiet state -/

/-- The row's own rises are over; nothing else of the end of a row finds anything to do. -/
theorem settle_quiet {s : State} (h : Quiet s) : settle s = signalAll (updPins (endRises s)) := by
  obtain ⟨htodo, hwaits, hnext⟩ := h
  have hnext' : nextQueue (endRises s) = none := hnext
  rw [settle, takeTodo_nil 64 (s := endRises s) htodo, pollWaits_nil (s := endRises s) hwaits, rejectUnknown_idle 64 hnext',
    takeTodo_nil 64 (s := endRises s) htodo]

/-- Settles O6: each part of the state through the pins' update and the interrupt outputs. -/
theorem quietRowsEndInPinsAndInterruptsOnly : Obligations.QuietRowsEndInPinsAndInterruptsOnly := by
  intro s h
  have hsig := signals_signalAll (s := updPins (endRises s))
  have hrind : (updPins (endRises s)).rind =
      { s.rind with firstNow := false, tripN := (updPins (endRises s)).rind.tripN, safeN := (updPins (endRises s)).rind.safeN } := by
    unfold updPins
    dsimp only
    split <;> rfl
  have hboot : (updPins (endRises s)).boot = { s.boot with
      gpioDrive := (updPins (endRises s)).boot.gpioDrive, gpioOut := (updPins (endRises s)).boot.gpioOut
      pllLd := (updPins (endRises s)).boot.pllLd, clkOut := (updPins (endRises s)).boot.clkOut } := by
    unfold updPins
    dsimp only
    split <;> rfl
  obtain ⟨hcmd, out, htx⟩ := hsig
  rw [updPins_cmd] at hcmd
  rw [updPins_tx] at htx
  simp only [settle_quiet h, signalAll_rind, signalAll_boot]
  refine ⟨?_, ?_, ?_, ?_, ?_, ?_, ?_, ?_, ?_, ?_, ?_, ?_, ?_, ?_, ?_, ?_, ?_, ?_, ?_, ?_, ?_, hrind, hboot, hcmd, out, htx⟩
  all_goals simp [endRises]

/-! ### Reset -/

/-- At reset the start-up condition holds TRIP_N, both reset pins are high and PLL_LD is held (log entries 5, 6). -/
theorem pinsFollow_reset : PinsFollow State.reset := by
  refine ⟨fun _ => ⟨?trip, ?safe⟩, ?idle, ?clocks⟩
  case trip => rfl
  case safe => rfl
  case idle => rfl
  case clocks => decide +kernel

/-- Settles O5: the tables of the reset state are empty, so that no lock, no switch and no command is left to look at. -/
theorem resetMeetsTheInvariants : Obligations.ResetMeetsTheInvariants := by
  refine ⟨rfl, pinsFollow_reset, by simp [LocksApart, State.reset], fun c => legsSafe_of_gates_zero rfl, rfl, rfl, ?_⟩
  decide +kernel

/-- Settles O15: both values by computation. -/
theorem crcCheckValues : Obligations.CrcCheckValues := by
  constructor
  · decide +kernel
  · decide +kernel

end Sys2Proof.Machine

/-!
PROOFS. Unassigned addresses of BAR0, the triggers that a lock suspends, and the lane counters.
-/
namespace Sys2Proof.Machine

/-! ### Unassigned addresses -/

theorem readBar_unassigned {s : State} {a : Nat} (hreg : regAt a = none) (hcurd : a < 0x100000 ∨ 0x224000 ≤ a)
    (hrind : a < 0x300000 ∨ 0x39B400 ≤ a) : readBar s a = (0, s) := by
  have hpoints : ¬(0x100000 ≤ a ∧ a < 0x224000) := by omega
  have hwindow : ¬(0x300000 ≤ a ∧ a < 0x39B400) := by omega
  simp [readBar, hreg, hpoints, hwindow]

theorem writeBar_unassigned {direct : Bool} {owner : Option Nat} {s : State} {a w : Nat} (hreg : regAt a = none)
    (hboot : a < 0x1000000 ∨ 0x1800000 ≤ a) : writeBar direct owner s a w = s := by
  have hwindow : ¬(a % 4 = 0 ∧ 0x1000000 ≤ a ∧ a < 0x1800000) := by omega
  simp [writeBar, hreg, hwindow]

/-- Settles O20: no register lies at or above the windows, so what no register, window or boot window holds is left. -/
theorem unassignedAddressesReadZero : Obligations.UnassignedAddressesReadZero :=
  ⟨fun _ _ hreg hcurd hrind => readBar_unassigned hreg hcurd hrind,
    fun _ _ _ _ _ hreg hboot => writeBar_unassigned hreg hboot,
    fun _ hlow _ => regAt_eq_none_of_ge hlow, fun _ hlow _ => regAt_eq_none_of_ge (by omega)⟩

/-! ### Triggers while a queue holds a lock -/

/-- A row that only triggers an action is a guarded action of the core domain. -/
theorem exec_triggerRow {i : Instr} {s : State} (h : triggerRow i = true) : ∃ f, exec i s = onCore s fun t => barWo t f := by
  cases i
  case laneCommit | laneEyeCtlStop | laneCntClr | stuTpCfgArm | pressCtlBankCommit | pressCtlBankCopy
      | cellarPeakClr | vatCtlCommit | vatCntClr | modeCtlStart | modeCtlStop | modeCtlRestart | twinCntClr
      | twinCfgSwap | twinCfgCalibrate | affCtlAccept | affCtlReject | affCtlEpochNow | sysBootCtlGo | harpDbgCtlHalt
      | harpDbgCtlResume | wheyLinkCommit | wlCntClr | stuCommit | curdCommit | harpCommit | pressCtlCfgCommit
      | cheddaringCommit | modeCtlCommit | affinageCommit | rindCommit | cellarCommit | starterStuTimeCommit
      | commandBlockCommit | wlDiscCtlStart => exact ⟨_, rfl⟩
  all_goals exact absurd h Bool.false_ne_true

theorem sqTailWrite_inside {s : State} {q w : Nat} (h : bitsAt w 0 12 < queueSize s q) :
    sqTailWrite s q w = setFld s .cmdSqTail_tail q (bitsAt w 0 12) := by
  simp [sqTailWrite, h]

theorem hostKick_valid (s : State) : hostKick s 0xA5 = { s with rind := { s.rind with wdK := s.frame.k } } := rfl

/-- Settles O23: a held lock turns the guarded action into the `bar_refused` bit, and the two exempt rows are not guarded. -/
theorem triggersAreIgnoredWhileLocked : Obligations.TriggersAreIgnoredWhileLocked := by
  refine ⟨fun i s htrigger hclock hlocks => ?_, fun s hclock _ => ?_, fun q v s hclock _ hinside => ?_⟩
  · obtain ⟨f, harm⟩ := exec_triggerRow (s := s) htrigger
    rw [harm, onCore_clocked hclock, barWo_held hlocks]
  · have harm : exec (.rindHostwdKick 0xA5) s = onCore s fun s => hostKick s 0xA5 := rfl
    rw [harm, onCore_clocked hclock, hostKick_valid]
  · have harm : exec (.cmdSqTailDoorbell q v) s = onCore s fun s => sqTailWrite s q v.toNat := rfl
    rw [harm, onCore_clocked hclock, sqTailWrite_inside hinside]

/-! ### Lane counters -/

/-- The counter registers of a lane and their saturation register, all in one block of 64 bytes per lane. -/
def laneCounters : List RegName := [.laneCntHdr, .laneCntStuff, .laneCntFill, .laneCntAbort, .laneCntLol, .laneCntSat]

theorem laneCntClr_eq (s : State) (m : Nat) :
    laneCntClr s m = (below 28 (bitAt m)).foldl (fun t n => laneCounters.foldl (fun t r => putWord t r n 0) t) s := rfl

theorem laneCounters_place : ∀ r ∈ laneCounters,
    r.place.first = 0 ∧ r.place.stride = 64 ∧ 0x30000 ≤ r.place.addr ∧ r.place.addr < 0x30040 := by decide

theorem laneCounters_inj : ∀ r ∈ laneCounters, ∀ q ∈ laneCounters, r.place.addr = q.place.addr → r = q := by decide

theorem laneCounters_addr_inj {r q : RegName} {i j : Nat} (hr : r ∈ laneCounters) (hq : q ∈ laneCounters)
    (heq : r.addr i = q.addr j) : r = q ∧ i = j := by
  obtain ⟨hfirst, hstride, hlow, hhigh⟩ := laneCounters_place r hr
  obtain ⟨hfirst', hstride', hlow', hhigh'⟩ := laneCounters_place q hq
  simp only [RegName.addr, hfirst, hstride, hfirst', hstride', Nat.sub_zero] at heq
  exact ⟨laneCounters_inj r hr q hq (by omega), by omega⟩

/-- Zeroing registers of lane n: what a counter of lane j reads afterwards. -/
theorem rword_zeroLane (l : List RegName) (hl : ∀ q ∈ l, q ∈ laneCounters) (s : State) {r : RegName} (hr : r ∈ laneCounters) (n j : Nat)
    (hmem : n = j → r ∈ l ∨ rword s r j = 0) :
    rword (l.foldl (fun t q => putWord t q n 0) s) r j = if n = j then 0 else rword s r j := by
  induction l generalizing s with
  | nil => by_cases h : n = j <;> simp_all
  | cons q l ih =>
    rw [List.foldl_cons, ih (fun x hx => hl x (List.mem_cons_of_mem _ hx))]
    · by_cases h : n = j
      · simp [h]
      · simp only [h, if_false]
        exact rword_putWord_ne _ _ _ _ _ _ fun e => h (laneCounters_addr_inj hr (hl q List.mem_cons_self) e).2.symm
    · rintro rfl
      by_cases hrq : r = q
      · rw [hrq]
        exact .inr (rword_putWord_same _ _ _ _)
      · rw [rword_putWord_ne _ _ _ _ _ _ fun e => hrq (laneCounters_addr_inj hr (hl q List.mem_cons_self) e).1]
        exact (hmem rfl).imp_left fun h => (List.mem_cons.1 h).resolve_left hrq

theorem rword_clearLanes (l : List Nat) (s : State) {r : RegName} (hr : r ∈ laneCounters) (j : Nat) :
    rword (l.foldl (fun t n => laneCounters.foldl (fun t q => putWord t q n 0) t) s) r j = if j ∈ l then 0 else rword s r j := by
  induction l generalizing s with
  | nil => simp
  | cons n l ih =>
    rw [List.foldl_cons, ih, rword_zeroLane _ (fun _ h => h) s hr n j (fun _ => .inl hr)]
    by_cases hmem : j ∈ l
    · simp [hmem]
    · simp only [hmem, if_false, List.mem_cons, or_false, eq_comm (a := j)]

theorem rword_setBit_same (s : State) (r : RegName) (i b : Nat) (hb : b < 32) : bitAt (rword (setBit s r i b true) r i) b = true := by
  have hbits : bitsAt (putBits (rword s r i) b 1 (b2n true)) b 1 = 1 := bitsAt_putBits _ _ _ _
  rw [setBit, rword_putWord_same, bitAt, Nat.testBit_mod_two_pow, Nat.testBit_eq_decide_div_mod_eq]
  simpa [bitsAt, hb] using hbits

theorem rword_setBit_ne (s : State) (r q : RegName) (i j b : Nat) (v : Bool) (h : q.addr j ≠ r.addr i) :
    rword (setBit s r i b v) q j = rword s q j := rword_putWord_ne _ _ _ _ _ _ h

theorem countSat_fits {s : State} {r sat : RegName} {n b k : Nat} (h : rword s r n + k < 2 ^ 32) :
    countSat s r sat n b k = putWord s r n (rword s r n + k) := by
  simp only [countSat, h, if_true]

theorem countSat_full {s : State} {r sat : RegName} {n b k : Nat} (h : 2 ^ 32 ≤ rword s r n + k) :
    countSat s r sat n b k = setBit (putWord s r n (2 ^ 32 - 1)) sat n b true := by
  simp only [countSat, Nat.not_lt.2 h, if_false]

theorem countSat_other {s : State} {r sat q : RegName} {n b k i : Nat} (hr : q.addr i ≠ r.addr n) (hsat : q.addr i ≠ sat.addr n) :
    rword (countSat s r sat n b k) q i = rword s q i := by
  rcases Nat.lt_or_ge (rword s r n + k) (2 ^ 32) with h | h
  · rw [countSat_fits h, rword_putWord_ne _ _ _ _ _ _ hr]
  · rw [countSat_full h, rword_setBit_ne _ _ _ _ _ _ _ hsat, rword_putWord_ne _ _ _ _ _ _ hr]

theorem countSat_counts {s : State} {r sat : RegName} {n b k : Nat} (hne : r.addr n ≠ sat.addr n) (hb : b < 32) :
    rword (countSat s r sat n b k) r n = min (rword s r n + k) (2 ^ 32 - 1) ∧
    (2 ^ 32 ≤ rword s r n + k → bitAt (rword (countSat s r sat n b k) sat n) b = true) ∧
    (rword s r n + k < 2 ^ 32 → rword (countSat s r sat n b k) sat n = rword s sat n) := by
  refine ⟨?_, fun h => ?_, fun h => ?_⟩
  · rcases Nat.lt_or_ge (rword s r n + k) (2 ^ 32) with h | h
    · rw [countSat_fits h, rword_putWord_same]; omega
    · rw [countSat_full h, rword_setBit_ne _ _ _ _ _ _ _ hne, rword_putWord_same]; omega
  · rw [countSat_full h]; exact rword_setBit_same _ _ _ _ hb
  · rw [countSat_fits h, rword_putWord_ne _ _ _ _ _ _ hne.symm]

/-- Settles O24. -/
theorem laneCountersStopAndClear : Obligations.LaneCountersStopAndClear := by
  refine ⟨fun s n k j r hmem _ => ?_, fun s m n r hr hn => ?_⟩
  · have hpair : r.addr n ≠ RegName.laneCntSat.addr n ∧ j < 32 := by
      simp only [List.mem_cons, Prod.mk.injEq, List.not_mem_nil, or_false] at hmem
      rcases hmem with ⟨rfl, rfl⟩ | ⟨rfl, rfl⟩ | ⟨rfl, rfl⟩ | ⟨rfl, rfl⟩ | ⟨rfl, rfl⟩ <;>
        simp [RegName.addr, RegName.place]
    obtain ⟨hcount, hset, hkeep⟩ := countSat_counts (s := s) (k := k) hpair.1 hpair.2
    exact ⟨hcount, hset, hkeep, fun _ _ => countSat_other⟩
  · rw [laneCntClr_eq, rword_clearLanes _ _ hr]
    simp [below, hn]

end Sys2Proof.Machine

/-!
PROOFS. What a packet whose turn has come does: a failing check, a lock in the way, the order of the queues.
-/
namespace Sys2Proof.Machine

/-! ### Completions -/

/-- A reply that fits its space is delivered as it is (R319). -/
theorem finish_eq_answer {s : State} {p : Packet} {st res : Nat} {reply : List Byte} (hfit : reply.length ≤ replySpace s p) :
    finish s p st res reply = answer s p st res reply := by
  simp only [finish, finishAt, answer, Nat.not_lt.2 hfit, if_false]

theorem finish_nil (s : State) (p : Packet) (st res : Nat) : finish s p st res [] = answer s p st res [] :=
  finish_eq_answer (Nat.zero_le _)

theorem finishSt_eq_answer (s : State) (p : Packet) (st : Nat) : finishSt s p st = answer s p st 0 [] := finish_nil s p st 0

theorem finishData_eq_answer {s : State} {p : Packet} {reply : List Byte} (hfit : reply.length ≤ replySpace s p) :
    finishData s p reply = answer s p stOk reply.length reply := finish_eq_answer hfit

/-! ### The checks of R318 -/

section Perform
variable {s : State} {r : OpRule} {p : Packet} {body : State → State}

theorem replayOf_eq_none (hnew : noReplay s p = true) : replayOf s p = none := by
  simpa [noReplay] using hnew

theorem perform_fails (hnew : noReplay s p = true) (hcheck : preCheck s r p ≠ stOk) : perform s r p body =
    answer (noteRefused s r.op (preCheck s r p)) p (preCheck s r p) 0 [] := by
  simp only [perform, replayOf_eq_none hnew, ne_eq, hcheck, not_false_eq_true, if_true, finishSt_eq_answer]

theorem perform_locked {t : State} {st res : Nat} (hnew : noReplay s p = true) (hcheck : preCheck s r p = stOk)
    (hgate : lockGate s p.queue.toNat (r.targets s p) = (t, some (st, res))) :
    perform s r p body = answer (noteRefused t r.op st) p st res [] := by
  simp only [perform, replayOf_eq_none hnew, hcheck, ne_eq, not_true_eq_false, if_false, hgate, finish_nil]

theorem noteRefused_other {op st : Nat}
    (h : op ∉ [0x0501, 0x0502, 0x0503] ∨ st ∉ [stConvState, stLockout, stLocked, stLockExpired]) : noteRefused s op st = s := by
  unfold noteRefused
  rw [if_neg]
  rw [Bool.and_eq_true, List.contains_iff_mem, List.contains_iff_mem]
  tauto

theorem noteRefused_start {op st : Nat} (hop : op ∈ [0x0501, 0x0502, 0x0503])
    (hst : st ∈ [stConvState, stLockout, stLocked, stLockExpired]) :
    noteRefused s op st = setFld s .modeSts_start_refused 0 1 := by
  unfold noteRefused
  rw [if_pos]
  rw [Bool.and_eq_true, List.contains_iff_mem, List.contains_iff_mem]
  exact ⟨hop, hst⟩

theorem preCheck_badHeader (h : headerOk s (BitVec.ofNat 16 r.op) p = false) : preCheck s r p = stBadHeader := by
  simp [preCheck, h]

theorem preCheck_notReady (h : headerOk s (BitVec.ofNat 16 r.op) p = true) (hready : s.boot.ready = false)
    (hop : r.op ∉ recoveryOps) : preCheck s r p = stBadOpcode := by
  simp [preCheck, h, hready, hop]

/-- After ready and outside the status queue, the checks left are those from the length on. -/
theorem preCheck_running (h : headerOk s (BitVec.ofNat 16 r.op) p = true) (hready : s.boot.ready = true)
    (hstatus : s.boot.statusQueue = false) : preCheck s r p =
      if !r.lenOk p.params || !sizeOk s p then stBadLength
      else if !scopeOk s r p then stBadScope
      else if s.rind.lockout && r.lockout p.params then stLockout
      else if standby s && r.standby then stConvState
      else if s.boot.holdBus && r.holdBus p.params then stConvState
      else stOk := by
  simp [preCheck, h, hready, hstatus]

end Perform

/-- A scope word puts phase, branch, cell and selector into the fields of R317. -/
theorem scopeWord_fields {b c sel : Nat} (hb : b < 12) (hc : c < 64) :
    bitsAt (b / 4 + 4 * (b % 4) + 16 * c + 4096 * sel) 0 2 = b / 4 ∧
    bitsAt (b / 4 + 4 * (b % 4) + 16 * c + 4096 * sel) 2 2 = b % 4 ∧
    bitsAt (b / 4 + 4 * (b % 4) + 16 * c + 4096 * sel) 4 6 = c ∧
    bitsAt (b / 4 + 4 * (b % 4) + 16 * c + 4096 * sel) 10 2 = 0 ∧
    bitsAt (b / 4 + 4 * (b % 4) + 16 * c + 4096 * sel) 12 4 = sel % 16 := by
  have hphase : b / 4 < 3 := by omega
  have hbranch : b % 4 < 4 := by omega
  generalize b / 4 = p, b % 4 = r at hphase hbranch ⊢
  simp only [bitsAt, Nat.reducePow]
  refine ⟨?_, ?_, ?_, ?_, ?_⟩ <;> omega

theorem cmdScope_cell {s : State} {b c sel : Nat} {x : CmdScope} (hb : b < 12) (hc : c < 64) (hsel : sel < 14)
    (h : cmdScope s (b / 4 + 4 * (b % 4) + 16 * c + 4096 * sel) = some x) :
    brPresent s b = true ∧ c ≤ 47 ∧ (getLink s (48 * b + c)).inMap = true ∧ x.num = 48 * b + c := by
  obtain ⟨hp, hbr, hcell, hzero, hcode⟩ := scopeWord_fields (sel := sel) hb hc
  have hsel16 : sel % 16 = sel := by omega
  have hbranch : 4 * (b / 4) + b % 4 = b := by omega
  rw [cmdScope] at h
  simp only [hp, hbr, hcell, hzero, hcode, hsel16, hbranch] at h
  rw [if_neg (by simp), if_neg (by omega : ¬sel = 15)] at h
  split at h
  case isTrue => cases h
  rename_i hpresent
  rw [if_neg (by omega : ¬sel = 14)] at h
  split at h
  case isTrue => cases h
  rename_i hmap
  have hx : x.num = 48 * b + c := by
    split at h
    · cases h; rfl
    · split at h <;> (cases h; rfl)
  simp only [not_or, Bool.not_eq_true', Bool.not_eq_false] at hpresent hmap
  exact ⟨hpresent.2, by omega, hmap.2, hx⟩

/-- Settles O21. -/
theorem refusedPacketsOnlyComplete : Obligations.RefusedPacketsOnlyComplete := by
  refine ⟨fun s s0 r p body hturn hnew hcheck => ?_, fun _ _ _ h => noteRefused_other h, fun _ _ _ hop hst => noteRefused_start hop hst,
    fun _ _ _ h => preCheck_badHeader h, fun _ _ _ h hready hop => preCheck_notReady h hready hop, ?length, ?scope, ?lockout, ?standby,
    fun _ _ _ _ _ hb hc hsel h => cmdScope_cell hb hc hsel h⟩
  case length =>
    intro s r p h hready hstatus hlen
    simp [preCheck_running h hready hstatus, hlen]
  case scope =>
    intro s r p h hready hstatus hlen hsize hscope
    simp [preCheck_running h hready hstatus, hlen, hsize, scopeOk, hscope]
  case lockout =>
    intro s r p h hready hstatus hlen hsize hscope hlock hl
    simp [preCheck_running h hready hstatus, hlen, hsize, hscope, hlock, hl]
  case standby =>
    intro s r p h hready hstatus hlen hsize hscope hlock hstand hs
    simp [preCheck_running h hready hstatus, hlen, hsize, hscope, hlock, hstand, hs]
  rw [onCmd_of_turn hturn, perform_fails hnew hcheck]

/-! ### Locks in the way -/

/-- The state in which the hold of a queue's own locks over the keys has started again. -/
def heldAgain (s : State) (q : Nat) (keys : List LockKey) : State :=
  { s with cmd := { s.cmd with locks := s.cmd.locks.map (holdAgain s q keys) } }

theorem lockGate_eq (s : State) (q : Nat) (keys : List LockKey) : lockGate s q keys =
    if (getQ s q).expired.any fun k => keys.any (overlap k) then
      (modQ (heldAgain s q keys) q fun x => { x with expired := x.expired.filter fun k => !keys.any (overlap k) }, some (stLockExpired, 0))
    else match s.cmd.locks.find? fun l => l.queue ≠ q && keys.any (overlap l.key) with
      | some l => (heldAgain s q keys, some (stLocked, l.queue))
      | none => (heldAgain s q keys, none) := rfl

section Gate
variable {s : State} {q : Nat} {keys : List LockKey}

theorem lockGate_other {l : Lock} (hexp : ∀ k ∈ (getQ s q).expired, ¬∃ t ∈ keys, overlap k t = true)
    (hfind : (s.cmd.locks.find? fun l => l.queue ≠ q && keys.any (overlap l.key)) = some l) :
    lockGate s q keys = (heldAgain s q keys, some (stLocked, l.queue)) := by
  have hnone : ((getQ s q).expired.any fun k => keys.any (overlap k)) = false := by
    simpa using hexp
  rw [lockGate_eq, hnone, hfind]
  rfl

theorem lockGate_expired {k t : LockKey} (hk : k ∈ (getQ s q).expired) (ht : t ∈ keys) (hover : overlap k t = true) :
    (lockGate s q keys).2 = some (stLockExpired, 0) := by
  have hany : ((getQ s q).expired.any fun k => keys.any (overlap k)) = true :=
    List.any_eq_true.2 ⟨k, hk, List.any_eq_true.2 ⟨t, ht, hover⟩⟩
  rw [lockGate_eq, if_pos hany]

theorem mem_holdAgain {l : Lock} (h : l ∈ s.cmd.locks.map (holdAgain s q keys)) :
    l ∈ s.cmd.locks ∨ (l.queue = q ∧ l.since = nowQ s ∧ ∃ k ∈ keys, overlap l.key k = true) := by
  obtain ⟨x, hx, rfl⟩ := List.mem_map.1 h
  unfold holdAgain
  split
  · rename_i hown
    exact .inr ⟨hown.1, rfl, List.any_eq_true.1 hown.2⟩
  · exact .inl hx

theorem holdAgain_hold (l : Lock) : (holdAgain s q keys l).hold = l.hold := by
  unfold holdAgain
  split <;> rfl

/-- The gate changes nothing but the holds of locks and a queue's list of broken ones. -/
theorem lockGate_frame : (lockGate s q keys).1 = { s with cmd := (lockGate s q keys).1.cmd } ∧
    (lockGate s q keys).1.cmd =
      { s.cmd with locks := (lockGate s q keys).1.cmd.locks, queues := (lockGate s q keys).1.cmd.queues } := by
  rw [lockGate_eq]
  split
  · exact ⟨rfl, rfl⟩
  · split <;> exact ⟨rfl, rfl⟩

end Gate

/-- Settles O22. -/
theorem locksTurnCommandsAway : Obligations.LocksTurnCommandsAway := by
  refine ⟨fun s s0 r p body l hturn hnew hcheck hexp hfind => ?_, fun s s0 r p body k t hturn hnew hcheck hk ht hover => ?_,
    fun s q keys => ?_⟩
  · have hgate := lockGate_other hexp hfind
    rw [onCmd_of_turn hturn, perform_locked hnew hcheck hgate, hgate]
  · have hgate : lockGate s0 p.queue.toNat (r.targets s0 p) =
        ((lockGate s0 p.queue.toNat (r.targets s0 p)).1, some (stLockExpired, 0)) := Prod.ext rfl (lockGate_expired hk ht hover)
    rw [onCmd_of_turn hturn, perform_locked hnew hcheck hgate]
  · obtain ⟨hstate, hcmd⟩ := lockGate_frame (s := s) (q := q) (keys := keys)
    refine ⟨hstate, ?_, hcmd, fun l hl => mem_holdAgain (lockGate_locks s q keys ▸ hl)⟩
    rw [lockGate_locks, List.map_map]
    refine List.map_congr_left fun l _ => ?_
    obtain ⟨hqueue, hkey⟩ := holdAgain_queue_key s q keys l
    simp only [Function.comp_apply, hqueue, hkey, holdAgain_hold]

end Sys2Proof.Machine

/-!
PROOFS. The order of the queues, writes that are all or nothing, the start conditions, and completions on the three transports.
-/
namespace Sys2Proof.Machine

/-! ### The order of the queues (R321) -/

theorem find_reverse_range (p : Nat → Bool) (n q : Nat) :
    (List.range n).reverse.find? p = some q ↔ q < n ∧ p q = true ∧ ∀ m, q < m → m < n → p m = false := by
  induction n with
  | zero => simp
  | succ n ih =>
    rw [List.range_succ, List.reverse_append, List.reverse_singleton, List.singleton_append, List.find?_cons]
    cases hn : p n with
    | true =>
      simp only [Option.some.injEq]
      constructor
      · rintro rfl
        exact ⟨Nat.lt_succ_self _, hn, fun m hlow hhigh => by omega⟩
      · rintro ⟨hq, -, hlast⟩
        by_contra hne
        have hfalse := hlast n (by omega) (Nat.lt_succ_self n)
        rw [hn] at hfalse
        cases hfalse
    | false =>
      simp only [ih]
      constructor
      · rintro ⟨hq, hp, hlast⟩
        refine ⟨by omega, hp, fun m hlow hhigh => ?_⟩
        rcases Nat.lt_succ_iff_lt_or_eq.1 hhigh with h | rfl
        · exact hlast m hlow h
        · exact hn
      · rintro ⟨hq, hp, hlast⟩
        have hne : q ≠ n := by rintro rfl; rw [hn] at hp; cases hp
        exact ⟨by omega, hp, fun m hlow hhigh => hlast m hlow (by omega)⟩

section Queues
variable {s t : State} {r : OpRule} {p : Packet} {body : State → State}

/-- A packet that arrives at an empty queue and has to wait joins its queue. -/
theorem runCmd_waits (hserved : served s = true) (hq : p.queue.toNat < 32) (hmode : (getQ s p.queue.toNat).mode = .active)
    (hempty : (getQ s p.queue.toNat).ready = []) (harrives : arrives s p = (true, t)) (hturn : mayStart t p.queue.toNat = false)
    (hnew : replayOf t p = none) : runCmd s r p body = enqueue t p.queue.toNat (BitVec.ofNat 16 r.op, p) := by
  simp [runCmd, hserved, Nat.not_le.2 hq, hmode, hempty, harrives, hturn, hnew]

/-- A packet that its transport does not take leaves what its arrival leaves. -/
theorem runCmd_notTaken (hserved : served s = true) (hq : p.queue.toNat < 32) (hempty : (getQ s p.queue.toNat).ready = [])
    (harrives : arrives s p = (false, t)) : runCmd s r p body = t := by
  simp [runCmd, hserved, Nat.not_le.2 hq, hempty, harrives]

theorem udpArrives_notTaken {q port mac ip src : Nat} (h : udpArrives s q port mac ip src = (false, t)) : t = s ∨ t = dropped s q := by
  unfold udpArrives at h
  split at h
  · exact .inl (Prod.ext_iff.1 h).2.symm
  · split at h
    · cases h
    · exact .inr (Prod.ext_iff.1 h).2.symm

theorem spiArrives_notTaken (h : spiArrives s = (false, t)) : t = s ∨ t = dropped s (spiQueue s) := by
  unfold spiArrives at h
  dsimp only at h
  split at h
  · exact .inl (Prod.ext_iff.1 h).2.symm
  · split at h
    · exact .inr (Prod.ext_iff.1 h).2.symm
    · cases h

/-- A packet that its transport does not take has at most its count of drops. -/
theorem arrives_notTaken (h : arrives s p = (false, t)) : t = s ∨ t = dropped s p.queue.toNat := by
  unfold arrives at h
  dsimp only at h
  split at h
  · exact .inl (Prod.ext_iff.1 h).2.symm
  · exact udpArrives_notTaken h
  · split at h
    · rename_i hqueue
      rw [hqueue]
      exact spiArrives_notTaken h
    · exact .inl (Prod.ext_iff.1 h).2.symm

end Queues

/-- Settles O28. -/
theorem highestReadyQueueStartsNext : Obligations.HighestReadyQueueStartsNext := by
  refine ⟨fun s q => find_reverse_range _ _ _, ?waits, ?dropped, fun s q h => by simp [mayStart, h]⟩
  case waits =>
    intro s r p body hclock hserved hq hmode hempty t harrives hturn hnew
    rw [onCmd, onCore_clocked hclock, runCmd_waits hserved hq hmode hempty harrives hturn hnew]
  case dropped =>
    intro s r p body hclock hserved hq hempty t harrives
    rw [onCmd, onCore_clocked hclock, runCmd_notTaken hserved hq hempty harrives]
    exact ⟨rfl, arrives_notTaken harrives⟩

/-! ### Writes that are all or nothing (R339, R141) -/

theorem firstFail_shift (f : Nat × Nat → Nat) (l : List (Nat × Nat)) (k i st : Nat) : firstFail f l k = some (i, st) ↔
    ∃ j, i = k + j ∧ j < l.length ∧ f (l.getD j (0, 0)) = st ∧ st ≠ stOk ∧ ∀ m, m < j → f (l.getD m (0, 0)) = stOk := by
  induction l generalizing k with
  | nil => simp [firstFail]
  | cons x l ih =>
    rw [firstFail]
    by_cases hx : f x = stOk
    · rw [if_neg (not_not.2 hx), ih]
      constructor
      · rintro ⟨j, rfl, hlen, hfail, hst, hfirst⟩
        refine ⟨j + 1, by omega, by simpa using hlen, by simpa using hfail, hst, fun m hm => ?_⟩
        cases m with
        | zero => simpa using hx
        | succ m => simpa using hfirst m (by omega)
      · rintro ⟨j, rfl, hlen, hfail, hst, hfirst⟩
        cases j with
        | zero => exact absurd (hfail.symm.trans hx) hst
        | succ j =>
          exact ⟨j, by omega, by simpa using hlen, by simpa using hfail, hst, fun m hm => by simpa using hfirst (m + 1) (by omega)⟩
    · rw [if_pos hx]
      constructor
      · rintro h
        cases h
        exact ⟨0, rfl, by simp, by simp, hx, by simp⟩
      · rintro ⟨j, rfl, hlen, hfail, hst, hfirst⟩
        cases j with
        | zero => simpa using hfail
        | succ j => exact absurd (by simpa using hfirst 0 (by omega)) hx

theorem firstFail_iff (f : Nat × Nat → Nat) (l : List (Nat × Nat)) (i st : Nat) : firstFail f l 0 = some (i, st) ↔
    i < l.length ∧ f (l.getD i (0, 0)) = st ∧ st ≠ stOk ∧ ∀ j, j < i → f (l.getD j (0, 0)) = stOk := by
  rw [firstFail_shift]
  simp

/-- Settles O25: the checks run over all pairs before the first write. -/
theorem paramWriteIsAllOrNothing : Obligations.ParamWriteIsAllOrNothing := by
  refine ⟨fun s t p i st hstart hfail => ?_, firstFail_iff, fun s r i pid v hpid hpresent hro => ?_, fun s r i pid v hpid habsent => ?_,
    fun s pid v hpid => by simp [writeCheck, hpid]⟩
  · refine (onCmd_of_start hstart).trans ?_
    simp only [hfail, finish_nil]
  · simp [writeCheck, hpid, hpresent, hro]
  · simp [writeCheck, writeParam, writeReg, hpid, habsent]

theorem sx_mod (v : Nat) : sx 16 (v % 65536) = sx 16 v := by
  simp [sx]

theorem pointCheck_writer {s : State} {pa v : Nat} (hpa : pa < 299008) (hwriter : writerOf pa ≠ 7) :
    pointCheck s (pa, v) = stReadOnly := by
  simp [pointCheck, Nat.not_le.2 hpa, hwriter]

theorem pointCheck_range {s : State} {pa v : Nat} (hpa : pa < 299008) (hwriter : writerOf pa = 7) (hthere : ptAbsent s pa = false)
    (hrange : sx 16 v < h2i (getDesc s (descIdx pa)).min ∨ h2i (getDesc s (descIdx pa)).max < sx 16 v) :
    pointCheck s (pa, v) = stRange := by
  simp [pointCheck, Nat.not_le.2 hpa, hwriter, hthere, sx_mod, hrange]

/-- The host writes no point of a cell (Tables 05-1 and 05-3). -/
theorem writerOf_cell {pa : Nat} (h : pa < 294912) : writerOf pa ≠ 7 := by
  simp only [writerOf, h, if_true]
  split_ifs <;> decide

/-- Settles O26. -/
theorem pointWriteRefusesWithoutEffect : Obligations.PointWriteRefusesWithoutEffect := by
  refine ⟨fun s t p i st hstart hfail => ?_, fun _ _ _ hpa hwriter => pointCheck_writer hpa hwriter,
    fun _ _ _ hpa hwriter hthere hrange => pointCheck_range hpa hwriter hthere hrange, fun _ h => writerOf_cell h⟩
  refine (onCmd_of_start hstart).trans ?_
  simp only [hfail, finishSt_eq_answer]

/-! ### The start conditions (R238) -/

theorem hostStart_refused {s : State} (hhold : s.boot.holdBus = false) (hconv : s.mode.conv = .parked) (hok : startOk s = false) :
    hostStart s = (setFld s .modeSts_start_refused 0 1, false) := by
  simp [hostStart, convStart, hhold, hconv, hok]

theorem asked_refused {p : Packet} {s : State} : asked p (s, false) = answer s p stConvState 0 [] := finishSt_eq_answer s p stConvState

theorem asked_taken {p : Packet} {s : State} : asked p (s, true) = answer s p stOk 0 [] := finish_nil s p stOk 0

theorem tripLive_eq_false {s : State} (h : tripLive s = false) (n : Nat) (x : Src) (hmem : (n, x) ∈ s.rind.src) (hlive : x.live = true) :
    appliedOf s n x.detail < 3 := by
  by_contra hge
  have htrue : tripLive s = true := List.any_eq_true.2 ⟨(n, x), hmem, by simp [hlive]; omega⟩
  rw [h] at htrue
  cases htrue

/-- Settles O29. -/
theorem startsNeedTheirConditions : Obligations.StartsNeedTheirConditions := by
  refine ⟨fun s t p hstart hhold hconv hok => ?_, fun s hok => ?_, fun s hstandby => ?_⟩
  · refine (onCmd_of_start hstart).trans ?_
    rw [hostStart_refused hhold hconv hok, asked_refused]
  · simp only [startOk, Bool.and_eq_true, Bool.or_eq_true, bne_iff_ne, beq_iff_eq, Bool.not_eq_true', List.all_eq_true] at hok
    obtain ⟨⟨⟨⟨⟨⟨⟨⟨_, hrun⟩, _⟩, hsvc⟩, htrip⟩, hdisc⟩, hlocked⟩, htest⟩, hgrid⟩ := hok
    refine ⟨hrun, hsvc, tripLive_eq_false htrip, hdisc, hlocked, fun h => htest.resolve_left (not_not.2 h), fun h => ?_⟩
    have hdead := hgrid.resolve_left (not_not.2 h)
    cases hsrc : rtSrc s 0 with
    | none => simp [hsrc] at hdead
    | some v => exact ⟨v, rfl, by simpa [hsrc] using hdead⟩
  · simp [convStart, convStop, convRestart, hstandby]

/-! ### Completions on the three transports (R319, R326, R330, R331) -/

theorem completionB_fields {p : Packet} {ph : Bool} {st sq res k : Nat} (hst : st < 2 ^ 16) (hsq : sq < 2 ^ 16) (hres : res < 2 ^ 32)
    (hk : k < 2 ^ 32) :
    let b := completionB p ph st sq res k
    b.length = 16 ∧ fieldAt b 0 2 = p.tag.toNat ∧ byteAt b 2 = p.queue.toNat ∧ byteAt b 3 = b2n ph ∧ fieldAt b 4 2 = st ∧
    fieldAt b 6 2 = sq ∧ fieldAt b 8 4 = res ∧ fieldAt b 12 4 = k := by
  have htag := p.tag.isLt
  have hqueue := p.queue.isLt
  have hphase : b2n ph < 256 := by cases ph <;> decide
  simp only [completionB, List.append_assoc, byteAt_eq_fieldAt, fieldAt_append_right, fieldAt_leB_append, fieldAt_leB, length_leB,
    List.length_append, Nat.reduceLeDiff, Nat.reduceSub, Nat.reducePow]
  refine ⟨trivial, ?_, ?_, ?_, ?_, ?_, ?_, ?_⟩ <;> omega

section Transports
variable {s : State} {p : Packet} {st res k : Nat} {reply : List Byte}

theorem deliver_pcie (hpcie : p.transport = 0) (hactive : (getQ s p.queue.toNat).mode = .active) (haddr : p.reply < 2 ^ 64) :
    deliver s p st res k reply =
      let q := p.queue.toNat
      let x := getQ s q
      let a := rword s .cmdCqBaseLo q + 2 ^ 32 * rword s .cmdCqBaseHi q + 16 * x.cqTail
      let n := (x.cqTail + 1) % queueSize s q
      modQ (send (if reply.isEmpty then s else send s (.dma p.reply reply)) (.dma a (completionB p x.phase st x.sqHead res k))) q
        fun x => { x with cqTail := n, phase := if n = 0 then !x.phase else x.phase } := by
  simp only [deliver, hactive, hpcie, Nat.not_le.2 haddr, reduceCtorEq, if_false, if_true]

theorem deliver_farReply (hpcie : p.transport = 0) (hactive : (getQ s p.queue.toNat).mode = .active) (haddr : 2 ^ 64 ≤ p.reply) :
    deliver s p st res k reply = qError s p.queue.toNat 3 := by
  simp only [deliver, hactive, hpcie, haddr, reduceCtorEq, if_false, if_true]

theorem deliver_udp (hudp : p.transport = 1) (hactive : (getQ s p.queue.toNat).mode = .active) :
    deliver s p st res k reply =
      let l := completionB p false st 0 res k ++ reply
      send (modQ s p.queue.toNat fun x =>
          { x with replay := (x.replay ++ [Done.mk p.tag p.crc l]).drop (x.replay.length + 1 - 16) })
        (.udp (p.reply % 2) (p.reply / 2 ^ 49) (p.reply / 2 ^ 17 % 2 ^ 32) (p.reply / 2 % 65536) l) := by
  simp [deliver, hactive, hudp]

theorem deliver_spi (hspi : p.transport = 2) (hactive : (getQ s p.queue.toNat).mode = .active) :
    deliver s p st res k reply =
      modQ s p.queue.toNat fun x => { x with spi := some (completionB p false st 0 res k ++ reply) } := by
  simp [deliver, hactive, hspi]

theorem finish_tooLong (h : replySpace s p < reply.length) :
    finish s p st res reply = deliver s p stReplySpace (if p.transport = 1 then udpLimit s else 0) (s.frame.k % 2 ^ 32) [] := by
  simp only [finish, finishAt, h, if_true]

end Transports

/-- The newest stored answer stays when the store gives up its oldest. -/
theorem getLast?_replay {α : Type} (l : List α) (x : α) : ((l ++ [x]).drop (l.length + 1 - 16)).getLast? = some x := by
  rw [List.getLast?_drop, if_neg (by simp), List.getLast?_concat]

/-- Settles O27. -/
theorem completionsFollowTheirTransport : Obligations.CompletionsFollowTheirTransport := by
  refine ⟨fun p ph st sq res k => completionB_fields, ?pcie, fun s p st res k reply => deliver_farReply, ?udp, ?spi,
    fun s p st res reply => finish_tooLong⟩
  case pcie =>
    intro s p st res k reply hpcie hactive haddr
    dsimp only
    rw [deliver_pcie hpcie hactive haddr]
    refine ⟨?_, ?_, fun m hm => ?_⟩
    · cases reply <;> simp [send, modQ]
    · cases reply <;> exact getQ_modQ_same _ _ _
    · cases reply <;> exact (getQ_modQ _ _ _ _).trans (if_neg hm)
  case udp =>
    intro s p st res k reply hudp hactive
    dsimp only
    rw [deliver_udp hudp hactive]
    refine ⟨rfl, ?_⟩
    dsimp only
    rw [show ∀ (u : State) (x : Tx) (n : Nat), getQ (send u x) n = getQ u n from fun _ _ _ => rfl, getQ_modQ_same]
    exact getLast?_replay _ _
  case spi =>
    intro s p st res k reply hspi hactive
    rw [deliver_spi hspi hactive, getQ_modQ_same]

end Sys2Proof.Machine

/-!
PROOFS. What the rows of chapters 02 and 03 do: each is a function of the core domain, taken at the case its statement names.
-/
namespace Sys2Proof.Machine

/-! ### Rows of the core domain -/

section Rows
variable {s t u : State} {f : State → State}

/-- A row of the core domain ends in the state its meaning gives, settled. -/
theorem onCore_eq (hclock : clocked s = true) (hf : f s = t) : onCore s f = .next (settle t) := by
  rw [onCore_clocked hclock, hf]

/-- A write that triggers an action, while no queue holds a lock. -/
theorem onCore_barWo (hclock : clocked s = true) (hlocks : s.cmd.locks = []) (hf : f s = t) :
    (onCore s fun s => barWo s f) = .next (settle t) :=
  onCore_eq hclock ((barWo_free hlocks).trans hf)

/-- A command that starts ends in the state its meaning gives, settled. -/
theorem onCmd_eq {r : OpRule} {p : Packet} (hstart : startOf s r p = some t) (hf : f t = u) :
    onCmd s r p f = .next (settle u) := by
  rw [onCmd_of_start hstart, hf]

end Rows

/-! ### Frame rows -/

/-- Settles O30. -/
theorem frameRowsComplete : Obligations.FrameRowsComplete := by
  refine ⟨?boundary, ?first, ?snapshot, ?prepare, ?fresh, ?stale, ?third, ?count, ?epoch⟩
  case boundary =>
    intro s hclock hrun
    change execFrameBoundary s = _
    refine onCore_eq hclock (if_pos ?_)
    simpa [modCk] using hrun
  case first =>
    intro s hclock hrun
    change execFrameBoundary s = _
    refine onCore_eq hclock (if_neg ?_)
    simpa [modCk] using hrun
  case snapshot =>
    intro s hclock hrun hsnap
    change execFrameSnapshot s = _
    exact onCore_eq hclock (if_neg (by simp [hrun, hsnap]))
  case prepare =>
    intro s hclock hsnap
    refine ⟨fun hmode hentering => ?_, fun hgated => ?_⟩ <;> change execPreparePhase s = _
    · refine onCore_eq hclock ((if_neg (by simp [hsnap])).trans (if_neg ?_))
      simp only [hmode, hentering, ne_eq, not_true_eq_false, Bool.false_eq_true, or_self, not_false_eq_true]
    · exact onCore_eq hclock ((if_neg (by simp [hsnap])).trans (if_pos hgated))
  case fresh =>
    intro c s hclock hmay hnew
    change execHarpListSend c s = _
    exact onCore_eq hclock (by simp only [hmay, hnew, Bool.not_true, Bool.false_eq_true, if_false, if_true])
  case stale =>
    intro c s hclock hmay hnew
    change execHarpListSend c s = _
    exact onCore_eq hclock (by simp only [hmay, hnew, Bool.not_true, Bool.false_eq_true, if_false])
  case third =>
    intro c s hclock hmay hnew hcount
    change execStaleThirdFrame c s = _
    exact onCore_eq hclock (if_pos ⟨hmay, by simp [hnew], hcount⟩)
  case count =>
    intro s hclock
    change execStuFrmCntLoRead s = _
    exact onCore_eq hclock rfl
  case epoch =>
    intro s hclock
    change execStuFrmEpochSRead s = _
    exact onCore_eq hclock rfl

/-! ### Lane rows -/

/-- A MARK takes one slab, so that one that does not fit stands for all. -/
theorem gap_of_mark_waits {x : LaneTx} {b64 : Bool} {m y : SlabType × List Byte} (hmark : m.1 = .mark)
    (hfull : (isGap b64 m.1 || decide (x.gap + (slabsOf b64 m.1 m.2).length ≤ 1023)) = false) :
    1023 < x.gap + (slabsOf b64 .mark y.2).length := by
  rw [hmark, Bool.or_eq_false_iff, decide_eq_false_iff_not, Nat.not_le] at hfull
  exact hfull.2

theorem mem_of_filter_find {α : Type} {p r : α → Bool} {q : List α} {m : α} (h : (q.find? p).filter r = some m) : m ∈ q ∧ p m = true := by
  obtain ⟨hfind, -⟩ := Option.filter_eq_some_iff.1 h
  exact ⟨List.mem_of_find?_eq_some hfind, List.find?_some hfind⟩

/-- A MARK that fits starts before any message but a burst or a PARK (R74). -/
theorem nextMessage_spec {x : LaneTx} {b64 : Bool} {q : List (SlabType × List Byte)} {m : SlabType × List Byte}
    (h : nextMessage x b64 q = some m) :
    m ∈ q ∧ (m.1 ≠ .park → m.1 ≠ .train → x.cur = [] ∧ ∀ y ∈ q, y.1 ≠ .park ∧ y.1 ≠ .train) ∧
    (m.1 = .link ∨ m.1 = .first → ∀ y ∈ q, y.1 = .mark → 1023 < x.gap + (slabsOf b64 .mark y.2).length) := by
  unfold nextMessage at h
  dsimp only at h
  split at h
  case h_1 | h_2 => cases h
  split at h
  case h_1 | h_2 =>
    rename_i hfind
    cases h
    have htype := List.find?_some hfind
    have hmem := List.mem_of_find?_eq_some hfind
    simp only [beq_iff_eq] at htype
    simp [hmem, htype]
  rename_i htrain hpark
  have hnone : ∀ y ∈ q, y.1 ≠ .park ∧ y.1 ≠ .train := fun y hy =>
    ⟨by simpa using List.find?_eq_none.1 hpark y hy, by simpa using List.find?_eq_none.1 htrain y hy⟩
  split at h
  · cases h
  rename_i hcur
  have hidle : x.cur = [] := by simpa using hcur
  refine (and_congr_right fun _ => and_congr_left fun _ => iff_true_intro fun _ _ => ⟨hidle, hnone⟩).2 ?_
  simp only [List.findSome?_cons, List.findSome?_nil, id] at h
  split at h
  · rename_i hmark
    cases h
    obtain ⟨hmem, htype⟩ := mem_of_filter_find hmark
    simp only [beq_iff_eq] at htype
    exact ⟨hmem, trivial, by simp [htype]⟩
  · rename_i hmark
    have hgap : ∀ y ∈ q, y.1 = .mark → 1023 < x.gap + (slabsOf b64 .mark y.2).length := by
      intro y hy htype
      cases hfind : q.find? fun m => m.1 == .mark with
      | none => exact absurd htype (by simpa using List.find?_eq_none.1 hfind y hy)
      | some m0 =>
        rw [hfind] at hmark
        refine gap_of_mark_waits (m := m0) (by simpa using List.find?_some hfind) ?_
        simpa using hmark
    refine ⟨?_, trivial, fun _ => hgap⟩
    iterate 4
      split at h
      · cases h
        exact (mem_of_filter_find ‹_›).1
    cases h

theorem lockNeed_pos (b64 : Bool) : 0 < lockNeed b64 := by cases b64 <;> decide

/-- Settles O31. -/
theorem laneEventsComplete : Obligations.LaneEventsComplete := by
  refine ⟨?train, ?lstat, ?eidle, ?heard, ?lock, ?signal, ?buffer, ?checked, ?failed, ?retry, ?keep, ?park, ?headers, ⟨rfl, rfl⟩,
    fun _ _ _ _ => nextMessage_spec⟩
  case train =>
    intro n s hclock hlane
    change execTrain (.lane n) s = _
    rw [execTrain]
    exact onCore_eq hclock (if_pos hlane)
  case lstat =>
    intro n r t l s hclock hrun hvalid
    change execLstat (.lane n) (.slabs r) s = _
    rw [execLstat]
    exact onCore_eq hclock ((onRun_one hrun).trans (if_pos hvalid))
  case eidle =>
    intro n r s hclock
    change execEidle (.lane n r) s = _
    rw [execEidle]
    exact onCore_eq hclock rfl
  case heard =>
    intro n want b s
    refine ⟨rfl, fun hup => ?_, fun hup hdegr => ?_⟩
    · simp only [heardIdle, hup, if_true]
    · simp only [heardIdle, hup, hdegr, or_self, if_false]
  case lock =>
    intro n r s hclock
    constructor
    · change execSlabLockGained ⟨n, r⟩ s = _
      exact onCore_eq hclock rfl
    · change execSlabLockLost ⟨n, false, r⟩ s = _
      exact onCore_eq hclock (if_neg (by simp))
  case signal =>
    intro n r s hclock hlane
    change execSlabLockLost ⟨n, true, r⟩ s = _
    exact onCore_eq hclock (if_pos ⟨rfl, hlane⟩)
  case buffer =>
    intro n s hclock hlane
    change execElasticBufferFault n s = _
    exact onCore_eq hclock (if_pos hlane)
  case checked =>
    intro n s hclock hmode htrained hretry hlock hlink
    have hcheck : ¬((getLane s n).mode ≠ .training ∨ (getLane s n).trained = true ∨ (getLane s n).retry = true) := by
      simp [hmode, htrained, hretry]
    refine ⟨fun hkeep => ?_, fun hkeep => ?_⟩ <;> change execTrainingCheckPoint n s = _
    · refine onCore_eq hclock ((if_neg hcheck).trans ((if_pos ⟨hlock, hlink⟩).trans (if_neg ?_)))
      simp [hkeep]
    · exact onCore_eq hclock ((if_neg hcheck).trans ((if_pos ⟨hlock, hlink⟩).trans (if_pos hkeep)))
  case failed =>
    intro n s hclock hmode htrained hretry hlock
    change execTrainingCheckPoint n s = _
    exact onCore_eq hclock ((if_neg (by simp [hmode, htrained, hretry])).trans (if_neg (by simp [hlock])))
  case retry =>
    intro n s hclock hmode henable hsince hlane hready
    change execLaneRetry n s = _
    exact onCore_eq hclock (if_pos (by simp [retryDue, mayTry, hmode, henable, hsince, hlane, hready]))
  case keep =>
    intro n r s hclock t hpower hmode h24 h25 hkeep hdue
    change execKeepAlive n r s = _
    exact onCore_eq hclock (if_pos (by simp [keepDue, t, hpower, hmode, h24, h25, hkeep, hdue] ))
  case park =>
    intro n l s hclock hpend
    change execParkIdleRepeat n s = _
    exact onCore_eq hclock (by simp only [hpend])
  case headers =>
    intro n s hlock
    refine ⟨fun hneed => ?_, ?_⟩
    · simp [rxHead, hlock, hneed]
    · simp [rxHead, hlock, Nat.not_le.2 (lockNeed_pos _)]

/-! ### Health windows -/

theorem eqWindow_held {s : State} {n : Nat} {steps : List EqStep} (hfree : (getLane s n).rx.eqFree = false)
    (hheld : eqIsHeld s n = true) : eqWindow s n steps = eqWindow s n [] := by
  simp only [eqWindow, hfree, hheld, Bool.not_true, Bool.or_self, Bool.false_eq_true, if_false]

theorem eqWindow_nil (s : State) (n : Nat) : eqWindow s n [] =
    setC (modRx s n fun r => { r with errs := 0, eqEdges := eqMask (rword s .laneEq n), eqFree := !eqIsHeld s n }) (186 + n)
      ((getLane s n).rx.eqEdges != 0) (BitVec.ofNat 32 n) := by
  simp only [eqWindow, List.foldl_nil, ite_self]

theorem eqWindow_free {s : State} {n : Nat} {steps : List EqStep}
    (hfree : (getLane s n).rx.eqFree = true ∨ eqIsHeld s n = false) :
    eqWindow s n steps = eqWindow (steps.foldl (eqTake n) s) n [] := by
  have hcond : ((getLane s n).rx.eqFree || !eqIsHeld s n) = true := by
    rcases hfree with h | h <;> simp [h]
  rw [eqWindow_nil]
  simp only [eqWindow, hcond, if_true]

/-- Settles O32. -/
theorem healthWindowsComplete : Obligations.HealthWindowsComplete := by
  intro n hdr st fi steps s hclock hlane errs counted t
  have hrow : ∀ u, (match (getLane s n).mode with
      | .up => if failHdr s ≤ errs then laneDown t n else if degrHdr s ≤ errs ∨ !eyeGood s n then degrade t n else t
      | .degraded =>
        if failHdr s ≤ errs then laneDown t n
        else if degrHdr s ≤ errs then modLane t n fun x => { x with goodWins := 0 }
        else if 1 ≤ (getLane s n).goodWins ∧ eyeGood s n then
          setC (modLane t n fun x => { x with mode := .up, goodWins := 0 }) (130 + n) false 0
        else modLane t n fun x => { x with goodWins := x.goodWins + 1 }
      | _ => t) = u → exec (.laneHealthWindow n hdr st fi steps) s = .next (settle u) := by
    intro u hu
    change execLaneHealthWindow n hdr st fi steps s = _
    exact onCore_eq hclock ((if_neg (by simp [hlane])).trans hu)
  refine ⟨eqWindow_held, eqWindow_free, fun hup hdegr => hrow _ ?_, fun hmode hfail => hrow _ ?_, fun hmode hfail hdegr => hrow _ ?_,
    fun hmode hfail hdegr heye => hrow _ ?_, fun hmode hfail hdegr hwins heye => hrow _ ?_⟩
  · cases hmode : (getLane s n).mode <;> simp_all
  · rcases hmode with hmode | hmode <;> simp only [hmode, hfail, if_true]
  · simp only [hmode, Nat.not_le.2 hfail, hdegr, if_false, true_or, if_true]
  · simp [hmode, Nat.not_le.2 hfail, Nat.not_le.2 hdegr, heye]
  · simp [hmode, Nat.not_le.2 hfail, Nat.not_le.2 hdegr, hwins, heye]

/-! ### Eye scans and the lane block's writes -/

theorem dumpEyes_lanes (s : State) : (dumpEyes s).lanes = s.lanes := by
  unfold dumpEyes
  split
  · rfl
  · exact foldl_keeps (·.lanes) _ (by intro t a; rfl) _ _

theorem getLane_countFld (s : State) (f : Fld) (i n : Nat) : getLane (countFld s f i) n = getLane s n := rfl

/-- Settles O33. -/
theorem eyeAndLaneWritesComplete : Obligations.EyeAndLaneWritesComplete := by
  refine ⟨?map, ?start, ?stop, ?clear, ?commit⟩
  case map =>
    intro n tick counts e s hclock hscan hmode d hpoint hcont m
    change execEyeMapComplete n tick counts s = _
    have hlane : (getLane (countFld (modLane (dumpEyes { s with cave := { s.cave with eyeDump := s.cave.eyeDump ++ [(n.val, m)] } }) n
        fun x => { x with eye := some (eyeOf counts), scan := none }) .laneEyeCtl_map_count n) n).mode = .degraded := by
      rw [getLane_countFld, getLane_modLane_same, getLane, dumpEyes_lanes]
      exact hmode
    refine onCore_eq hclock ?_
    simp only [hscan, hmode, d, m, hpoint, hcont, hlane, beq_self_eq_true, Bool.or_true, Bool.not_true, Bool.false_eq_true, Nat.lt_irrefl,
      or_self, if_false, reduceCtorEq, false_and]
  case start =>
    intro n v s hclock hlocks hlane t hscan
    change execLaneEyeCtlStart n v s = _
    refine onCore_eq hclock ((if_neg (by simp [hlane])).trans ((barWo_free ?_).trans (if_neg ?_)))
    · exact hlocks
    · change ¬(getLane s n).scan.isSome = true
      simp [hscan]
  case stop =>
    intro n s hclock hlocks
    change execLaneEyeCtlStop n s = _
    exact onCore_barWo hclock hlocks rfl
  case clear =>
    intro m s hclock hlocks
    change execLaneCntClr m s = _
    exact onCore_barWo hclock hlocks rfl
  case commit =>
    intro s hclock hlocks
    change execLaneCommit s = _
    exact onCore_barWo hclock hlocks rfl

end Sys2Proof.Machine

/-!
PROOFS. What the rows of the Whey link do at the device (chapter 04).
-/
namespace Sys2Proof.Machine

/-! ### Messages of a cell -/

section Chain
variable {s t u : State} {c : Nat} {n : LaneNo} {r : SlabRun} {want : Nat} {ty typ : SlabType} {f : State → List Byte → State}
  {l : List Byte}

/-- A run that completes one message of a cell on a lane of its branch. -/
theorem onChain_one (hclock : clocked s = true) (hbranch : n.val / 2 = c / 48) (hrun : receive s n (fun _ => want) r = (t, [(ty, l)]))
    (hf : f t l = u) : onChain s c (.lane n r) want ty typ f = .next (settle u) := by
  rw [onChain]
  exact onCore_eq hclock ((onRun_one hrun).trans ((if_pos hbranch).trans hf))

theorem onChain_node (s : State) (x : Cell) (p : Bool) :
    onChain s c (.node x p l) want ty typ f = .next (fwdUp s x p typ l) := rfl

theorem relayPart_relayed (hrelay : (getBr s (c / 48)).relay = true) :
    relayPart s c l = peerOut s .first (leB 1 0x11 ++ leB 1 (c / 48) ++ l) := if_pos hrelay

end Chain

theorem uplinkTail_ok {s : State} {c : Nat} {h l : List Byte} (hmap : (getLink s c).inMap = true) (hsnap : s.frame.snapped = false)
    (hhead : (getLink s c).head = some h) (hok : uplinkOk s c h l = true) : uplinkTail s c l = uplinkAccept s c h l := by
  simp only [uplinkTail, hmap, hsnap, hhead, hok, Bool.not_true, Bool.false_eq_true, if_false, if_true]

/-- A U-MARK of the chain's own cell, on a chain lane of a device that is no standby. -/
theorem markHeard_taken {s : State} {n c : Nat} {a : Int} {m : List Byte} (hn : n < 24) (hbranch : n / 2 = c / 48)
    (hstandby : standby s = false) (hmap : (getLink s c).inMap = true) (hsafe : s.clk.onSafe = false)
    (hok : shortOk (laneCoding s n) m = true) (hkind : byteAt m 0 % 16 = 2) (hpos : byteAt m 1 = c % 48) :
    markHeard s n c a m = modLink s c fun x => { x with umark := some (a, sx 32 (fieldAt m 2 4)) } := by
  simp [markHeard, uplinkMark, hn, hbranch, hstandby, hmap, hsafe, hok, hkind, hpos]

/-! ### Splits and discovery -/

theorem healCheck_healed {s : State} {b : Nat} (hauto : flag s .wlBrCfg_auto_resplit b = true) (hresplit : (getBr s b).resplit = true)
    (hbroken : (getBr s b).broken = false) (hhealed : 64 ≤ (getBr s b).healed) : healCheck s b =
      if targetSplit s b = splitGoal s b then modBr s b fun y => { y with resplit := false }
      else resplitTo (modBr s b fun y => { y with resplit := false }) b (targetSplit s b) :=
  if_pos ⟨hauto, hresplit, by simp [hbroken], hhealed⟩

theorem discCheck_matches {s : State} {b : Nat} (hdisc : (getBr s b).disc = .acquiring)
    (hlocked : ((mapCells s b).all fun c => (getLink s c).timeLocked) = true) (hmatch : discMismatch s b = false) :
    discCheck s b = discEnds (setC (modBr s b fun x => { x with mapDone := true }) (254 + b) false (BitVec.ofNat 32 b)) b .done := by
  simp only [discCheck, hdisc, hlocked, hmatch, and_self, if_true, Bool.false_eq_true, if_false]

/-- Settles O34. -/
theorem wheyEventsComplete : Obligations.WheyEventsComplete := by
  refine ⟨?head, ?headRelay, ?tail, ?tailRelay, ?mark, ?node, ?nodeMark, ?loss, ?terr, ?heal, ?resplit, ?enum, ?enumStandby, ?reply,
    ?start, ?complete⟩
  case head =>
    intro c n r t l s hclock hbranch hrun hstandby hmap
    change execUplinkHead c (.lane n r) s = _
    exact onChain_one hclock hbranch hrun (by simp only [hstandby, Bool.false_eq_true, if_false, uplinkHead, hmap, if_true])
  case headRelay =>
    intro c n r t l s hclock hbranch hrun hstandby hrelay
    change execUplinkHead c (.lane n r) s = _
    exact onChain_one hclock hbranch hrun ((if_pos hstandby).trans (relayPart_relayed hrelay))
  case tail =>
    intro c n r t l h s hclock hbranch hrun hstandby hmap hsnap hhead hok
    change execUplinkTail c (.lane n r) s = _
    exact onChain_one hclock hbranch hrun ((if_neg (by simp [hstandby])).trans (uplinkTail_ok hmap hsnap hhead hok))
  case tailRelay =>
    intro c n r t l s hclock hbranch hrun hstandby hrelay
    change execUplinkTail c (.lane n r) s = _
    exact onChain_one hclock hbranch hrun ((if_pos hstandby).trans (relayPart_relayed hrelay))
  case mark =>
    intro c a n r t l s hclock hn hbranch hrun hstandby hmap hsafe m hok hkind hpos
    change execUMark c a (.lane n r) s = _
    rw [execUMark]
    exact onCore_eq hclock ((onRun_one hrun).trans (markHeard_taken hn hbranch hstandby hmap hsafe hok hkind hpos))
  case node =>
    intro c x p l s
    exact ⟨rfl, rfl, rfl, rfl, rfl⟩
  case nodeMark =>
    intro c x a p l s hok
    change execUMark c a (.node x p l) s = _
    rw [execUMark]
    exact congrArg Host.Outcome.next (if_neg (by simp [hok]))
  case loss =>
    intro c s hclock hmap hmiss
    change execUplinkLoss c s = _
    exact onCore_eq hclock (by simp only [uplinkLossCheck, hmap, hmiss, decide_true, Bool.and_true])
  case terr =>
    intro c s hclock hrun
    change execWlTimeError c s = _
    exact onCore_eq hclock (by simp only [timeErrorCheck, hrun, decide_true])
  case heal =>
    intro b s hclock hauto hresplit hbroken hhealed htarget
    change execResplitHeal b s = _
    exact onCore_eq hclock ((healCheck_healed hauto hresplit hbroken hhealed).trans (if_pos htarget))
  case resplit =>
    intro b s hclock hauto hresplit hbroken hhealed htarget
    change execResplitHeal b s = _
    exact onCore_eq hclock ((healCheck_healed hauto hresplit hbroken hhealed).trans (if_neg htarget))
  case enum =>
    intro b e r t l k s hclock hrun hheard hstandby hdisc
    change execEnumAtOppositeEnd b e r s = _
    refine onCore_eq hclock ((onRun_one hrun).trans ?_)
    simp only [hheard, hstandby, hdisc, Bool.false_eq_true, ne_eq, not_true_eq_false, if_false]
  case enumStandby =>
    intro b e r t l k s hclock hrun hheard hstandby
    change execEnumAtOppositeEnd b e r s = _
    exact onCore_eq hclock ((onRun_one hrun).trans (by simp only [hheard, hstandby, if_true]))
  case reply =>
    intro b e r t l k s hclock hrun hheard hdisc
    change execEnumEndReply b e r s = _
    exact onCore_eq hclock ((onRun_one hrun).trans (by simp only [hheard, hdisc, ne_eq, not_true_eq_false, if_false]))
  case start =>
    intro s hclock hready hrun
    change execDiscoveryStart s = _
    exact onCore_eq hclock (if_pos ⟨hready, hrun⟩)
  case complete =>
    intro b s hclock hdisc hlocked hmatch
    change execDiscoveryComplete b s = _
    exact onCore_eq hclock (discCheck_matches hdisc hlocked hmatch)

/-! ### Bulk answers -/

section Bulk
variable {s : State} {c op n : Nat} {l : List Byte} {x : Bulk} {write : Option Bool} {res : BulkRes}

theorem byteAt_of_bulkOk (h : bulkOk l op n = true) : byteAt l 1 = op := by
  simp only [bulkOk, Bool.and_eq_true, beq_iff_eq] at h
  exact h.1.2

theorem bulkAnswer_ends (hx : (getLink s c).bulk = some x) (htag : fieldAt l 2 2 = x.tag.toNat) (hok : bulkOk l op n = true)
    (hkind : ∀ w, write = some w → x.write = w) : bulkAnswer s c l op n write res = bulkEnd s c res := by
  cases write with
  | none => simp [bulkAnswer, hx, htag, hok]
  | some w => simp [bulkAnswer, hx, htag, hok, hkind w rfl]

theorem bulkHeard_taken (hop : byteAt l 1 = op) (hstandby : standby s = false) : bulkHeard op c s l = bulkTake s c l := by
  simp only [bulkHeard, hop, hstandby, ne_eq, not_true_eq_false, Bool.false_eq_true, if_false]

theorem bulkTake_readRsp (hop : byteAt l 1 = 0x81) (hx : (getLink s c).bulk = some x) (hlen : x.len = byteAt l 7) :
    bulkTake s c l = bulkAnswer s c l 0x81 (byteAt l 7) (some false) (.data ((l.drop 8).take (byteAt l 7))) := by
  simp only [bulkTake, hop, hx, hlen, if_true]

theorem bulkTake_writeAck (hop : byteAt l 1 = 0x82) : bulkTake s c l = bulkAnswer s c l 0x82 0 (some true) .ack := by
  simp only [bulkTake, hop]

theorem bulkTake_error (hop : byteAt l 1 = 0xC0) : bulkTake s c l = bulkAnswer s c l 0xC0 1 none (.error (byteAt l 8)) := by
  simp only [bulkTake, hop]

end Bulk

/-- Settles O35. -/
theorem wheyBulkAndWritesComplete : Obligations.WheyBulkAndWritesComplete := by
  refine ⟨?answers, ?again, ?timeout, ?commit, ?clear, ?disc⟩
  case answers =>
    intro c n r t l x s hclock hbranch hrun hstandby hx htag
    refine ⟨fun hwrite hlen hok => ?_, fun hwrite hok => ?_, fun hok => ?_⟩ <;> have hop := byteAt_of_bulkOk hok
    · change execBulkReadRsp c (.lane n r) s = _
      refine onChain_one hclock hbranch hrun ((bulkHeard_taken hop hstandby).trans ((bulkTake_readRsp hop hx hlen).trans ?_))
      rw [← hlen]
      exact bulkAnswer_ends hx htag hok (by simp [hwrite])
    · change execBulkWriteAck c (.lane n r) s = _
      refine onChain_one hclock hbranch hrun ((bulkHeard_taken hop hstandby).trans ((bulkTake_writeAck hop).trans ?_))
      exact bulkAnswer_ends hx htag hok (by simp [hwrite])
    · change execBulkError c (.lane n r) s = _
      refine onChain_one hclock hbranch hrun ((bulkHeard_taken hop hstandby).trans ((bulkTake_error hop).trans ?_))
      exact bulkAnswer_ends hx htag hok (by simp)
  case again =>
    intro c x s hclock hx htries
    change execBulkTimeout c s = _
    exact onCore_eq hclock (by simp only [hx, htries, if_true])
  case timeout =>
    intro c x s hclock hx htries
    change execBulkTimeout c s = _
    exact onCore_eq hclock (by simp only [hx, Nat.not_lt.2 htries, if_false])
  case commit =>
    intro s hclock hlocks _
    change execWheyLinkCommit s = _
    exact onCore_barWo hclock hlocks rfl
  case clear =>
    intro m s hclock hlocks
    change execWlCntClr m s = _
    exact onCore_barWo hclock hlocks rfl
  case disc =>
    intro m s hclock hlocks
    change execWlDiscCtlStart m s = _
    exact onCore_barWo hclock hlocks rfl

end Sys2Proof.Machine

/-!
PROOFS. What the rows of a cell node do (chapter 04).
-/
namespace Sys2Proof.Machine

/-! ### A node behind its ports -/

/-- A node without its ports and its count of dropped messages: what forwarding leaves alone. -/
def Node.core (x : Node) : Node := { x with txA := NodeTx.zero, txB := NodeTx.zero, fwdDrop := 0 }

theorem core_modPort (x : Node) (p : Bool) (f : NodeTx → NodeTx) : (modPort x p f).core = x.core := by
  cases p <;> rfl

theorem Node.mode_of_core {x y : Node} (h : x.core = y.core) : x.mode = y.mode := (congrArg Node.mode h :)
theorem Node.token_of_core {x y : Node} (h : x.core = y.core) : x.token = y.token := (congrArg Node.token h :)
theorem Node.locked_of_core {x y : Node} (h : x.core = y.core) : x.locked = y.locked := (congrArg Node.locked h :)
theorem Node.splitOn_of_core {x y : Node} (h : x.core = y.core) : x.splitOn = y.splitOn := (congrArg Node.splitOn h :)
theorem Node.announce_of_core {x y : Node} (h : x.core = y.core) : x.announce = y.announce := (congrArg Node.announce h :)
theorem Node.pos_of_core {x y : Node} (h : x.core = y.core) : x.pos = y.pos := (congrArg Node.pos h :)
theorem Node.path_of_core {x y : Node} (h : x.core = y.core) : x.path = y.path := (congrArg Node.path h :)
theorem Node.ignoreMarks_of_core {x y : Node} (h : x.core = y.core) : x.ignoreMarks = y.ignoreMarks := (congrArg Node.ignoreMarks h :)

section Core
variable {s : State} {c : Nat}

theorem modNode_congr {f g : Node → Node} (h : f (getNode s c) = g (getNode s c)) : modNode s c f = modNode s c g := by
  unfold getNode at h
  simp only [modNode, tmod, h]

theorem getNode_send (x : Tx) (d : Nat) : getNode (send s x) d = getNode s d := rfl

theorem getNode_sends (ls : List (SlabType × List Byte)) (p : Bool) (d : Nat) :
    getNode (ls.foldl (fun t m => send t (.node c p m.2)) s) d = getNode s d := by
  unfold getNode
  rw [foldl_keeps (·.nodes) _ (by intro t a; rfl)]

theorem core_portStart (p own : Bool) (ls : List (SlabType × List Byte)) :
    (getNode (portStart s c p own ls) c).core = (getNode s c).core := by
  rw [portStart, getNode_sends, getNode_modNode_same, core_modPort]

theorem core_forward (p : Bool) (t : SlabType) (l : List Byte) : (getNode (forward s c p t l) c).core = (getNode s c).core := by
  unfold forward
  dsimp only
  split
  · exact core_portStart _ _ _
  · split
    · rw [getNode_modNode_same, core_modPort]
    · rw [getNode_modNode_same]; rfl

theorem core_fwdAcross (p : Bool) (l : List Byte) : (getNode (fwdAcross s c p l) c).core = (getNode s c).core := by
  unfold fwdAcross
  split
  · exact core_forward _ _ _
  · rfl

theorem core_fwdDown (p : Bool) (t : SlabType) (l : List Byte) : (getNode (fwdDown s c p t l) c).core = (getNode s c).core := by
  unfold fwdDown
  dsimp only
  split
  · exact core_forward _ _ _
  · split
    · split
      · exact core_forward _ _ _
      · rfl
    · rfl

/-- What a node does behind a forwarded message depends on its own fields alone. -/
theorem modNode_fwdDown_congr {p : Bool} {t : SlabType} {l : List Byte} {f g : Node → Node}
    (hfg : ∀ y : Node, y.core = (getNode s c).core → f y = g y) : modNode (fwdDown s c p t l) c f = modNode (fwdDown s c p t l) c g :=
  modNode_congr (hfg _ (core_fwdDown _ _ _))

theorem getNode_parkOut (p : Bool) (l : List Byte) : getNode (parkOut s c p l) c =
    modPort (getNode s c) p fun t => { t with own := 0, fwd := 3, parts := [] } := by
  have hcount : slabCount (getNode s c).coding [(.park, l)] = 3 := by simp [slabCount, slabsOf]
  simp only [parkOut, getNode_send, getNode_modNode_same]
  rw [← hcount]
  cases p <;> rfl

theorem core_fwdPark (p : Bool) (l : List Byte) : (getNode (fwdPark s c p l) c).core = (getNode s c).core := by
  unfold fwdPark
  split
  · rw [getNode_parkOut, core_modPort]
  · rfl

end Core

/-! ### Events of a node -/

theorem onNode_eq {s t : State} {f : State → State} (hf : f s = t) : onNode s f = .next t := congrArg _ hf

/-- Settles O36. -/
theorem nodeEventsComplete : Obligations.NodeEventsComplete := by
  refine ⟨fun _ _ => rfl, fun _ _ _ => rfl, fun _ _ _ _ => rfl, ?miss, ?list, ?fire, ?acquired, ?lost, ?lostRun, ?dc, ?head, ?tail,
    ?confirm, fun _ _ => rfl, fun _ _ _ => rfl, fun _ _ _ => rfl, fun _ _ _ => rfl, ?lstat, fun _ _ _ _ => rfl⟩
  case miss =>
    intro c s hrun hmiss
    change execNodeListMiss c s = _
    rw [execNodeListMiss]
    exact onNode_eq (modNode_congr (if_pos ⟨hrun, hmiss⟩))
  case list =>
    intro c pB tick bytes s hseen hpos hcount htoken hserve htick hnew hform
    change execEdgeList c pB tick bytes s = _
    obtain ⟨⟨h, e⟩, htok, rfl⟩ := Option.map_eq_some_iff.1 htoken
    obtain ⟨⟨p, q⟩, hsrv, rfl⟩ := Option.map_eq_some_iff.1 hserve
    rw [execEdgeList]
    refine onNode_eq ((if_neg (by simp [hseen, hpos])).trans (if_pos ?_))
    rcases hcount with hcount | hcount <;>
      simp_all only [Bool.not_false, Bool.true_or, beq_self_eq_true, Bool.or_true, decide_true, Option.isNone_none, Bool.and_self]
  case fire =>
    intro c i d e s hget hrun hfresh
    change execEdgeFire c i d s = _
    rw [execEdgeFire]
    refine onNode_eq ?_
    simp only [hget]
    exact if_pos ⟨hrun, by simpa using hfresh⟩
  case acquired =>
    intro c s hlock hgood
    change execNodeTimeLockAcquired c s = _
    rw [execNodeTimeLockAcquired]
    exact onNode_eq (modNode_congr (if_pos ⟨by simp [hlock], hgood⟩))
  case lost =>
    intro c s hlock hbad hmode
    change execNodeTimeLockLost c s = _
    rw [execNodeTimeLockLost]
    exact onNode_eq (modNode_congr ((if_pos ⟨hlock, hbad⟩).trans (if_neg hmode)))
  case lostRun =>
    intro c s hlock hbad hmode
    change execNodeTimeLockLost c s = _
    rw [execNodeTimeLockLost]
    exact onNode_eq (modNode_congr ((if_pos ⟨hlock, hbad⟩).trans (if_pos hmode)))
  case dc =>
    intro c v s hmode hlimit
    change execNodeDcOverLimit c v s = _
    rw [execNodeDcOverLimit]
    exact onNode_eq (modNode_congr (if_pos ⟨hmode, hlimit⟩))
  case head =>
    intro c r p s hslot x h m
    change execNodeHeadSlot c r s = _
    rw [execNodeHeadSlot]
    refine onNode_eq ?_
    simp only [hslot]
    rfl
  case tail =>
    intro c p hd s hslot hsent x l
    change execNodeTailSlot c s = _
    rw [execNodeTailSlot]
    refine onNode_eq ?_
    simp only [hslot, hsent]
    rfl
  case confirm =>
    intro c s hclosing hgates
    change execBypassCloseConfirm c s = _
    rw [execBypassCloseConfirm]
    exact onNode_eq (modNode_congr (if_pos ⟨hclosing, hgates⟩))
  case lstat =>
    intro c p bytes s hvalid
    change execLstat (.node c p) (.bytes bytes) s = _
    rw [execLstat]
    exact congrArg _ (if_pos hvalid)

/-! ### Messages that name a node -/

section Messages
variable {s : State} {c : Nat} {p : Bool} {l : List Byte} {op : Nat} {f : Node → Node}

/-- A LINK message that is hop-addressed to the node goes no further. -/
theorem onLink_hop (hok : linkOk l op = true) (hme : hopForMe (getNode s c) p (byteAt l 1) = true) (hone : bitAt (byteAt l 1) 7 = false) :
    onLink s c p l op f = modNode s c f := by
  simp [onLink, hok, hme, hone]

/-- A broadcast LINK message goes on and is taken. -/
theorem onLink_broadcast (hok : linkOk l op = true) (hall : bitAt (byteAt l 1) 7 = true) :
    onLink s c p l op f = modNode (fwdAcross s c p l) c f := by
  simp [onLink, hok, hall, posForMe]

/-- What a broadcast message does depends on the node's own fields alone, which its forwarding leaves. -/
theorem onLink_broadcast_eq {g : Node → Node} (hok : linkOk l op = true) (hall : bitAt (byteAt l 1) 7 = true)
    (hfg : ∀ y : Node, y.core = (getNode s c).core → f y = g y) : onLink s c p l op f = modNode (fwdAcross s c p l) c g :=
  (onLink_broadcast hok hall).trans (modNode_congr (hfg _ (core_fwdAcross _ _)))

theorem onBulk_read {d : List Byte} (hpos : bitAt (byteAt l 0) 6 = false) (hseen : transparent (getNode s c) = false)
    (hme : byteAt l 0 % 64 = (getNode s c).pos) (hok : bulkOk l 1 0 = true)
    (hread : (nodeRead s c (fieldAt l 4 3) (byteAt l 7)).1 = some d) :
    onBulk s c p l false = sendOwn (nodeRead s c (fieldAt l 4 3) (byteAt l 7)).2 c p
      [(.bulk, bulkB (byteAt l 0 % 128) 0x81 (BitVec.ofNat 16 (fieldAt l 2 2)) (fieldAt l 4 3) (byteAt l 7) d)] := by
  have hmode : ((getNode s c).mode == .init) = false := (Bool.or_eq_false_iff.1 hseen).1
  simp [onBulk, hpos, hseen, hme, hok, hmode, hread]

theorem onBulk_write {y : Node} (hpos : bitAt (byteAt l 0) 6 = false) (hseen : transparent (getNode s c) = false)
    (hme : byteAt l 0 % 64 = (getNode s c).pos) (hok : bulkOk l 2 (byteAt l 7) = true)
    (hwrite : nodeWrite (getNode s c) (fieldAt l 4 3) ((l.drop 8).take (byteAt l 7)) = (y, 0)) :
    onBulk s c p l true = sendOwn (modNode s c fun _ => y) c p
      [(.bulk, bulkB (byteAt l 0 % 128) 0x82 (BitVec.ofNat 16 (fieldAt l 2 2)) (fieldAt l 4 3) (byteAt l 7) [])] := by
  have hmode : ((getNode s c).mode == .init) = false := (Bool.or_eq_false_iff.1 hseen).1
  simp [onBulk, hpos, hseen, hme, hok, hmode, hwrite]

/-! ### What goes out of a port -/

theorem forward_busy {t : SlabType} (hbusy : (getPort (getNode s c) p).own ≠ 0 ∨ (getPort (getNode s c) p).fifo ≠ []) :
    forward s c p t l =
      if slabSum (getNode s c).coding (getPort (getNode s c) p).fifo + slabCount (getNode s c).coding [(t, l)] ≤ fifoSize (getNode s c) c
      then modNode s c fun x => modPort x p fun q => { q with fifo := q.fifo ++ [[(t, l)]] }
      else modNode s c fun x => { x with fwdDrop := satInc 0xFFFF x.fwdDrop } := by
  refine if_neg ?_
  rintro ⟨hown, hfifo, -⟩
  exact hbusy.elim (fun h => h hown) fun h => h (by simpa using hfifo)

theorem sendOwn_busy {ls : List (SlabType × List Byte)}
    (hbusy : (getPort (getNode s c) p).fwd ≠ 0 ∨ (getPort (getNode s c) p).own ≠ 0) :
    sendOwn s c p ls = modNode s c fun x => modPort x p fun q => { q with wait := waitIn q.wait ls } := by
  refine if_neg ?_
  rintro ⟨hown, hfwd, -⟩
  exact hbusy.elim (fun h => h hfwd) fun h => h hown

theorem getPort_modPort (x : Node) (p : Bool) (g : NodeTx → NodeTx) : getPort (modPort x p g) p = g (getPort x p) := by
  cases p <;> rfl

end Messages

/-- Settles O37. -/
theorem nodeMessagesComplete : Obligations.NodeMessagesComplete := by
  refine ⟨?setpos, ?split, ?roleFirst, ?roleNewer, ?arm, ?announce, ?settime, ?parkAll, ?parkOne, ?dMark, ?read, ?write, ?port⟩
  case setpos =>
    intro c pB bytes s hok hme hone hrun hinit
    change execSetpos c pB bytes s = _
    rw [execSetpos]
    refine onNode_eq ((onLink_hop hok hme hone).trans (modNode_congr (if_neg ?_)))
    simp [hme, hrun, hinit]
  case split =>
    intro c pB bytes s hok hall hseen
    change execSplit c pB bytes s = _
    rw [execSplit]
    refine onNode_eq (onLink_broadcast_eq hok hall fun y hy => if_neg ?_)
    have hmode : y.mode = (getNode s c).mode := Node.mode_of_core hy
    simpa [transparent, hmode] using hseen
  case roleFirst =>
    intro c pB bytes s hok hall htoken
    change execRole c pB bytes s = _
    rw [execRole]
    refine onNode_eq (onLink_broadcast_eq hok hall fun y hy => ?_)
    have hy' : y.token = none := (Node.token_of_core hy).trans htoken
    simp only [hy', if_true]
  case roleNewer =>
    intro c pB bytes h old s hok hall htoken hlow hhigh
    change execRole c pB bytes s = _
    rw [execRole]
    refine onNode_eq (onLink_broadcast_eq hok hall fun y hy => ?_)
    have hy' : y.token = some (h, old) := (Node.token_of_core hy).trans htoken
    simp only [hy', hlow, hhigh, decide_true, Bool.and_self, if_true]
  case arm =>
    intro c pB bytes s hok hall hmode hlock htoken hsplit
    change execArm c pB bytes s = _
    rw [execArm]
    refine onNode_eq (onLink_broadcast_eq hok hall fun y hy => if_pos ⟨?_, ?_, ?_, ?_⟩)
    · rwa [Node.mode_of_core hy]
    · exact (Node.locked_of_core hy).trans hlock
    · rwa [Node.token_of_core hy]
    · exact (Node.splitOn_of_core hy).trans hsplit
  case announce =>
    intro c pB bytes s hok hall hkind hnew
    change execAnnounce c pB bytes s = _
    rw [execAnnounce]
    refine onNode_eq (onLink_broadcast_eq hok hall fun y hy => if_neg ?_)
    rw [Node.announce_of_core hy, List.contains_iff_mem]
    exact not_or.2 ⟨hnew, Nat.not_lt.2 hkind⟩
  case settime =>
    intro c pB bytes s hok hall hrun
    change execSettime c pB bytes s = _
    rw [execSettime]
    refine onNode_eq (onLink_broadcast_eq hok hall fun y hy => if_neg ?_)
    rwa [Node.mode_of_core hy]
  case parkAll =>
    intro c pB bytes s hcoding hok hdest hpos hseen
    change execPark c pB bytes s = _
    rw [execPark]
    refine onNode_eq ((if_neg (by simp [hcoding, hok])).trans ((if_neg (by simp [hseen, hdest])).trans (modNode_congr (if_neg ?_))))
    rw [Node.pos_of_core (core_fwdPark _ _), hdest]
    exact fun h => hpos h.1.symm
  case parkOne =>
    intro c pB bytes s hcoding hok hdest hseen
    change execPark c pB bytes s = _
    rw [execPark]
    refine onNode_eq ((if_neg (by simp [hcoding, hok])).trans ((if_neg (by simp [hseen, hdest])).trans (modNode_congr ?_)))
    have hpos : (getNode (fwdPark s c pB bytes) c).pos = (getNode s c).pos := Node.pos_of_core (core_fwdPark _ _)
    simp only [hdest, hpos, true_and]
  case dMark =>
    intro c pB rx bytes p s hok hkind hseen hserve htoken hignore hpath corr e
    change execDMark c pB rx bytes s = _
    rw [execDMark]
    obtain ⟨⟨h, k⟩, htok, hholder⟩ := Option.map_eq_some_iff.1 htoken
    obtain ⟨⟨q, k'⟩, hsrv, hq⟩ := Option.map_eq_some_iff.1 hserve
    refine onNode_eq ((if_neg (by simp [hok, hkind])).trans ((if_neg ?_).trans (modNode_fwdDown_congr fun y hy => ?_)))
    · simp only at hholder hq
      simp [hseen, htok, hsrv, hholder, hq]
    · have hpath' : y.path = some p := (Node.path_of_core hy).trans hpath
      have hignore' : y.ignoreMarks = false := (Node.ignoreMarks_of_core hy).trans hignore
      simp only [hpath', hignore', Bool.false_eq_true, if_false]
      rfl
  case read =>
    intro c pB bytes d s hpos hseen hme hok hread
    change execBulkRead c pB bytes s = _
    rw [execBulkRead]
    exact onNode_eq (onBulk_read hpos hseen hme hok hread)
  case write =>
    intro c pB bytes y s hpos hseen hme hok hwrite
    change execBulkWrite c pB bytes s = _
    rw [execBulkWrite]
    exact onNode_eq (onBulk_write hpos hseen hme hok hwrite)
  case port =>
    intro s c p t l x q
    refine ⟨fun hbusy hroom => (forward_busy hbusy).trans (if_pos hroom),
      fun hbusy hfull => (forward_busy hbusy).trans (if_neg (Nat.not_le.2 hfull)), fun hbusy ls => sendOwn_busy hbusy, ?_⟩
    rw [getNode_parkOut, getPort_modPort]

end Sys2Proof.Machine

/-!
PROOFS. What the rows of Curd and of the Harp's local outputs do (chapters 05 and 06).
-/
namespace Sys2Proof.Machine

/-! ### Curd rows -/

theorem modPt_congr {s : State} {pa : Nat} {f g : Point → Point} (h : f (getPt s pa) = g (getPt s pa)) : modPt s pa f = modPt s pa g := by
  unfold getPt at h
  simp only [modPt, tmod, h]

/-- A commit write that its checks accept. -/
theorem commitWrite_accepted {s t : State} {n : Nat} (hclock : clocked s = true) (hlocks : s.cmd.locks = [])
    (hcommit : commitBlock s n = (t, none)) : commitWrite s n = .next (settle t) := by
  rw [commitWrite]
  exact onCore_barWo hclock hlocks (congrArg Prod.fst hcommit)

theorem padLevel_eq {s : State} {i : Nat} {level : Bool} (hi : i < 16) :
    padLevel s i level = if s.boot.gpioDrive.getLsbD i then s.boot.gpioOut.getLsbD i else level := by
  simp only [padLevel, hi, true_and]

/-- Settles O38. -/
theorem curdRowsComplete : Obligations.CurdRowsComplete := by
  refine ⟨?output, ?stuck, ?gpio, ?arm, ?stale, ?frozen, ?rate, ?commit⟩
  case output =>
    intro i sum s hclock hinput hclk hmoves hskip hrealign hprev y
    have hon : sdOn s i = true := by simp only [sdOn, hinput, hclk, Bool.and_self]
    change execSdDecimatorOutput i sum false s = _
    refine onCore_eq hclock ((if_neg (by simp [hon])).trans ((if_neg ?_).trans rfl))
    simp only [Bool.false_eq_true, if_false, hmoves, hskip, hrealign, hprev, ne_eq, not_true_eq_false, or_self, not_false_eq_true]
  case stuck =>
    intro i s hclock hinput hclk
    have hon : sdOn s i = true := by simp only [sdOn, hinput, hclk, Bool.and_self]
    change execSdStuck i s = _
    exact onCore_eq hclock (if_pos hon)
  case gpio =>
    intro i level s hclock hi v
    have hpin : ¬i.val = 16 := by omega
    refine ⟨fun hv => ?_, fun hv => ?_⟩ <;> change execPinFilterLevel i level s = _ <;> refine onCore_eq hclock ?_ <;>
      simp only [hpin, hi, if_false, if_true, padLevel_eq hi, v] at hv ⊢ <;>
      simp only [hv, if_true, Bool.false_eq_true, if_false]
  case arm =>
    intro s hclock
    refine ⟨?_, ?_⟩
    · change execPinFilterLevel 16 false s = _
      exact onCore_eq hclock rfl
    · change execPinFilterLevel 16 true s = _
      exact onCore_eq hclock rfl
  case stale =>
    intro pa s hclock hinput hthere hto hage
    change execPointStale pa s = _
    refine onCore_eq hclock ((if_neg (by simp [hinput, hthere])).trans (congrArg (hygLive · pa) (modPt_congr ?_)))
    simp only [hto, hage, ne_eq, not_false_eq_true, decide_true, Bool.and_self, Bool.or_true]
  case frozen =>
    intro pa s hclock hinput hthere hnoise hfrz hsame
    have hne : (getDesc s (descIdx pa)).frzN ≠ 1 := by omega
    have hzero : (getDesc s (descIdx pa)).frzN ≠ 0 := by omega
    change execPointFrozen pa s = _
    refine onCore_eq hclock ((if_neg (by simp [hinput, hthere])).trans (congrArg (hygLive · pa) (modPt_congr ?_)))
    simp only [hnoise, hne, hzero, hsame, ne_eq, not_false_eq_true, if_false, decide_true, Bool.and_self, Bool.or_true]
  case rate =>
    intro pa s hclock hinput hthere hrun
    change execPointRateRun pa s = _
    exact onCore_eq hclock ((if_neg (by simp [hinput, hthere])).trans (if_pos hrun))
  case commit =>
    intro s t hclock hlocks hcommit
    change execCurdCommit s = _
    exact commitWrite_accepted hclock hlocks hcommit

/-! ### Local pairs, trip inputs, debug halt -/

/-- Settles O39. -/
theorem harpRowsComplete : Obligations.HarpRowsComplete := by
  refine ⟨?carrier, ?timeout, ?trip, ?release, ?jtag, ?halt, ?resume, ?permit, ?permitIdle, ?clear, ?per, ?duty, ?commit⟩
  case carrier =>
    intro j s hclock hrun hhalt hsafe
    have hruns : ((getPair s j).running && lpRuns s) = true := by simp [hrun, lpRuns, hhalt, hsafe]
    constructor
    · change execLpwmCarrierBoundary j s = _
      exact onCore_eq hclock (if_pos hruns)
    · change execLocalPwmEdge j s = _
      exact onCore_eq hclock (if_pos hruns)
  case timeout =>
    intro j s hclock harmed henable
    change execLpwmPairTimeout j s = _
    exact onCore_eq hclock (if_pos ⟨harmed, henable⟩)
  case trip =>
    intro i s hclock _ _
    change execTripInputAssert i s = _
    exact onCore_eq hclock rfl
  case release =>
    intro i s hclock
    change execTripInputRelease i s = _
    exact onCore_eq hclock rfl
  case jtag =>
    intro s hclock _
    change execJtagHaltRequest s = _
    exact onCore_eq hclock rfl
  case halt =>
    intro s hclock hlocks _
    change execHarpDbgCtlHalt s = _
    exact onCore_barWo hclock hlocks rfl
  case resume =>
    intro s hclock hlocks hhalted
    change execHarpDbgCtlResume s = _
    exact onCore_barWo hclock hlocks (if_pos hhalted)
  case permit =>
    intro s hclock hpermit hhalted
    change execDbgPermitFall false s = _
    exact onCore_eq hclock (if_pos (by simp [hpermit, hhalted]))
  case permitIdle =>
    intro high s hclock hhalted
    change execDbgPermitFall high s = _
    exact onCore_eq hclock (if_neg (by simp [hhalted]))
  case clear =>
    intro m s hclock _
    change execHarpTripStsClear m s = _
    exact onCore_eq hclock rfl
  case per =>
    intro j v s hclock
    change execHarpLpPerWrite j v s = _
    exact onCore_eq hclock rfl
  case duty =>
    intro j v s hclock
    change execHarpLpDutyWrite j v s = _
    exact onCore_eq hclock rfl
  case commit =>
    intro s t hclock hlocks hcommit
    change execHarpCommit s = _
    exact commitWrite_accepted hclock hlocks hcommit

end Sys2Proof.Machine

/-!
PROOFS. What the rows of the Press, of Cheddaring and of the twin do (chapters 07 and 08).
-/
namespace Sys2Proof.Machine

/-! ### Press and Cheddaring rows -/

theorem bankCommit_good {s : State} (hgood : bankBad s = false) :
    (bankCommit s).1 = { s with press := { s.press with swapPending := true, coefOwner := [] } } := by
  simp only [bankCommit, hgood, Bool.false_eq_true, if_false]

/-- Settles O40. -/
theorem pressAndCheddaringRowsComplete : Obligations.PressAndCheddaringRowsComplete := by
  refine ⟨?sources, ?copyToB, ?copyToA, ?copy, ?swap, ?cfg, ?headroom, ?deviation, ?bypass, ?restore, ?commit⟩
  case sources =>
    intro n s hclock
    constructor
    · change execFeedbackLoss n s = _
      exact onCore_eq hclock rfl
    · change execObserverResidual n s = _
      exact onCore_eq hclock rfl
  case copyToB =>
    intro s hclock hbusy hactive
    change execBankCopyComplete s = _
    exact onCore_eq hclock (by simp only [bankCopied, hbusy, hactive, Bool.not_true, Bool.false_eq_true, if_false])
  case copyToA =>
    intro s hclock hbusy hactive
    change execBankCopyComplete s = _
    exact onCore_eq hclock (by simp only [bankCopied, hbusy, hactive, Bool.not_true, Bool.false_eq_true, if_false, if_true])
  case copy =>
    intro s hclock hlocks hfree
    change execPressCtlBankCopy s = _
    exact onCore_barWo hclock hlocks (if_neg (by simp [hfree]))
  case swap =>
    intro s hclock hlocks hfree hgood
    change execPressCtlBankCommit s = _
    exact onCore_barWo hclock hlocks ((if_neg (by simp [hfree])).trans (bankCommit_good hgood))
  case cfg =>
    intro s t hclock hlocks hcommit
    change execPressCtlCfgCommit s = _
    exact commitWrite_accepted hclock hlocks hcommit
  case headroom =>
    intro b s hclock hrun
    change execHeadroomRun b s = _
    exact onCore_eq hclock (by simp only [headroomCheck, hrun, decide_true])
  case deviation =>
    intro c s hclock hrun
    change execDeviationRun c s = _
    exact onCore_eq hclock (by simp only [deviationCheck, hrun, decide_true])
  case bypass =>
    intro c k s hclock hby hk
    change execBypassConfirmTimeout c s = _
    exact onCore_eq hclock (by simp only [bypassCheck, hby, hk, if_true])
  case restore =>
    intro c k s hclock hby hk
    change execRestoreTimeout c s = _
    exact onCore_eq hclock (by simp only [restoreCheck, hby, hk, if_true])
  case commit =>
    intro s t hclock hlocks hcommit
    change execCheddaringCommit s = _
    exact commitWrite_accepted hclock hlocks hcommit

/-! ### Twin rows -/

/-- An epoch is not newer than itself. -/
theorem newerEpoch_self (e : Nat) : newerEpoch e e = false := by
  have hzero : (e + 65536 - e % 65536) % 65536 = 0 := by omega
  simp only [newerEpoch, hzero]
  rfl

theorem roleHeard_of_other {s : State} {l : List Byte} (hok : linkOk l 4 = true) (hrole : s.twin.role ≠ .off)
    (hother : bitAt (byteAt l 2) 0 = !(fld0 s .twinCfg_end == 1)) : roleHeard s l =
      if (meetEpoch s (fieldAt l 3 2)).twin.role = .standby ∧ fieldAt l 3 2 = (meetEpoch s (fieldAt l 3 2)).twin.epoch then
        modTw (meetEpoch s (fieldAt l 3 2)) fun x => { x with roleSeen := true }
      else meetEpoch s (fieldAt l 3 2) := by
  refine if_neg ?_
  rw [hother]
  cases fld0 s .twinCfg_end == 1 <;> simp [hok, hrole]

theorem meetEpoch_newer {s : State} {e : Nat} (hrole : s.twin.role = .primary) (hnew : newerEpoch e s.twin.epoch = true) :
    meetEpoch s e = demote s e := by
  simp only [meetEpoch, hnew, hrole, Bool.not_true, Bool.false_eq_true, if_false, if_true]

theorem meetEpoch_same {s : State} {e : Nat} (he : e = s.twin.epoch) : meetEpoch s e = s := by
  rw [he, meetEpoch, newerEpoch_self]
  rfl

/-- A run on a peer lane that completes one relayed message for the branch. -/
theorem relayedPart_one {s t : State} {l1 down : Bool} {b : Br} {r : SlabRun} {l : List Byte} (hclock : clocked s = true)
    (hlive : peerLive s l1 = true) (hrun : receive s (26 + b2n l1) (peerBlocks r.slabs.length) r = (t, [(.last, l)]))
    (hbranch : byteAt l 1 = b.val) (hdown : down = standby t) :
    execRelayedPart l1 down b r s = .next (settle (relayHeard t l)) := by
  refine onCore_eq hclock ((if_neg (by simp [hlive])).trans ?_)
  simp only [hrun, List.foldl_cons, List.foldl_nil, hdown, ne_eq, not_true_eq_false, if_false, if_true, hbranch]

/-- Settles O41. -/
theorem twinRowsComplete : Obligations.TwinRowsComplete := by
  refine ⟨?mark, ?parts, ?relayed, ?half, ?miss, ?drop, ?role, ?calStandby, ?calPrimary, ?clear, ?swap, ?calibrate⟩
  case mark =>
    intro l1 a r t l s hclock hlive hrun hrole m hok hkind dk
    change execPMark l1 a r s = _
    refine onCore_eq hclock ((onPeer_one hlive hrun).trans (if_neg ?_))
    rintro (hoff | hbad | hother)
    · exact hrole hoff
    · exact absurd hok (by simpa using hbad)
    · exact hother hkind
  case parts =>
    intro l1 r t l s hclock hlive hrun
    refine ⟨?_, ?_, ?_⟩
    · change execHeartbeat l1 r s = _
      exact onCore_eq hclock (onPeer_one hlive hrun)
    · change execMirrorChunk l1 r s = _
      exact onCore_eq hclock (onPeer_one hlive hrun)
    · change execPlanAndAgeingImage l1 r s = _
      exact onCore_eq hclock (onPeer_one hlive hrun)
  case relayed =>
    intro l1 b r t l s hclock hlive hrun hbranch
    refine ⟨fun hrole => ?_, fun hrole => ?_⟩
    · change execRelayedPart l1 true b r s = _
      rw [relayedPart_one hclock hlive hrun hbranch (by simp [standby, hrole])]
      simp only [relayHeard, hrole]
    · change execRelayedPart l1 false b r s = _
      rw [relayedPart_one hclock hlive hrun hbranch (by simp [standby, hrole])]
      simp only [relayHeard, hrole]
  case half =>
    intro s hclock hrole
    change execHeartbeatHalfFrame s = _
    exact onCore_eq hclock (if_pos hrole)
  case miss =>
    intro s hclock _
    change execHeartbeatMiss s = _
    exact onCore_eq hclock rfl
  case drop =>
    intro s hclock hstandby hchunks hlate
    change execMirrorDrop s = _
    exact onCore_eq hclock (if_pos ⟨hstandby, by simp [hchunks], hlate⟩)
  case role =>
    intro n r t l s hclock hn hrun hok hother
    refine ⟨fun hrole hnew => ?_, fun hrole hsame => ?_⟩ <;> change execRoleOnChainLane n r s = _ <;>
      refine onCore_eq hclock ((onRun_one hrun).trans ((if_pos hn).trans ((roleHeard_of_other hok ?_ hother).trans ?_)))
    · simp [hrole]
    · rw [meetEpoch_newer hrole hnew]
    · simp [hrole]
    · rw [meetEpoch_same hsame, if_pos ⟨hrole, hsame⟩]
  case calStandby =>
    intro s hclock hrole
    change execFarEndCalibrationEnd s = _
    exact onCore_eq hclock (if_pos hrole)
  case calPrimary =>
    intro s hclock hrole hleft
    change execFarEndCalibrationEnd s = _
    exact onCore_eq hclock ((if_neg (by simp [hrole])).trans (if_pos hleft))
  case clear =>
    intro s hclock hlocks
    change execTwinCntClr s = _
    exact onCore_barWo hclock hlocks rfl
  case swap =>
    intro s hclock hlocks hrole hready hswap
    change execTwinCfgSwap s = _
    exact onCore_barWo hclock hlocks (congrArg Prod.fst (if_pos ⟨hrole, hready, by simp [hswap]⟩))
  case calibrate =>
    intro s hclock hlocks hallowed
    change execTwinCfgCalibrate s = _
    exact onCore_barWo hclock hlocks (if_pos hallowed)

end Sys2Proof.Machine

/-!
PROOFS. What the rows of the modes and of the Affinage unit do (chapters 09 and 10).
-/
namespace Sys2Proof.Machine

/-! ### Converter states, ride-through, black start -/

theorem convStart_parked {s : State} (hstandby : standby s = false) (hconv : s.mode.conv = .parked) (hok : startOk s = true) :
    convStart s = (modMo s fun x => { x with startReq := true }, true) := by
  simp [convStart, hstandby, hconv, hok]

theorem hostStart_noHoldBus {s : State} (hhold : s.boot.holdBus = false) : hostStart s = convStart s := if_neg (by simp [hhold])

theorem hostStop_noHoldBus {s : State} (hhold : s.boot.holdBus = false) : hostStop s = convStop s := if_neg (by simp [hhold])

theorem hostRestart_noHoldBus {s : State} {b : Nat} (hhold : s.boot.holdBus = false) : hostRestart s b = convRestart s b :=
  if_neg (by simp [hhold])

/-- Settles O42. -/
theorem modeRowsComplete : Obligations.ModeRowsComplete := by
  refine ⟨?preDone, ?preLate, ?rdDone, ?rdLate, ?join, ?rtIn, ?rtOut, ?rtLong, ?formed, ?start, ?stop, ?restart, ?commit⟩
  case preDone =>
    intro s hclock hconv hrun
    change execPrechargeComplete s = _
    exact onCore_eq hclock (if_pos (by simp [preDoneNow, hconv, hrun]))
  case preLate =>
    intro s hclock hconv hrun hfor
    change execPrechargeTimeout s = _
    exact onCore_eq hclock (if_pos (by simp [preLateNow, preDoneNow, hconv, hfor, hrun]))
  case rdDone =>
    intro s hclock hconv hrun
    change execRampDownComplete s = _
    exact onCore_eq hclock (if_pos (by simp [rdDoneNow, hconv, hrun]))
  case rdLate =>
    intro s hclock hconv hrun hfor
    change execRampDownTimeout s = _
    exact onCore_eq hclock (if_pos (by simp [rdLateNow, rdDoneNow, hconv, hfor, hrun]))
  case join =>
    intro b s hclock hjoining hrun
    change execBranchRestartJoin b s = _
    exact onCore_eq hclock (if_pos ⟨hjoining, hrun⟩)
  case rtIn =>
    intro s hclock hnow
    change execRideThroughEntry s = _
    exact onCore_eq hclock (if_pos hnow)
  case rtOut =>
    intro s hclock hnow
    change execRideThroughExit s = _
    exact onCore_eq hclock (if_pos hnow)
  case rtLong =>
    intro s hclock hrt hmax hfor hlong
    change execRideThroughTimeout s = _
    exact onCore_eq hclock (if_pos (by simp [rtLongNow, hrt, hmax, hfor, hlong]))
  case formed =>
    intro s hclock hnow
    change execGridFormed s = _
    exact onCore_eq hclock (if_pos hnow)
  case start =>
    intro s hclock hlocks hhold hstandby hconv hok
    change execModeCtlStart s = _
    exact onCore_barWo hclock hlocks (by rw [hostStart_noHoldBus hhold, convStart_parked hstandby hconv hok])
  case stop =>
    intro s t hclock hlocks hhold hstop
    change execModeCtlStop s = _
    exact onCore_barWo hclock hlocks (by rw [hostStop_noHoldBus hhold, hstop])
  case restart =>
    intro m s hclock hlocks _
    change execModeCtlRestart m s = _
    exact onCore_barWo hclock hlocks rfl
  case commit =>
    intro s t hclock hlocks hcommit
    change execModeCtlCommit s = _
    exact commitWrite_accepted hclock hlocks hcommit

/-! ### Ageing and plans -/

theorem startEpoch_work {s : State} (hbusy : s.aff.busy = false) (hstandby : standby s = false) : startEpoch s =
    if s.cellar.mode = .shed then modAf s fun a => { a with deferred := true } else epochWork s := by
  simp only [startEpoch, hbusy, hstandby, Bool.false_eq_true, if_false]

theorem hourEpoch_due {s : State} {h : Nat} (hdue : epochDue s = some h) (hfresh : s.aff.epochHour ≠ h + 1) : hourEpoch s =
    startEpoch (modAf (if s.aff.pol = 0 ∨ fld0 s .affCfg_policy = 0 then takeTargets s else s) fun a => { a with epochHour := h + 1 }) := by
  simp only [hourEpoch, hdue, hfresh, if_false]

/-- Settles O43. -/
theorem affinageRowsComplete : Obligations.AffinageRowsComplete := by
  refine ⟨?foster, ?epoch, ?now, ?complete, ?shed, ?late, ?apply, ?fit, ?die, ?acked, ?retry, ?fail, ?accept, ?read, ?commit⟩
  case foster =>
    intro s hclock hstandby hk hstep
    change execFosterStep s = _
    exact onCore_eq hclock (if_neg (by simp [hstandby, hk, hstep]))
  case epoch =>
    intro s h hclock hdue hfresh _ _ t
    change execEpoch s = _
    exact onCore_eq hclock (hourEpoch_due hdue hfresh)
  case now =>
    intro s hclock hlocks hstandby hbusy
    refine ⟨fun hshed => ?_, fun hshed => ?_⟩ <;> change execAffCtlEpochNow s = _
    · exact onCore_barWo hclock hlocks ((startEpoch_work hbusy hstandby).trans (if_neg hshed))
    · exact onCore_barWo hclock hlocks ((startEpoch_work hbusy hstandby).trans (if_pos hshed))
  case complete =>
    intro s hclock hbusy hshed
    change execEpochComplete s = _
    exact onCore_eq hclock (if_neg (by simp [hbusy, hshed]))
  case shed =>
    intro s hclock hshed
    change execEpochComplete s = _
    exact onCore_eq hclock (if_pos (.inr hshed))
  case late =>
    intro s hclock hbusy
    change execPlanLate s = _
    exact onCore_eq hclock (if_neg (by simp [hbusy]))
  case apply =>
    intro s hclock hdue
    change execApplicationBoundary s = _
    exact onCore_eq hclock (if_pos hdue)
  case fit =>
    intro c lack l s hclock _
    change execCapacitorFitComplete c s = _
    exact onCore_eq hclock rfl
  case die =>
    intro m k s hclock
    change execDieMarginCheck m k s = _
    exact onCore_eq hclock rfl
  case acked =>
    intro v s hclock hwant
    change execPmbusWriteResult true s = _
    exact onCore_eq hclock (by simp only [hwant, if_true])
  case retry =>
    intro v s hclock hwant htries
    change execPmbusWriteResult false s = _
    exact onCore_eq hclock (by simp only [hwant, htries, Bool.false_eq_true, if_false, if_true])
  case fail =>
    intro v s hclock hwant htries
    change execPmbusWriteResult false s = _
    exact onCore_eq hclock (by simp only [hwant, Nat.not_lt.2 htries, Bool.false_eq_true, if_false])
  case accept =>
    intro s hclock hlocks hproposed
    constructor
    · change execAffCtlAccept s = _
      exact onCore_barWo hclock hlocks (if_pos hproposed)
    · change execAffCtlReject s = _
      exact onCore_barWo hclock hlocks rfl
  case read =>
    intro s hclock
    change execAffDieEolLoRead s = _
    exact onCore_eq hclock rfl
  case commit =>
    intro s t hclock hlocks hcommit
    change execAffinageCommit s = _
    exact commitWrite_accepted hclock hlocks hcommit

end Sys2Proof.Machine

/-!
PROOFS. What the rows of Rind, the Cellar and the Cave do (chapters 11, 12 and 14).
-/
namespace Sys2Proof.Machine

/-! ### Rind rows -/

theorem hostKick_invalid {s : State} {v : Nat} (h : v ≠ 0xA5) : hostKick s v = raiseE s 2 0 := if_neg h

theorem stickyWord_clears {s t : State} {w v : Nat}
    (h : clearMany s (((below 32 (bitAt v)).map (32 * w + ·)).filter fun n => decide (n < 946)) = (t, false)) : stickyWord s w v = t := by
  simp only [stickyWord, h, Bool.false_eq_true, if_false]

/-- Settles O44. -/
theorem rindRowsComplete : Obligations.RindRowsComplete := by
  refine ⟨?hold, ?watchdog, ?scrub, ?integrity, ?kick, ?badKick, ?inject, ?force, ?clear, ?commit⟩
  case hold =>
    intro s hclock hpassed
    change execTripHoldExpiry s = _
    exact onCore_eq hclock (if_pos hpassed)
  case watchdog =>
    intro s hclock hperiod hpassed
    change execHostWatchdogExpiry s = _
    exact onCore_eq hclock (if_pos ⟨hperiod, hpassed⟩)
  case scrub =>
    intro n l s hclock
    constructor
    · change execRindScrub ⟨some n, l⟩ s = _
      exact onCore_eq hclock rfl
    · change execRindScrub ⟨none, l⟩ s = _
      exact onCore_eq hclock rfl
  case integrity =>
    intro s hclock
    constructor
    · change execRindIntegrityError true s = _
      exact onCore_eq hclock rfl
    · change execRindIntegrityError false s = _
      exact onCore_eq hclock rfl
  case kick =>
    intro s hclock
    change execRindHostwdKick 0xA5 s = _
    exact onCore_eq hclock (hostKick_valid s)
  case badKick =>
    intro v s hclock hv
    change execRindHostwdKick v s = _
    exact onCore_eq hclock (hostKick_invalid fun h => hv (BitVec.eq_of_toNat_eq h))
  case inject =>
    intro s hclock
    constructor
    · change execRindCfgInjEn true s = _
      exact onCore_eq hclock rfl
    · change execRindCfgInjEn false s = _
      exact onCore_eq hclock rfl
  case force =>
    intro w v s hclock _
    change execRindForceWrite w v s = _
    exact onCore_eq hclock rfl
  case clear =>
    intro w v s t hclock hclear
    change execRindStickyClear w v s = _
    exact onCore_eq hclock (stickyWord_clears hclear)
  case commit =>
    intro s t hclock hlocks hcommit
    change execRindCommit s = _
    exact commitWrite_accepted hclock hlocks hcommit

/-! ### Cellar rows -/

/-- A Cellar row while the Cellar's clock runs: the end of the row is that of the core where the core clock runs. -/
theorem onCellar_runs {s : State} {f : State → State} (hruns : cellarRuns s = true) :
    onCellar s f = .next (if clocked (f s) then settle (f s) else updPins (f s)) := if_pos hruns

/-- Settles O45. -/
theorem cellarRowsComplete : Obligations.CellarRowsComplete := by
  refine ⟨?update, ?diode, ?base, ?park, ?restart, ?refs, ?window, ?latch, ?peak, ?time, ?commit⟩
  case update =>
    intro l s hruns p t
    change execCellarModelUpdate l s = _
    rw [execCellarModelUpdate, onCellar_runs hruns]
  case diode =>
    intro j r s hruns t
    change execCellarDiodeReading j r s = _
    rw [execCellarDiodeReading, onCellar_runs hruns]
  case base =>
    intro m s hruns hclock hmedian
    have hbase : baseUpdate s = modCe s fun x => { x with base := x.base + asr (m - x.base) 10, baseOk := true } := by
      simp only [baseUpdate, hmedian]
    change execCellarBaseUpdate s = _
    rw [execCellarBaseUpdate, onCellar_runs hruns, hbase]
    exact congrArg _ (if_pos hclock)
  case park =>
    intro s hruns hshutdown hstopped
    change execParkShutdownRepeat s = _
    rw [execParkShutdownRepeat, onCellar_runs hruns, if_pos hshutdown, hstopped]
    rfl
  case restart =>
    intro s hruns hshutdown hcooled
    change execCellarRestart s = _
    exact if_pos ⟨hshutdown, hcooled, hruns⟩
  case refs =>
    intro i s hruns
    constructor
    · change execReferenceAbsent i s = _
      rw [execReferenceAbsent, onCellar_runs hruns]
    · change execReferenceReturn i s = _
      rw [execReferenceReturn, onCellar_runs hruns]
  case window =>
    intro l s hruns
    change execReferenceFrequencyWindow l s = _
    rw [execReferenceFrequencyWindow, onCellar_runs hruns]
  case latch =>
    intro s hclock
    change execCellarStsSdLatchClear s = _
    exact onCore_eq hclock rfl
  case peak =>
    intro s hclock hlocks
    change execCellarPeakClr s = _
    exact onCore_barWo hclock hlocks rfl
  case time =>
    intro s hclock
    change execCellarSdTimeLoRead s = _
    exact onCore_eq hclock rfl
  case commit =>
    intro s t hclock hlocks hcommit
    change execCellarCommit s = _
    exact commitWrite_accepted hclock hlocks hcommit

/-! ### Cave rows -/

/-- Settles O46. -/
theorem caveRowsComplete : Obligations.CaveRowsComplete := by
  refine ⟨?decision, ?wait, ?patrol, ?patrolBad, ?freeze, ?persist, ?timeout, ?commit, ?clear⟩
  case decision =>
    intro ch l n s hclock
    change execVatDecision ch l n s = _
    exact onCore_eq hclock rfl
  case wait =>
    intro ch q s hclock
    change execVatWaitLimit ch q s = _
    exact onCore_eq hclock rfl
  case patrol =>
    intro ch b corrected s hclock
    change execCavePatrolRead ch b false corrected s = _
    exact onCore_eq hclock (if_neg (by simp))
  case patrolBad =>
    intro ch b corrected s hclock
    change execCavePatrolRead ch b true corrected s = _
    exact onCore_eq hclock (by simp only [Bool.true_and])
  case freeze =>
    intro t s hclock hpost htrig hpassed
    have hfreeze : traceFreeze s = freezeRing s t := by simp [traceFreeze, hpost, htrig, hpassed]
    change execTraceFreeze s = _
    exact onCore_eq hclock hfreeze
  case persist =>
    intro x ok s hclock _
    change execPersistComplete ok s = _
    exact onCore_eq hclock rfl
  case timeout =>
    intro s hclock hlate
    change execPersistTimeout s = _
    exact onCore_eq hclock (if_pos hlate)
  case commit =>
    intro s hclock hlocks
    change execVatCtlCommit s = _
    exact onCore_barWo hclock hlocks rfl
  case clear =>
    intro m s hclock hlocks
    change execVatCntClr m s = _
    exact onCore_barWo hclock hlocks rfl

end Sys2Proof.Machine

/-!
PROOFS. What the rows of the clocks, of station time and of PTP do (chapters 2 and 15).
-/
namespace Sys2Proof.Machine

/-! ### `SYNC_IN` -/

/-- What an edge of `SYNC_IN` does to one clock output. -/
def syncOut (t : State) (n : Nat) : State :=
  if !flag t .strClkoutCfg_sync_en n then t
  else if fld t .strClkoutCfg_src n = 0 ∧ t.clk.onSafe then setFld t .strSts_sync_missed 0 1
  else modCk t fun x => { x with sync := lset x.sync n (some 16) }

theorem execSyncInEdge_eq (s : State) : execSyncInEdge s = onCore s fun s => (List.range 4).foldl syncOut s := rfl

theorem foldl_syncOut_off {s : State} {l : List Nat} (hoff : ∀ n ∈ l, flag s .strClkoutCfg_sync_en n = false) :
    l.foldl syncOut s = s := by
  induction l with
  | nil => rfl
  | cons n l ih =>
    have hturn : syncOut s n = s := by simp [syncOut, hoff n List.mem_cons_self]
    rw [List.foldl_cons, hturn]
    exact ih fun m hm => hoff m (List.mem_cons_of_mem n hm)

/-- On the main PLL an output that takes `SYNC_IN` stands 16 cycles, and the next one's settings stay. -/
theorem foldl_syncOut_on {l : List Nat} {s : State} (hon : ∀ n ∈ l, flag s .strClkoutCfg_sync_en n = true)
    (hpll : s.clk.onSafe = false) :
    l.foldl syncOut s = l.foldl (fun t n => modCk t fun x => { x with sync := lset x.sync n (some 16) }) s := by
  induction l generalizing s with
  | nil => rfl
  | cons n l ih =>
    have hturn : syncOut s n = modCk s fun x => { x with sync := lset x.sync n (some 16) } := by
      simp [syncOut, hon n List.mem_cons_self, hpll]
    rw [List.foldl_cons, List.foldl_cons, hturn]
    exact ih (fun m hm => hon m (List.mem_cons_of_mem n hm)) hpll

/-! ### Commits of block 1 -/

theorem holdBusBlock_one (s : State) : holdBusBlock s 1 = false := by simp [holdBusBlock]

theorem commitBlock_accepted {s t : State} {n : Nat} (hbus : holdBusBlock s n = false) (htry : tryCommit s n = (t, none)) :
    commitBlock s n = (t, none) := by
  simp only [commitBlock, hbus, htry, Bool.false_eq_true, if_false]

theorem commitBlock_runningLength {s : State} (h : sfld s .stuFrmCfg_frame_len 0 = s.frame.len.val) :
    commitBlock s 1 = (modFr (stageBlock s 1 fun _ _ => true) fun x => { x with lenPending := none }, none) :=
  commitBlock_accepted (holdBusBlock_one s) (if_pos h)

theorem commitBlock_newLength {s : State} (h : sfld s .stuFrmCfg_frame_len 0 ≠ s.frame.len.val) (hparked : allParked s = true) :
    commitBlock s 1 = (announceLength (modFr (stageBlock s 1 fun _ _ => true) fun x => { x with
      lenPending := some (BitVec.ofNat 2 (sfld s .stuFrmCfg_frame_len 0)).toFin }), none) :=
  commitBlock_accepted (holdBusBlock_one s) ((if_neg h).trans (if_pos hparked))

/-! ### Steps and pulses -/

theorem applyStep_stays {start : Bool} {s : State} (h : allParked s = false ∨ start = true) : applyStep start s = s := by
  rw [applyStep]
  split
  · rcases h with h | h <;> simp [h]
  · rfl

theorem applyStep_applies {d : Int} {b : Bool} {s : State} (hstep : s.stu.step = some (d, b)) (hparked : allParked s = true) :
    (applyStep false s).stu.step = none ∧
    (applyStep false s).stu.pulses = s.stu.pulses.map (pulseStep ((nowQ s : Int) + d).toNat) ∧
    (applyStep false s).stu.time = ((s.stu.time : Int) + d * 2 ^ 32).toNat % (2 ^ 48 * 4000000000 * 2 ^ 32) := by
  simp only [applyStep, hstep, hparked, Bool.not_false, Bool.and_true, if_true]
  exact ⟨rfl, rfl, rfl⟩

theorem pulseEdge_falls {s : State} {n e : Nat} (hnext : (s.stu.pulses.getD n ⟨0, 0, 0, none, none⟩).next = some e)
    (hin : e < nowQ s + s.frame.ticks) :
    pulseEdge s n = modSt s fun x => { x with pulses := lset x.pulses n { s.stu.pulses.getD n ⟨0, 0, 0, none, none⟩ with
      next := if (s.stu.pulses.getD n ⟨0, 0, 0, none, none⟩).period = 0 then none
        else some (e + (s.stu.pulses.getD n ⟨0, 0, 0, none, none⟩).period)
      till := if flag s .stuTpCfg_enable n then some (e + (s.stu.pulses.getD n ⟨0, 0, 0, none, none⟩).width) else none } } := by
  simp only [pulseEdge, hnext, hin, if_true]

theorem pulseEnd_ends {s : State} {n e : Nat} (htill : (s.stu.pulses.getD n ⟨0, 0, 0, none, none⟩).till = some e)
    (hin : e < nowQ s + s.frame.ticks) :
    pulseEnd s n = modSt s fun x => { x with pulses := lset x.pulses n { s.stu.pulses.getD n ⟨0, 0, 0, none, none⟩ with
      till := none } } := by
  simp only [pulseEnd, htill, hin, if_true]

/-- Settles O47. -/
theorem clockAndTimeRowsComplete : Obligations.ClockAndTimeRowsComplete := by
  refine ⟨?lock, ?hold, ?ret, ?loss, ?deadline, ?retry, ?syncOff, ?syncOn, ?commit12, ?commit1, ?newLength, ?stepRow, ?step,
    ?edge, ?pulseEnd, ?capture, ?time, ?cap, ?arm⟩
  case lock =>
    intro b s hclock hlocking
    change execPllLockDeclared b s = _
    exact onCore_eq hclock (if_pos hlocking)
  case hold =>
    intro s hclock hholding
    change execPllHoldComplete s = _
    exact onCore_eq hclock (if_pos hholding)
  case ret =>
    intro s hclock hready
    change execCoreReturnToPll s = _
    exact onCore_eq hclock (if_pos hready)
  case loss =>
    intro s hclock hpll
    change execPllLossOfLock s = _
    exact onCore_eq hclock (if_pos (by simp [hpll]))
  case deadline =>
    intro s hclock hrelock
    change execRelockDeadline s = _
    exact onCore_eq hclock (if_pos hrelock)
  case retry =>
    intro s hclock hfailed hsw
    change execRelockRetry s = _
    exact onCore_eq hclock ((if_pos hfailed).trans (by simp [hsw]))
  case syncOff =>
    intro s hclock hoff
    exact (execSyncInEdge_eq s).trans (onCore_eq hclock (foldl_syncOut_off fun n hn => hoff n (List.mem_range.mp hn)))
  case syncOn =>
    intro s hclock hon hpll
    exact (execSyncInEdge_eq s).trans (onCore_eq hclock (foldl_syncOut_on (fun n hn => hon n (List.mem_range.mp hn)) hpll))
  case commit12 =>
    intro s t hclock hlocks hcommit
    change execStarterStuTimeCommit s = _
    exact commitWrite_accepted hclock hlocks hcommit
  case commit1 =>
    intro s hclock hlocks hlen
    change execStuCommit s = _
    exact commitWrite_accepted hclock hlocks (commitBlock_runningLength hlen)
  case newLength =>
    intro s hclock hlocks hlen hparked
    change execStuCommit s = _
    exact commitWrite_accepted hclock hlocks (commitBlock_newLength hlen hparked)
  case stepRow =>
    intro d b s hclock _ _ hsnap hconv
    change execTimeStepApply s = _
    exact onCore_eq hclock (congrArg (applyStep · s) (by simp [hsnap, hconv]))
  case step =>
    intro start d b s hstep
    refine ⟨applyStep_stays, ?_⟩
    rintro hparked rfl
    exact applyStep_applies hstep hparked
  case edge =>
    intro o e s hclock p hnext hin
    change execTimePulseEdge o s = _
    exact onCore_eq hclock (pulseEdge_falls hnext hin)
  case pulseEnd =>
    intro o e s hclock p htill hin
    change execTimePulseEnd o s = _
    exact onCore_eq hclock (pulseEnd_ends htill hin)
  case capture =>
    intro i rising off s hclock _ _
    change execTimeCapture i rising off s = _
    exact onCore_eq hclock rfl
  case time =>
    intro s hclock
    change execStuTimeSLoRead s = _
    exact onCore_eq hclock rfl
  case cap =>
    intro i s hclock
    change execStuCapSLoRead i s = _
    exact onCore_eq hclock rfl
  case arm =>
    intro o s t hclock hlocks harm
    change execStuTpCfgArm o s = _
    exact onCore_barWo hclock hlocks (congrArg Prod.fst harm)

/-! ### PTP -/

/-- The row of a frame that carries a PTP message, in a running core: what f makes of the message. -/
theorem onPtp_eq {p : Nat} {l m : List Byte} {f : State → List Byte → State} {s t : State} (hclock : clocked s = true)
    (hframe : ptpFrameIn s p l = some m) (hf : f s m = t) : onPtp p l f s = .next (settle t) :=
  onCore_eq hclock (by simp only [hframe, hf])

/-- Settles O48. -/
theorem ptpRowsComplete : Obligations.PtpRowsComplete := by
  refine ⟨?stamp, ?twoStep, ?oneStep, ?followUp, ?announce, ?pdelayReq, ?pdelayResp, ?pdelayFollow, ?delayResp, ?request,
    ?timeout, ?late⟩
  case stamp =>
    intro p out r s hclock
    change execTimestampInterrupt p out r s = _
    exact onCore_eq hclock rfl
  case twoStep =>
    intro p l m t u s hclock hframe hstamp htakes hmaster hlow hhigh htwo
    change execPtpSync p l s = _
    exact onPtp_eq hclock hframe (by simp [ptpSyncIn, hstamp, htakes, hmaster, hlow, hhigh, htwo])
  case oneStep =>
    intro p l m t u s hclock hframe hstamp htakes hmaster hlow hhigh htwo
    change execPtpSync p l s = _
    exact onPtp_eq hclock hframe (by simp [ptpSyncIn, hstamp, htakes, hmaster, hlow, hhigh, htwo])
  case followUp =>
    intro p l m t c i s hclock hframe htakes hmaster hsync
    change execPtpFollowUp p l s = _
    exact onPtp_eq hclock hframe (by simp only [ptpFollowIn, htakes, hmaster, hsync, Bool.and_true, if_true])
  case announce =>
    intro p l m s hclock hframe htakes hsteps hfree
    change execPtpAnnounce p l s = _
    exact onPtp_eq hclock hframe (by simp only [announce, htakes, hsteps, hfree, and_true, if_true])
  case pdelayReq =>
    intro p l m t u s hclock hframe hstamp htakes
    change execPtpPdelayReq p l s = _
    exact onPtp_eq hclock hframe (by simp only [pdelayReqIn, hstamp, htakes, if_true])
  case pdelayResp =>
    intro p l m t4 t1 r u s hclock hframe hstamp htakes hprof hreq htwo
    change execPtpPdelayResp p l s = _
    exact onPtp_eq hclock hframe (by simp [pdelayRespIn, hstamp, htakes, hprof, hreq, htwo])
  case pdelayFollow =>
    intro p l m t1 t4 t2 s hclock hframe htakes hprof hreq
    change execPtpPdelayRespFollowUp p l s = _
    exact onPtp_eq hclock hframe (by simp [pdelayFollowIn, htakes, hprof, hreq])
  case delayResp =>
    intro p l m t3 r d s hclock hframe htakes hprof hmaster hreq hdiff
    change execPtpDelayResp p l s = _
    exact onPtp_eq hclock hframe (by simp [delayRespIn, htakes, hprof, hmaster, hreq, hdiff])
  case request =>
    intro p s hclock hon hprof
    change execPtpDelayRequestSend p s = _
    exact onCore_eq hclock (by simp [delayReqOut, hon, hprof, zeroB])
  case timeout =>
    intro p s hclock
    change execAnnounceReceiptTimeout p s = _
    exact onCore_eq hclock rfl
  case late =>
    intro s hclock hen hquality
    change execPtpAcquireTimeout s = _
    exact onCore_eq hclock (if_pos (by simp [hen, hquality]))

end Sys2Proof.Machine

/-!
PROOFS. What the rows of the power states, of the reset pins and of boot do (chapters 16 and 17).
-/
namespace Sys2Proof.Machine

/-! ### Rows of the Wax domain -/

/-- A Wax row that comes to the state t: the end of the row is that of the core where the core clock runs. -/
theorem onWax_eq {s t : State} {f : State → State} (hruns : waxRuns s = true) (hf : f s = t) :
    onWax s f = .next (if clocked t then settle t else updPins t) := by
  rw [onWax, if_pos hruns, hf]

/-- A Wax row that ends in CURE: the core stands, so the pins alone follow. -/
theorem onWax_cure {s t : State} {f : State → State} (hruns : waxRuns s = true) (hf : f s = t) (hmode : t.power.mode = .cure) :
    onWax s f = .next (updPins t) := by
  rw [onWax_eq hruns hf, clocked_of_cure hmode, if_neg Bool.false_ne_true]

theorem sendVout_power (s : State) (mv : Nat) : (sendVout s mv).power = s.power := by
  rw [sendVout]
  split <;> rfl

theorem wakeFails_mode (s : State) : (wakeFails s).power.mode = s.power.mode := by
  rw [wakeFails, sendVout_power]
  rfl

/-- No attempt has just begun, so a source of CURE wakes by itself. -/
theorem wakeBy_starts {s : State} {c : Nat} (hmode : s.power.mode = .cure)
    (halone : s.power.wakeStep ≠ some 1 ∨ s.power.attempts ≠ 0 ∨ s.power.wakeFail = true) : wakeBy s c = startWake s [c] := by
  have hnot : ¬ (s.power.wakeStep = some 1 ∧ s.power.attempts = 0 ∧ !s.power.wakeFail) := by
    rintro ⟨hstep, hatt, hfail⟩
    rcases halone with h | h | h
    · exact h hstep
    · exact h hatt
    · simp [h] at hfail
  simp only [wakeBy, hmode, hnot, if_false]

theorem wakeBy_joins {s : State} {c : Nat} (hmode : s.power.mode = .cure) (hstep : s.power.wakeStep = some 1)
    (hatt : s.power.attempts = 0) (hfail : s.power.wakeFail = false) :
    wakeBy s c = joinWake s s.power.lastSrc c fun x low => { x with lastSrc := low } := by
  simp only [wakeBy, hmode, hstep, hatt, hfail, Bool.not_false, and_self, if_true]

/-- IDLE ends by a wake source, which neither an aborted entry nor PWR_RUN of a device in RUN is. -/
theorem leaveIdle_wakes {s : State} {n : Nat} (hreq : s.power.exitReq = some (n + 1)) (hn : n + 1 ≠ 0xFF)
    (hmode : s.power.mode = .idle) :
    leaveIdle s = powerEvent (resume (modPw (modPw (takeCfg s) fun x => { x with exitReq := none }) fun x =>
      { x with mode := .run, lockWait := true, lastSrc := n + 1 })) (n + 1) := by
  rw [leaveIdle, hreq]
  split
  case h_1 h => cases h
  case h_2 h => cases h
  case h_3 h => exact absurd (Option.some.inj h) hn
  case h_4 h =>
    cases h
    exact if_pos hmode

/-- Settles O49. -/
theorem powerRowsComplete : Obligations.PowerRowsComplete := by
  refine ⟨?idle, ?exit, ?entry, ?sources, ?joins, ?good, ?ready, ?notReady, ?retry, ?wrap, ?rail, ?diodes, ?release, ?count⟩
  case idle =>
    intro s hclock hreq hmode
    change execIdleEntry s = _
    exact onCore_eq hclock (if_pos ⟨hreq, hmode⟩)
  case exit =>
    intro n s hclock hreq hn hmode
    change execIdleExit s = _
    exact onCore_eq hclock (leaveIdle_wakes hreq hn hmode)
  case entry =>
    intro s hruns hclock _
    change execCureEntry s = _
    exact onWax_eq hruns (if_pos hclock)
  case sources =>
    intro s hruns hmode halone
    refine ⟨fun hcfg => ?_, fun halarm => ?_, fun hcfg => ?_, fun p bytes hcfg hframe => ?_, fun i hcfg => ?_⟩
    · change execWakeNAssert s = _
      exact onWax_eq hruns ((if_pos hcfg).trans (wakeBy_starts hmode halone))
    · change execWaxAlarm s = _
      exact onWax_eq hruns ((if_pos halarm).trans (wakeBy_starts hmode halone))
    · change execPcieWake s = _
      exact onWax_eq hruns ((if_pos hcfg).trans (wakeBy_starts hmode halone))
    · change execWakeFrame p bytes s = _
      exact onWax_eq hruns ((if_pos (by simp [hcfg, hframe])).trans (wakeBy_starts hmode halone))
    · change execWakeTripInput i s = _
      exact onWax_eq hruns ((if_pos hcfg).trans (wakeBy_starts hmode halone))
  case joins =>
    intro c s hmode hstep hatt hfail d
    rw [wakeBy_joins hmode hstep hatt hfail]
    exact ⟨fun h => if_pos h, fun h => if_neg h⟩
  case good =>
    intro s hruns hmode hstep
    constructor
    · change execPowerGood s = _
      exact onWax_cure hruns (if_pos hstep) hmode
    · change execPowerGoodTimeout s = _
      exact onWax_cure hruns (if_pos hstep) ((wakeFails_mode s).trans hmode)
  case ready =>
    intro n s hruns hstep
    change execOscillatorReady n s = _
    exact onWax_eq hruns (if_pos hstep)
  case notReady =>
    intro s hruns hmode hstep
    change execOscillatorReadyTimeout s = _
    exact onWax_cure hruns (if_pos hstep) ((wakeFails_mode s).trans hmode)
  case retry =>
    intro s hruns hmode hstep
    change execWakeRetry s = _
    exact onWax_cure hruns (if_pos hstep) ((congrArg Power.mode (sendVout_power _ _)).trans hmode)
  case wrap =>
    intro s hruns hmode
    change execWaxCounterWrap s = _
    exact onWax_cure hruns (if_pos hmode) hmode
  case rail =>
    intro r above beyond s hruns t
    change execRailCrossing r above beyond s = _
    exact onWax_eq hruns rfl
  case diodes =>
    intro l s hruns hmode t
    change execCureDiodeCheck l s = _
    exact onWax_eq hruns rfl
  case release =>
    intro s hruns hmode hhold hcool t
    change execCellarHoldRelease s = _
    exact onWax_eq hruns (if_pos ⟨hhold, hmode, hcool⟩)
  case count =>
    intro s hclock
    change execPwrWaxCntLoRead s = _
    exact onCore_eq hclock rfl

/-! ### Reset pins and straps -/

theorem released_samples {s : State} {straps : BitVec 12} (hrst : s.boot.rstLow = false) (hporst : s.boot.porstLow = false)
    (haon : s.boot.aonUp = true) :
    released s straps = modBo s fun x => { x with straps := straps, sample := straps, sampling := true } :=
  if_neg (by simp [hrst, hporst, haon])

theorem updPins_rstSts (s : State) : (updPins s).boot.rstSts = s.boot.rstSts := by
  rw [updPins]
  split <;> rfl

/-- A boot image is loaded while boot waits for one from the flash. -/
theorem imageLoaded_flash {s : State} {otpOk flashOk : Bool} {ms : Nat} (hstage : s.boot.stage = 2) (hsrc : bootSrc s = 0) :
    imageLoaded s otpOk flashOk ms =
      if !otpOk then enterRecovery s
      else if !flashOk then enterRecovery (raiseE s 829 0)
      else match chooseSlot s with
        | some (v, n, fb) => firmwareStart s v n fb true ms
        | none => enterRecovery s := by
  simp only [imageLoaded, hstage, hsrc]
  rfl

/-- Settles O50. -/
theorem resetAndBootRowsComplete : Obligations.ResetAndBootRowsComplete := by
  refine ⟨?rst, ?rstAbsorbed, ?rstHigh, ?porst, ?porstHigh, ?aonDown, ?aonUp, ?resample, ?fallback, ?noOtp, ?image, ?unseen,
    ?seen, ?autostart, ?go⟩
  case rst =>
    intro s hrst hporst
    change execRstNAssert s = _
    exact congrArg pinned ((if_neg (by simp [hrst])).trans (if_neg (by simp [hporst])))
  case rstAbsorbed =>
    intro s hrst hporst
    change execRstNAssert s = _
    exact congrArg pinned ((if_neg (by simp [hrst])).trans (if_pos hporst))
  case rstHigh =>
    intro st s hrst hporst haon
    change execRstNRelease st s = _
    exact congrArg pinned ((if_pos hrst).trans (released_samples rfl hporst haon))
  case porst =>
    intro s hporst
    change execPorstNAssert s = _
    exact congrArg pinned (if_neg (by simp [hporst]))
  case porstHigh =>
    intro st s hporst hrst haon
    change execPorstNRelease st s = _
    exact congrArg pinned ((if_pos hporst).trans (released_samples hrst rfl haon))
  case aonDown =>
    intro s
    exact ⟨_, rfl, updPins_aonUp _, updPins_rstLow _, updPins_porstLow _, updPins_lockout _, updPins_rstSts _,
      updPins_power _, updPins_cellar _, updPins_mode _⟩
  case aonUp =>
    intro s haon
    change execAonSupplyUp s = _
    exact congrArg pinned (if_neg (by simp [haon]))
  case resample =>
    intro s hclock hsampling
    have hsame : s.boot.sample ^^^ s.boot.sample = 0 := BitVec.xor_self
    change execStrapResample s.boot.sample s = _
    exact onCore_eq hclock (by simp only [hsampling, hsame, if_true, Bool.not_true, Bool.false_eq_true, if_false])
  case fallback =>
    intro s hclock hstage hsampling habsent
    change execBootRefclkFallback s = _
    exact onCore_eq hclock (if_pos ⟨hstage, by simp [hsampling], habsent⟩)
  case noOtp =>
    intro flashOk ms s hclock hstage hsrc
    change execImageLoadComplete false flashOk ms s = _
    exact onCore_eq hclock (imageLoaded_flash hstage hsrc)
  case image =>
    intro ms v n fb s hclock hstage hsrc hslot
    change execImageLoadComplete true true ms s = _
    exact onCore_eq hclock ((imageLoaded_flash hstage hsrc).trans (by simp [hslot]))
  case unseen =>
    intro s hclock hretry hwords hpeer
    have hmore : s.boot.twinRetry ≠ 0 ∧ s.boot.twinRetry ≠ 1 := by omega
    change execTwinBlockRetry s = _
    exact onCore_eq hclock (by simp [hwords, hpeer, hmore])
  case seen =>
    intro t s hclock hretry hwords hpeer hcommit
    change execTwinBlockRetry s = _
    exact onCore_eq hclock (by simp [hwords, hpeer, hretry, hcommit])
  case autostart =>
    intro s hclock hok
    change execHoldBusAutostart s = _
    exact onCore_eq hclock (if_pos hok)
  case go =>
    intro s hclock hlocks hstage hsrc
    change execSysBootCtlGo s = _
    exact onCore_barWo hclock hlocks (if_pos ⟨hstage, hsrc⟩)

end Sys2Proof.Machine

/-!
PROOFS. What register accesses do, and what arrives on the transports (chapters 13 and 18).
-/
namespace Sys2Proof.Machine

/-! ### Register accesses -/

theorem commitBlock_thirteen (s : State) :
    commitBlock s 13 = (endStatusQueue (applyBlock (stageBlock s 13 fun _ _ => true) 13), none) :=
  commitBlock_accepted (by simp [holdBusBlock]) rfl

/-- Settles O51. -/
theorem registerRowsComplete : Obligations.RegisterRowsComplete := by
  refine ⟨?write, ?spiRead, ?spiWrite, ?commit⟩
  case write =>
    intro a v s hclock
    constructor
    · change execRegisterWrite a v true s = _
      exact onCore_eq hclock rfl
    · change execRegisterWrite a v false s = _
      exact onCore_eq hclock rfl
  case spiRead =>
    intro a n s hclock hspi
    change execSpiRegRead a n s = _
    exact onCore_eq hclock (if_pos hspi)
  case spiWrite =>
    intro a v s hclock hspi
    change execSpiRegWrite a [v] s = _
    exact onCore_eq hclock (if_pos hspi)
  case commit =>
    intro s hclock hlocks
    change execCommandBlockCommit s = _
    exact commitWrite_accepted hclock hlocks (commitBlock_thirteen s)

/-! ### Doorbells and fetches -/

theorem cqHeadWrite_inside {s : State} {q w : Nat} (hin : bitsAt w 0 12 < queueSize s q)
    (hwritten : (bitsAt w 0 12 + queueSize s q - fld s .cmdCqHead_head q) % queueSize s q ≤
      ((getQ s q).cqTail + queueSize s q - fld s .cmdCqHead_head q) % queueSize s q) :
    cqHeadWrite s q w = setFld s .cmdCqHead_head q (bitsAt w 0 12) := by
  refine if_neg ?_
  rintro ⟨-, h | h⟩
  · exact absurd h (Nat.not_le.mpr hin)
  · exact absurd h (Nat.not_lt.mpr hwritten)

theorem fetched_inline {s : State} {q : Nat} {e : List Byte} {ind : Option (List Byte)} (hfar : bitAt (byteAt e 2) 1 = false)
    (hqueue : (packetOf 0 (fieldAt e 56 9) e
      ((padB (fieldAt e 6 2) ((e.drop 16).take 40)).take (fieldAt e 6 2 / 4 * 4))).2.queue.toNat = q) :
    fetched s q e ind = enqueue (modQ s q fun x => { x with sqHead := (x.sqHead + 1) % queueSize s q }) q
      (packetOf 0 (fieldAt e 56 9) e ((padB (fieldAt e 6 2) ((e.drop 16).take 40)).take (fieldAt e 6 2 / 4 * 4))) := by
  simp only [fetched, hfar, Bool.false_eq_true, if_false, false_and]
  exact if_neg (not_not_intro hqueue)

/-! ### Datagrams -/

theorem udpIn_discards {s : State} {p mac : Nat} {vlan : Option Nat} {h l : List Byte}
    (hbad : udpHeadOk s p vlan h l = false ∨ beAt h 22 2 ≠ fld0 s .cmdUdpCfg_port) : udpIn s p mac vlan h l = s := by
  refine if_neg ?_
  rw [Bool.and_eq_true, beq_iff_eq]
  rintro ⟨hhead, hport⟩
  rcases hbad with h | h
  · simp [hhead] at h
  · exact h hport

theorem udpIn_datagram {s : State} {p mac : Nat} {vlan : Option Nat} {h l : List Byte} (hhead : udpHeadOk s p vlan h l = true)
    (hport : beAt h 22 2 = fld0 s .cmdUdpCfg_port) :
    udpIn s p mac vlan h l = datagram s p mac (beAt h 12 4) (beAt h 20 2) (l.take (beAt h 24 2 - 8)) :=
  if_pos (by simp [hhead, hport])

/-- A datagram of at least a header for a queue there is. -/
theorem datagram_eq {s : State} {p mac ip port : Nat} {l : List Byte} (hlen : 16 ≤ l.length) (hqueue : byteAt l 3 < 32) :
    datagram s p mac ip port l =
      match udpArrives s (byteAt l 3) p mac ip port with
      | (true, t) =>
        match replayOf t (packetOf 1 (Packet.source p mac ip port) l (l.drop 16)).2 with
        | some d => sendReplay t (packetOf 1 (Packet.source p mac ip port) l (l.drop 16)).2 d
        | none => enqueue t (byteAt l 3) (packetOf 1 (Packet.source p mac ip port) l (l.drop 16))
      | (false, t) => t := by
  refine if_neg ?_
  simp only [Bool.or_eq_true, decide_eq_true_eq]
  omega

theorem datagram_drops {s : State} {p mac ip port : Nat} {l : List Byte} (hon : udpOn s p = true) (hlen : 16 ≤ l.length)
    (hqueue : byteAt l 3 < 32) (haccept : udpAccepts s (byteAt l 3) ip = false) :
    datagram s p mac ip port l = dropped s (byteAt l 3) := by
  have harrive : udpArrives s (byteAt l 3) p mac ip port = (false, dropped s (byteAt l 3)) := by
    simp [udpArrives, hon, haccept]
  rw [datagram_eq hlen hqueue, harrive]

/-- No answer is stored, so a datagram that its queue takes joins it. -/
theorem datagram_joins {s : State} {p mac ip port : Nat} {l : List Byte} (hon : udpOn s p = true) (hlen : 16 ≤ l.length)
    (hqueue : byteAt l 3 < 32) (haccept : udpAccepts s (byteAt l 3) ip = true)
    (hreplay : (getQ s (byteAt l 3)).replay = []) :
    datagram s p mac ip port l =
      enqueue (modQ s (byteAt l 3) fun y => { y with peer := some (p, mac, ip, port) }) (byteAt l 3)
        (packetOf 1 (Packet.source p mac ip port) l (l.drop 16)) := by
  have harrive : udpArrives s (byteAt l 3) p mac ip port =
      (true, modQ s (byteAt l 3) fun y => { y with peer := some (p, mac, ip, port) }) := by
    simp [udpArrives, hon, haccept]
  have hq : (packetOf 1 (Packet.source p mac ip port) l (l.drop 16)).2.queue.toNat = byteAt l 3 :=
    Nat.mod_eq_of_lt (by omega)
  have hnone : replayOf (modQ s (byteAt l 3) fun y => { y with peer := some (p, mac, ip, port) })
      (packetOf 1 (Packet.source p mac ip port) l (l.drop 16)).2 = none := by
    simp [replayOf, hq, getQ_modQ_same, hreplay]
  rw [datagram_eq hlen hqueue, harrive]
  simp only [hnone]

theorem udpAccepts_fresh {s : State} {q ip : Nat} (hmode : (getQ s q).mode = .active) (htransport : fld s .cmdQCfg_transport q = 1)
    (hpeer : rword s .cmdUdpPeer q = 0) (hroom : (getQ s q).ready.length < queueSize s q) : udpAccepts s q ip = true := by
  simp [udpAccepts, hmode, htransport, hpeer, hroom]

/-! ### ARP and ICMP echo -/

theorem arpIn_answers {s : State} {p : Nat} {l a : List Byte} (hframe : ethPayload s 0x0806 l = some a)
    (hip : fld s .cmdEthIp_ip p ≠ 0) (hlen : 28 ≤ a.length)
    (hhead : a.take 8 = netB 2 1 ++ netB 2 0x0800 ++ netB 1 6 ++ netB 1 4 ++ netB 2 1)
    (htarget : beAt a 24 4 = fld s .cmdEthIp_ip p) :
    arpIn s p l = send s (.eth p (padB 60 (ethB s p ((a.drop 8).take 6) 0x0806 ++
      (a.take 6 ++ netB 2 2 ++ macB s p ++ netB 4 (fld s .cmdEthIp_ip p) ++ (a.drop 8).take 6 ++ (a.drop 14).take 4)))) := by
  simp only [arpIn, hframe]
  exact if_pos ⟨hip, hlen, hhead, htarget⟩

/-! ### SPI -/

theorem spiSubmit_joins {s : State} {l : List Byte} (hserves : spiServes s = true) (hfree : executing s (spiQueue s) = false)
    (hready : (getQ s (spiQueue s)).ready = []) (hspi : (getQ s (spiQueue s)).spi = none)
    (hqueue : (packetOf 2 0 l (l.drop 16)).2.queue.toNat = spiQueue s) :
    spiSubmit s l = enqueue s (spiQueue s) (packetOf 2 0 l (l.drop 16)) := by
  have harrive : spiArrives s = (true, s) := by simp [spiArrives, hserves, hfree, hready, hspi]
  simp only [spiSubmit, harrive]
  exact if_neg (not_not_intro hqueue)

theorem spiFetch_completion {s : State} {n : Nat} {d : List Byte} (hon : spiOn s = true)
    (hspi : (getQ s (spiQueue s)).spi = some d) (hn : 17 ≤ n) :
    spiFetch s n = modQ (readsOut s ((((1 : Byte) :: d).take n).map fun b => b.setWidth 32)) (spiQueue s)
      fun x => { x with spi := none } := by
  simp only [spiFetch, hon, hspi, hn, if_true, Bool.not_true, Bool.false_eq_true, if_false]

theorem spiFetch_nothing {s : State} {n : Nat} (hon : spiOn s = true) (hspi : (getQ s (spiQueue s)).spi = none) (hn : n < 17) :
    spiFetch s n = readsOut s ((([(0 : Byte)]).take n).map fun b => b.setWidth 32) := by
  simp only [spiFetch, hon, hspi, Nat.not_le.mpr hn, Bool.not_true, Bool.false_eq_true, if_false]

/-! ### Locks -/

theorem lockWaitEnds_held {s : State} {q : Nat} {w : Waiting} {key : LockKey} {hold : Nat} {l : Lock}
    (hwait : lockWait s q = some w) (hlock : w.wait = .lock key hold) (hother : otherLock s q key = some l) :
    lockWaitEnds s q = finish (unwait s w) w.packet stLockHeld l.queue [] := by
  simp only [lockWaitEnds, hwait, hlock, hother]

theorem lockExpires_breaks {s : State} {q : Nat} {key : LockKey} {l : Lock}
    (hfind : (s.cmd.locks.find? fun l => l.queue = q && l.key = key) = some l)
    (hpast : l.since + l.hold * 4000000 < nowQ s + s.frame.ticks) (hfree : executing s q = false) :
    lockExpires s q key = breakLock s l 0 := by
  simp only [lockExpires, hfind]
  exact if_pos ⟨hpast, by simp [hfree]⟩

/-- Settles O52. -/
theorem transportRowsComplete : Obligations.TransportRowsComplete := by
  refine ⟨?doorbell, ?head, ?enable, ?fetch, ?udp, ?arp, ?icmp, ?submit, ?spiFetch, ?spiEmpty, ?hotReset, ?link, ?lockWait,
    ?expiry, ?restart⟩
  case doorbell =>
    intro q v s hclock hin
    change execCmdSqTailDoorbell q v s = _
    exact onCore_eq hclock (sqTailWrite_inside hin)
  case head =>
    intro q v s hclock hin hwritten
    change execCmdCqHeadWrite q v s = _
    exact onCore_eq hclock (cqHeadWrite_inside hin hwritten)
  case enable =>
    intro q v s hclock
    change execCmdQCfgEnable q v s = _
    exact onCore_eq hclock rfl
  case fetch =>
    intro q e ind s hclock hmay b k
    have hmay' : ¬ (!mayFetch s q) = true := by simp [hmay]
    refine ⟨fun hfar hfar' hqueue => ?_, fun hfar hstarving => ?_, ?_⟩
    · change execCommandFetch q (some e) ind s = _
      exact onCore_eq hclock ((if_neg hmay').trans ((if_neg (by simp [hfar'])).trans (fetched_inline hfar hqueue)))
    · change execCommandFetch q (some e) ind s = _
      exact onCore_eq hclock ((if_neg hmay').trans (if_pos (by simp [hfar, hstarving])))
    · change execCommandFetch q none ind s = _
      exact onCore_eq hclock (if_neg hmay')
  case udp =>
    intro p mac vlan h m s hclock
    refine ⟨fun hbad => ?_, fun hhead hport hon hlen hq => ⟨fun haccept => ?_, fun hmode htransport hpeer hroom hreplay => ?_⟩⟩
    · change execUdpDatagram p mac vlan h m s = _
      exact onCore_eq hclock (udpIn_discards hbad)
    · change execUdpDatagram p mac vlan h m s = _
      exact onCore_eq hclock ((udpIn_datagram hhead hport).trans (datagram_drops hon hlen hq haccept))
    · change execUdpDatagram p mac vlan h m s = _
      exact onCore_eq hclock ((udpIn_datagram hhead hport).trans
        (datagram_joins hon hlen hq (udpAccepts_fresh hmode htransport hpeer hroom) hreplay))
  case arp =>
    intro p l a s hclock hframe hip hlen hhead htarget
    change execArpRequest p l s = _
    exact onCore_eq hclock (arpIn_answers hframe hip hlen hhead htarget)
  case icmp =>
    intro p l d s hclock hframe ip n m pad hip hver hlow hhigh hfrag hproto hsum hdst htype hcode hcheck x y head body f
    change execIcmpEchoRequest p l s = _
    refine onCore_eq hclock ?_
    simp only [icmpIn, hframe]
    exact if_pos ⟨hip, hver, hlow, hhigh, hfrag, hproto, hsum, hdst, htype, hcode, hcheck⟩
  case submit =>
    intro l s hclock hserves hfree hready hspi hqueue
    change execSpiSubmit l s = _
    exact onCore_eq hclock (spiSubmit_joins hserves hfree hready hspi hqueue)
  case spiFetch =>
    intro n d s hclock hon hspi hn
    change execSpiFetch n s = _
    exact onCore_eq hclock (spiFetch_completion hon hspi hn)
  case spiEmpty =>
    intro n s hclock hon hspi hn
    change execSpiFetch n s = _
    exact onCore_eq hclock (spiFetch_nothing hon hspi hn)
  case hotReset =>
    intro s hclock
    change execPcieHotReset s = _
    exact onCore_eq hclock rfl
  case link =>
    intro s hclock
    constructor
    · change execPcieLinkState true s = _
      exact onCore_eq hclock rfl
    · change execPcieLinkState false s = _
      exact onCore_eq hclock rfl
  case lockWait =>
    intro q w key hold l s hclock hwait hlock hother
    change execLockWaitTimeout q s = _
    exact onCore_eq hclock (lockWaitEnds_held hwait hlock hother)
  case expiry =>
    intro q d n l s hclock hfind hpast hfree
    change execLockExpiry q d n s = _
    exact onCore_eq hclock (lockExpires_breaks hfind hpast hfree)
  case restart =>
    intro s hclock
    constructor
    · change execLockstepMismatch s = _
      exact onCore_eq hclock rfl
    · change execCommandWatchdogExpiry s = _
      exact onCore_eq hclock rfl

end Sys2Proof.Machine

/-!
PROOFS. What the SYS and CFG opcodes do (chapter 13).
-/
namespace Sys2Proof.Machine

/-- A completion without a reply fits every reply space. -/
theorem finishAt_nil (s : State) (p : Packet) (st res k : Nat) :
    finishAt s p st res [] k = deliver s p st res (k % 2 ^ 32) [] :=
  if_neg (Nat.not_lt_zero _)

/-! ### The commit of a block as a command -/

theorem commitCmdBlock_accepted {s u : State} {p : Packet} {n : Nat} (hcommit : commitBlock s n = (u, none)) :
    commitCmdBlock s p n = deliver u p stOk 0
      ((u.frame.k + if n = 1 ∧ u.frame.lenPending.isSome then framesToSecond u else 1) % 2 ^ 32) [] := by
  simp only [commitCmdBlock, hcommit, finishAt_nil]

/-- A commit that sets no new frame length takes effect in the next frame. -/
theorem commitCmdBlock_nextFrame {s u : State} {p : Packet} {n : Nat} (hcommit : commitBlock s n = (u, none))
    (hlen : n ≠ 1 ∨ u.frame.lenPending = none) :
    commitCmdBlock s p n = deliver u p stOk 0 ((u.frame.k + 1) % 2 ^ 32) [] := by
  have hnot : ¬ (n = 1 ∧ u.frame.lenPending.isSome) := by
    rintro ⟨hn, hsome⟩
    rcases hlen with h | h
    · exact h hn
    · simp [h] at hsome
  rw [commitCmdBlock_accepted hcommit, if_neg hnot]

theorem commitCmdBlock_newLength {s u : State} {p : Packet} {n : Nat} (hcommit : commitBlock s n = (u, none)) (hn : n = 1)
    (hlen : u.frame.lenPending ≠ none) :
    commitCmdBlock s p n = deliver u p stOk 0 ((u.frame.k + framesToSecond u) % 2 ^ 32) [] := by
  rw [commitCmdBlock_accepted hcommit, if_pos ⟨hn, Option.isSome_iff_ne_none.mpr hlen⟩]

/-- Settles O53. -/
theorem sysAndCfgCommandsComplete : Obligations.SysAndCfgCommandsComplete := by
  refine ⟨?nop, ?ident, ?status, ?reset, ?persist, ?flashRead, ?imageWrite, ?imageSelect, ?commit, ?bankCommit, ?bankCopy,
    ?discard, ?save, ?load, ?digest, ?pending⟩
  case nop =>
    intro s t p hstart
    change execSysNop p s = _
    exact onCmd_eq hstart (finish_nil ..)
  case ident =>
    intro s t p hstart hfit
    change execSysIdent p s = _
    exact onCmd_eq hstart (finishData_eq_answer hfit)
  case status =>
    intro s t p hstart hfit
    change execSysStatus p s = _
    exact onCmd_eq hstart (finishData_eq_answer hfit)
  case reset =>
    intro s t p hstart hkey hconv
    have hrest : (t.mode.conv == .parked || t.mode.conv == .safe) = true := by simpa using hconv
    change execSysReset p s = _
    exact onCmd_eq hstart ((require_true (decide_eq_true hkey)).trans ((require_true hrest).trans
      (congrArg (internalReset · 3 false) (finish_nil ..))))
  case persist =>
    intro s t p hstart
    change execSysPersist p s = _
    exact onCmd_eq hstart rfl
  case flashRead =>
    intro s t p hstart hlen hend
    change execSysFlashRead p s = _
    exact onCmd_eq hstart (require_true (by simp [hlen, hend]))
  case imageWrite =>
    intro s t p hstart hconv hslot hend
    change execSysImageWrite p s = _
    exact onCmd_eq hstart ((require_true (by simp [hconv])).trans (require_true (by simp [hslot, hend])))
  case imageSelect =>
    intro s t p hstart hslot
    change execSysImageSelect p s = _
    exact onCmd_eq hstart (require_true (decide_eq_true hslot))
  case commit =>
    intro s t p hstart hcode u hcommit
    refine ⟨fun hlen => ?_, fun hn hlen => ?_⟩
    · change execCfgCommit p s = _
      exact onCmd_eq hstart ((require_true hcode).trans (commitCmdBlock_nextFrame hcommit hlen))
    · change execCfgCommit p s = _
      exact onCmd_eq hstart ((require_true hcode).trans (commitCmdBlock_newLength hcommit hn hlen))
  case bankCommit =>
    intro s t u p hstart hbusy hcommit
    change execCfgBankCommit p s = _
    refine onCmd_eq hstart ((require_true (by simp [hbusy])).trans ?_)
    simp only [hcommit, finishAt_nil]
  case bankCopy =>
    intro s t p hstart hbusy
    change execCfgBankCopy p s = _
    exact onCmd_eq hstart (require_true (by simp [hbusy]))
  case discard =>
    intro s t p hstart hcode
    change execCfgDiscard p s = _
    exact onCmd_eq hstart ((require_true hcode).trans (finish_nil ..))
  case save =>
    intro s t p hstart
    change execCfgSave p s = _
    exact onCmd_eq hstart rfl
  case load =>
    intro s t p hstart
    change execCfgLoad p s = _
    exact onCmd_eq hstart rfl
  case digest =>
    intro s t p hstart
    change execCfgDigest p s = _
    exact onCmd_eq hstart (finish_nil ..)
  case pending =>
    intro s t p hstart
    change execCfgPending p s = _
    exact onCmd_eq hstart (finish_nil ..)

end Sys2Proof.Machine

/-!
PROOFS. What the PARAM, POINT and CELL opcodes do (chapter 13).
-/
namespace Sys2Proof.Machine

/-! ### PARAM and POINT -/

theorem finishPoints_eq_deliver {s : State} {p : Packet} {pas : List Nat} (hrange : ∀ pa ∈ pas, pa < 299008)
    (hfit : (pas.flatMap (pointB s)).length ≤ replySpace s p) :
    finishPoints s p pas =
      deliver s p stOk (pas.flatMap (pointB s)).length (s.curd.snapK % 2 ^ 32) (pas.flatMap (pointB s)) :=
  (require_true (List.all_eq_true.mpr fun pa hpa => decide_eq_true (hrange pa hpa))).trans (if_neg (Nat.not_lt.mpr hfit))

theorem paramInfo_length (a b c d : Nat) : (leB 4 a ++ leB 4 b ++ leB 4 c ++ leB 4 d).length = 16 := by
  simp only [List.length_append, length_leB]

/-- Settles O54. -/
theorem paramAndPointCommandsComplete : Obligations.ParamAndPointCommandsComplete := by
  refine ⟨?read, ?write, ?info, ?points, ?range, ?pointWrite, ?descRead, ?descWrite, ?calRead, ?calWrite, ?persist⟩
  case read =>
    intro s t u l p hstart hread hfit hfit'
    change execParamRead p s = _
    refine onCmd_eq hstart ?_
    simp only [hread, Nat.not_lt.mpr hfit, if_false]
    exact finishData_eq_answer hfit'
  case write =>
    intro s t p hstart hpass
    change execParamWrite p s = _
    refine onCmd_eq hstart ?_
    simp only [hpass]
    exact finish_nil ..
  case info =>
    intro s t p hstart hknown hfit x f l
    change execParamInfo p s = _
    refine onCmd_eq hstart ?_
    have hlen : l.length = 16 := paramInfo_length ..
    have hfinish : finishData (paramFacts t x).2 p l = answer (paramFacts t x).2 p stOk 16 l :=
      (finishData_eq_answer (hlen ▸ hfit)).trans (by rw [hlen])
    dsimp only
    split
    · exact absurd ‹_› hknown
    · exact hfinish
  case points =>
    intro s t p hstart hrange hfit
    change execPointRead p s = _
    exact onCmd_eq hstart (finishPoints_eq_deliver hrange hfit)
  case range =>
    intro s t p hstart hlow hhigh hend l hfit
    have hrange : ∀ pa ∈ (List.range (pw p 1)).map (pw p 0 + ·), pa < 299008 := by
      intro pa hpa
      obtain ⟨i, hi, rfl⟩ := List.mem_map.mp hpa
      have := List.mem_range.mp hi
      omega
    change execPointReadRange p s = _
    exact onCmd_eq hstart ((require_true (by simp [hlow, hhigh, hend])).trans (finishPoints_eq_deliver hrange hfit))
  case pointWrite =>
    intro s t p hstart hpass
    change execPointWrite p s = _
    refine onCmd_eq hstart ?_
    simp only [hpass]
    exact finish_nil ..
  case descRead =>
    intro s t p hstart hrange l hfit
    change execPointDescRead p s = _
    exact onCmd_eq hstart ((require_true (decide_eq_true hrange)).trans (finishData_eq_answer hfit))
  case descWrite =>
    intro s t p hstart hrange hwriter hok
    change execPointDescWrite p s = _
    exact onCmd_eq hstart ((require_true (decide_eq_true hrange)).trans
      ((require_true (beq_iff_eq.mpr hwriter)).trans ((require_true hok).trans (finish_nil ..))))
  case calRead =>
    intro s t p hstart hrange hcal
    change execPointCalRead p s = _
    exact onCmd_eq hstart ((require_true (by simp [hrange, hcal])).trans (finish_nil ..))
  case calWrite =>
    intro s t p hstart hrange hcal
    change execPointCalWrite p s = _
    exact onCmd_eq hstart ((require_true (by simp [hrange, hcal])).trans (finish_nil ..))
  case persist =>
    intro s t p hstart
    change execPointCalPersist p s = _
    exact onCmd_eq hstart rfl

/-! ### CELL -/

theorem fitting_runs {s : State} {p : Packet} {n : Nat} {f : State → State} (hfit : n ≤ replySpace s p) :
    fitting s p n f = f s :=
  if_neg (Nat.not_lt.mpr hfit)

/-- Settles O55. -/
theorem cellCommandsComplete : Obligations.CellCommandsComplete := by
  refine ⟨?info, ?bulkRead, ?bulkWrite, ?discover, ?mapSave, ?tripClear, ?eyeRead, ?bypass, ?restore⟩
  case info =>
    intro s t p hstart l hfit
    change execCellInfo p s = _
    exact onCmd_eq hstart (finishData_eq_answer hfit)
  case bulkRead =>
    intro s t p hstart hlow hhigh hfit
    change execCellBulkRead p s = _
    exact onCmd_eq hstart ((require_true (by simp [hlow, hhigh])).trans (fitting_runs hfit))
  case bulkWrite =>
    intro s t p hstart hlow hhigh hblock
    change execCellBulkWrite p s = _
    exact onCmd_eq hstart ((require_true (by simp [hlow, hhigh])).trans (require_true (by simpa using hblock)))
  case discover =>
    intro s t p hstart hparked hbusy
    change execCellDiscover p s = _
    exact onCmd_eq hstart ((require_true hparked).trans (require_true (by simp [hbusy])))
  case mapSave =>
    intro s t p hstart
    change execCellMapSave p s = _
    exact onCmd_eq hstart rfl
  case tripClear =>
    intro s t p hstart hchannel
    change execCellTripClear p s = _
    exact onCmd_eq hstart (require_true (decide_eq_true hchannel))
  case eyeRead =>
    intro s t p hstart hport hpart hfit hsome
    change execCellEyeRead p s = _
    exact onCmd_eq hstart ((require_true (by rw [decide_eq_true hport, Bool.true_and]; exact hpart)).trans ((fitting_runs hfit).trans (if_neg hsome)))
  case bypass =>
    intro s t p hstart u
    change execCellBypass p s = _
    exact onCmd_eq hstart (finish_nil ..)
  case restore =>
    intro s t p hstart hparked hrole
    change execCellRestore p s = _
    exact onCmd_eq hstart ((require_true hparked).trans (require_true (beq_iff_eq.mpr hrole)))

end Sys2Proof.Machine

/-!
PROOFS. What the converter, mode, plan, trace and log opcodes do (chapter 13).
-/
namespace Sys2Proof.Machine

/-! ### Converter and modes -/

theorem startSwap_accepted {s : State} (hrole : s.twin.role = .primary) (hready : s.twin.peerReady = true)
    (hnone : s.twin.swapAt = none) :
    startSwap s = (modTw s fun x => { x with swapAt := some (s.frame.k + 5) }, true) :=
  if_pos ⟨hrole, hready, by simp [hnone]⟩

/-- Settles O56. -/
theorem convAndModeCommandsComplete : Obligations.ConvAndModeCommandsComplete := by
  refine ⟨?start, ?stop, ?restart, ?tripClear, ?lpwmSet, ?lpwmEnable, ?swap, ?calibrate, ?set, ?lvg, ?commit, ?get⟩
  case start =>
    intro s t p hstart hhold hstandby hconv hok
    have hhost := (hostStart_noHoldBus hhold).trans (convStart_parked hstandby hconv hok)
    change execConvStart p s = _
    exact onCmd_eq hstart ((congrArg (asked p) hhost).trans asked_taken)
  case stop =>
    intro s t u p hstart hstop
    change execConvStop p s = _
    exact onCmd_eq hstart ((congrArg (asked p) hstop).trans asked_taken)
  case restart =>
    intro s t u p hstart hinactive hrestart
    change execConvRestart p s = _
    refine onCmd_eq hstart ((if_neg ?_).trans ((congrArg (asked p) hrestart).trans asked_taken))
    rw [Bool.and_eq_true, beq_iff_eq]
    exact hinactive
  case tripClear =>
    intro s t u p hstart hinput hclear
    change execTripClear p s = _
    refine onCmd_eq hstart ((require_true (decide_eq_true hinput)).trans ?_)
    simp only [hclear, if_true, finishSt_eq_answer]
  case lpwmSet =>
    intro s t p hstart hpair hperiod hduty
    change execLpwmSet p s = _
    exact onCmd_eq hstart ((require_true (by
      rw [decide_eq_true hpair, decide_eq_true hperiod, decide_eq_true hduty, Bool.and_true, Bool.and_true])).trans (finish_nil ..))
  case lpwmEnable =>
    intro s t p hstart
    change execLpwmEnable p s = _
    exact onCmd_eq hstart (finish_nil ..)
  case swap =>
    intro s t p hstart hrole hready hnone
    change execTwinSwap p s = _
    refine onCmd_eq hstart ?_
    simp only [startSwap_accepted hrole hready hnone, if_true]
    exact finish_nil ..
  case calibrate =>
    intro s t p hstart hallowed
    change execTwinCalibrate p s = _
    exact onCmd_eq hstart (require_true hallowed)
  case set =>
    intro s t p hstart hfields hmask
    change execModeSet p s = _
    exact onCmd_eq hstart ((require_true (by rw [decide_eq_true hfields, decide_eq_true hmask, Bool.and_true])).trans
      (finish_nil ..))
  case lvg =>
    intro s t p hstart hgroup hbits
    change execModeLvgSet p s = _
    exact onCmd_eq hstart ((require_true (by rw [decide_eq_true hgroup, beq_iff_eq.mpr hbits, Bool.and_true])).trans
      (finish_nil ..))
  case commit =>
    intro s t p hstart u hcommit
    change execModeCommit p s = _
    exact onCmd_eq hstart (commitCmdBlock_nextFrame hcommit (Or.inl (by decide)))
  case get =>
    intro s t p hstart l hfit
    change execModeGet p s = _
    exact onCmd_eq hstart (finishData_eq_answer hfit)

/-! ### Replies from the Cave -/

section Cave
variable {s : State} {p : Packet} {op : Half} {res : Nat} {l : List Byte}

theorem finishCave_eq_answer (hfit : l.length ≤ replySpace s p)
    (hfree : p.transport.val ≠ 0 ∨ vatStarving s (hostDma p.queue.toNat) = false) :
    finishCave s op p res l = answer s p stOk res l := by
  have hnot : ¬ (p.transport = 0 ∧ l.length ≤ replySpace s p ∧ vatStarving s (hostDma p.queue.toNat)) := by
    rintro ⟨htransport, -, hstarving⟩
    rcases hfree with h | h
    · exact h (congrArg Fin.val htransport)
    · simp [h] at hstarving
  rw [finishCave, if_neg hnot, finish_eq_answer hfit]

theorem finishCave_waits (htransport : p.transport.val = 0) (hfit : l.length ≤ replySpace s p)
    (hstarving : vatStarving s (hostDma p.queue.toNat) = true) : finishCave s op p res l = waitFor s op p (.dma res l) :=
  if_pos ⟨Fin.ext htransport, hfit, hstarving⟩

end Cave

/-! ### Plans, trace and log -/

/-- Settles O57. -/
theorem planAndTraceCommandsComplete : Obligations.PlanAndTraceCommandsComplete := by
  refine ⟨?get, ?accept, ?reject, ?epoch, ?damage, ?rainflow, ?horizon, ?select, ?trigger, ?force, ?rearm, ?rearmPost, ?status,
    ?read, ?log, ?logStatus, ?dma⟩
  case get =>
    intro s t p hstart l hfit
    change execPlanGet p s = _
    exact onCmd_eq hstart (finishData_eq_answer hfit)
  case accept =>
    intro s t p hstart hawaits
    change execPlanAccept p s = _
    exact onCmd_eq hstart ((require_true hawaits).trans (finish_nil ..))
  case reject =>
    intro s t p hstart hawaits
    change execPlanReject p s = _
    exact onCmd_eq hstart ((require_true hawaits).trans (finish_nil ..))
  case epoch =>
    intro s t p hstart hbusy
    change execPlanEpoch p s = _
    exact onCmd_eq hstart (require_true (by simp [hbusy]))
  case damage =>
    intro s t p hstart l hfit
    change execPlanDamageRead p s = _
    exact onCmd_eq hstart (finishData_eq_answer hfit)
  case rainflow =>
    intro s t x p hstart hbusy hscope l hfit hfree
    change execPlanRainflowRead p s = _
    refine onCmd_eq hstart ?_
    simp only [hscope]
    exact (require_true (by simp [hbusy])).trans (finishCave_eq_answer hfit hfree)
  case horizon =>
    intro s t p hstart
    change execPlanHorizonSet p s = _
    exact onCmd_eq hstart rfl
  case select =>
    intro s t p hstart hrange
    change execTraceSelect p s = _
    exact onCmd_eq hstart ((require_true hrange).trans (finish_nil ..))
  case trigger =>
    intro s t p hstart hpoint hcond hdepth
    change execTraceTriggerSet p s = _
    exact onCmd_eq hstart ((require_true (by
      rw [decide_eq_true hpoint, decide_eq_true hcond, decide_eq_true hdepth, Bool.and_true, Bool.and_true])).trans
      (finish_nil ..))
  case force =>
    intro s t p hstart
    change execTraceForce p s = _
    exact onCmd_eq hstart (finish_nil ..)
  case rearm =>
    intro s t p hstart hfrozen
    change execTraceRearm p s = _
    refine onCmd_eq hstart ?_
    simp only [modCv, hfrozen]
    exact finish_nil ..
  case rearmPost =>
    intro s t p hstart hpost
    change execTraceRearm p s = _
    refine onCmd_eq hstart ?_
    simp only [modCv, hpost]
    exact finish_nil ..
  case status =>
    intro s t p hstart hfit
    change execTraceStatus p s = _
    exact onCmd_eq hstart (finishData_eq_answer hfit)
  case read =>
    intro s t fr p hstart hframes l hfit hfree
    change execTraceRead p s = _
    refine onCmd_eq hstart ?_
    simp only [hframes]
    exact finishCave_eq_answer hfit hfree
  case log =>
    intro s t p hstart hlow hhigh es hlen hfit hfree
    change execLogRead p s = _
    exact onCmd_eq hstart ((require_true (by
      rw [decide_eq_true hlow, decide_eq_true hhigh, beq_iff_eq.mpr hlen, Bool.and_true, Bool.and_true])).trans
      (finishCave_eq_answer hfit hfree))
  case logStatus =>
    intro s t p hstart l hfit
    change execLogStatus p s = _
    exact onCmd_eq hstart (finishData_eq_answer hfit)
  case dma =>
    intro s op p res l htransport hfit hstarving
    exact finishCave_waits htransport hfit hstarving

end Sys2Proof.Machine

/-!
PROOFS. What the time, power, diagnostic and lock opcodes do, and what ends a command that waits for the flash (chapter 13).
-/
namespace Sys2Proof.Machine

/-! ### Time and power -/

/-- Settles O58. -/
theorem timeAndPowerCommandsComplete : Obligations.TimeAndPowerCommandsComplete := by
  refine ⟨?get, ?set, ?pulse, ?pulseRefused, ?capture, ?ptp, ?idle, ?cure, ?run, ?status⟩
  case get =>
    intro s t p hstart q u l hfit
    change execTimeGet p s = _
    exact onCmd_eq hstart (finishData_eq_answer hfit)
  case set =>
    intro s t p hstart hparked hptp hns want
    change execTimeSet p s = _
    exact onCmd_eq hstart ((require_true hparked).trans ((require_true (by simp [hptp])).trans
      ((require_true (decide_eq_true hns)).trans (finish_nil ..))))
  case pulse =>
    intro s t u p hstart hout hns harm
    change execTimePulseSet p s = _
    refine onCmd_eq hstart ((require_true (by rw [decide_eq_true hout, decide_eq_true hns, Bool.and_true])).trans ?_)
    simp only [harm]
    exact finish_nil ..
  case pulseRefused =>
    intro s t u p hstart hout hns harm
    change execTimePulseSet p s = _
    refine onCmd_eq hstart ((require_true (by rw [decide_eq_true hout, decide_eq_true hns, Bool.and_true])).trans ?_)
    simp only [harm]
    exact finishSt_eq_answer ..
  case capture =>
    intro s t p hstart hinput c l hfit
    change execTimeCaptureRead p s = _
    exact onCmd_eq hstart ((require_true (decide_eq_true hinput)).trans (finishData_eq_answer hfit))
  case ptp =>
    intro s t p hstart hfit
    change execTimePtpStatus p s = _
    exact onCmd_eq hstart (finishData_eq_answer hfit)
  case idle =>
    intro s t p hstart hcheck
    change execPwrIdle p s = _
    exact onCmd_eq hstart ((if_pos hcheck).trans (finish_nil ..))
  case cure =>
    intro s t p hstart hcheck hlo hhi
    change execPwrCure p s = _
    refine onCmd_eq hstart ((if_neg (not_not_intro hcheck)).trans ?_)
    simp only [hlo, hhi, Nat.mul_zero, Nat.add_zero, bne_self_eq_false, Bool.false_and, Bool.false_eq_true, if_false, finish_nil]
  case run =>
    intro s t p hstart hidle
    change execPwrRun p s = _
    exact onCmd_eq hstart ((if_pos hidle).trans (finish_nil ..))
  case status =>
    intro s t p hstart
    change execPwrStatus p s = _
    exact onCmd_eq hstart (finish_nil ..)

/-! ### Locks -/

/-- A request in order, within the limits, that no other queue's lock stands against, is granted. -/
theorem reserve_grants {s : State} {p : Packet} {key : LockKey} {wait hold : Nat}
    (horder : ∀ l ∈ locksOf s p.queue.toNat, keyLt l.key key = true) (hall : s.cmd.locks.length < 64)
    (hown : (locksOf s p.queue.toNat).length < 16) (hfree : otherLock s p.queue.toNat key = none) :
    reserve s p key wait hold = grantLock s p key hold := by
  have hinOrder : ((locksOf s p.queue.toNat).any fun l => !keyLt l.key key) = false := by
    rw [List.any_eq_false]
    intro l hl
    simp [horder l hl]
  have hnotFull : locksFull s p.queue.toNat = false := by
    rw [locksFull, decide_eq_false (Nat.not_le.mpr hall), Bool.false_or]
    exact decide_eq_false (Nat.not_le.mpr hown)
  simp only [reserve, hinOrder, hnotFull, hfree, Bool.false_eq_true, if_false]

/-- Settles O59. -/
theorem diagnosticCommandsComplete : Obligations.DiagnosticCommandsComplete := by
  refine ⟨?read, ?clear, ?force, ?summary, ?halt, ?resume, ?eyeStart, ?eyeRead, ?cnt, ?reserve, ?release, ?query, ?releaseAll⟩
  case read =>
    intro s t p hstart hlow hhigh hend l hfit
    change execFaultRead p s = _
    exact onCmd_eq hstart ((require_true (by
      rw [decide_eq_true hlow, decide_eq_true hhigh, decide_eq_true hend, Bool.and_true, Bool.and_true])).trans
      (finishData_eq_answer hfit))
  case clear =>
    intro s t l p hstart hnames hdone
    change execFaultClear p s = _
    refine onCmd_eq hstart ?_
    simp only [hnames, hdone, Bool.false_eq_true, if_false, finishSt_eq_answer]
  case force =>
    intro s t u p hstart hsource hforce
    change execFaultForce p s = _
    refine onCmd_eq hstart ((require_true hsource).trans ?_)
    simp only [hforce, if_true, finishSt_eq_answer]
  case summary =>
    intro s t p hstart l hfit
    change execFaultSummary p s = _
    exact onCmd_eq hstart (finishData_eq_answer hfit)
  case halt =>
    intro s t u p hstart hhalt
    change execDbgHalt p s = _
    refine onCmd_eq hstart ?_
    simp only [hhalt, if_true, finishSt_eq_answer]
  case resume =>
    intro s t p hstart hhalted
    change execDbgResume p s = _
    refine onCmd_eq hstart ((require_true hhalted).trans ?_)
    rw [finish_nil, harpResume, if_pos hhalted]
  case eyeStart =>
    intro s t p hstart hlane hlow hhigh hfree
    change execLaneEyeStart p s = _
    exact onCmd_eq hstart ((require_true (by rw [hlane, decide_eq_true hlow, decide_eq_true hhigh, Bool.and_true, Bool.and_true])).trans
      ((require_true (by rw [hfree]; rfl)).trans (finish_nil ..)))
  case eyeRead =>
    intro s t p hstart hmap hpart l hfit hfree
    have hsome : (!(tget [] t.cave.eyes (pw p 0)).isEmpty) = true := by simpa using hmap
    change execLaneEyeRead p s = _
    exact onCmd_eq hstart ((require_true (by rw [hsome, Bool.true_and]; exact hpart)).trans (finishCave_eq_answer hfit hfree))
  case cnt =>
    intro s t p hstart hlanes
    change execCntClear p s = _
    refine onCmd_eq hstart ?_
    simp only [hlanes]
    exact finish_nil ..
  case reserve =>
    intro s t p hstart hwait hhold key horder hall hown hfree
    change execLockReserve p s = _
    exact onCmd_eq hstart ((require_true (by rw [decide_eq_true hwait, decide_eq_true hhold, Bool.and_true])).trans
      ((reserve_grants horder hall hown hfree).trans (finish_nil ..)))
  case release =>
    intro s t p hstart l hl
    have hsome : (!l.isEmpty) = true := by simpa using hl
    change execLockRelease p s = _
    exact onCmd_eq hstart ((require_true hsome).trans (finish_nil ..))
  case query =>
    intro s t p hstart hnone
    change execLockQuery p s = _
    refine onCmd_eq hstart ?_
    simp only [hnone]
    exact finish_nil ..
  case releaseAll =>
    intro s t p hstart
    change execLockReleaseAll p s = _
    exact onCmd_eq hstart (finish_nil ..)

/-! ### The end of a flash access -/

/-- The row for the command of queue q that waits for the flash. -/
theorem execFlashAccessComplete_eq {q : Fin 32} {w : Waiting} {s u : State} {ok : Bool} (hclock : clocked s = true)
    (hwait : (s.cmd.waits.find? fun w => w.queue = q.val ∧ w.wait = .flash) = some w) (hdone : flashDone (unwait s w) w ok = u) :
    exec (.flashAccessComplete q ok) s = .next (settle u) := by
  change execFlashAccessComplete q ok s = _
  refine onCore_eq hclock ?_
  simp only [hwait]
  exact hdone

theorem flashFailed_eq (s : State) (op : Half) :
    flashFailed s op.toNat = if op = 0x0106 ∨ op = 0x0108 ∨ op = 0x0206 then raiseE s 829 0 else s := by
  simp only [flashFailed, ← BitVec.toNat_inj]
  rfl

theorem selectSlot_selects {s : State} {p : Packet} {v : Word} {crc : Nat} (hslot : slotImage s (pw p 0) = some (v, crc))
    (hcrc : crc = pw p 1) :
    selectSlot s p = answer (flashPut s (0x1000 * (newerRecord s).2)
      (recordOf (match (newerRecord s).1 with | some (n, _) => n + 1 | none => 1) (pw p 0) crc)) p stOk 0 [] := by
  simp only [selectSlot, hslot, if_pos hcrc]
  exact finish_nil ..

/-- Settles O60. -/
theorem flashAccessEndsItsCommand : Obligations.FlashAccessEndsItsCommand := by
  intro q w s hclock hwait t p
  refine ⟨?failed, ?persist, ?read, ?write, ?select, ?save, ?busy, ?load, ?cal, ?map, ?horizon⟩
  case failed =>
    refine execFlashAccessComplete_eq hclock hwait ?_
    rw [flashDone, flashFailed_eq, finishSt_eq_answer]
    rfl
  case persist =>
    intro hop
    refine execFlashAccessComplete_eq hclock hwait ?_
    rw [flashDone, hop]
    exact finish_nil ..
  case read =>
    intro hop hfit
    refine execFlashAccessComplete_eq hclock hwait ?_
    rw [flashDone, hop]
    exact finishData_eq_answer hfit
  case write =>
    intro hop
    refine execFlashAccessComplete_eq hclock hwait ?_
    rw [flashDone, hop]
    exact finish_nil ..
  case select =>
    intro v crc hop hslot hcrc
    refine execFlashAccessComplete_eq hclock hwait ?_
    rw [flashDone, hop]
    exact selectSlot_selects hslot hcrc
  case save =>
    intro hop
    refine execFlashAccessComplete_eq hclock hwait ?_
    rw [flashDone, hop]
    exact finish_nil ..
  case busy =>
    intro hop hbusy
    refine execFlashAccessComplete_eq hclock hwait ?_
    rw [flashDone, hop]
    exact (if_pos hbusy).trans (finishSt_eq_answer ..)
  case load =>
    intro l hop hidle hnewest
    refine execFlashAccessComplete_eq hclock hwait ?_
    rw [flashDone, hop, hnewest]
    exact (if_neg (c := bankBusy t = true) (by simp [hidle])).trans (finish_nil ..)
  case cal =>
    intro hop
    refine execFlashAccessComplete_eq hclock hwait ?_
    rw [flashDone, hop]
    exact finish_nil ..
  case map =>
    intro hop
    refine execFlashAccessComplete_eq hclock hwait ?_
    rw [flashDone, hop]
    exact finish_nil ..
  case horizon =>
    intro hop
    refine execFlashAccessComplete_eq hclock hwait ?_
    rw [flashDone, hop]
    exact finish_nil ..

end Sys2Proof.Machine
